-- ==== Sys2Proof/Word.lean ====
section
/-! DEFINITION. The word types of the register convention and the sparse table every part of the
state uses. -/

namespace Sys2Proof

/-- One byte. -/
abbrev Byte := BitVec 8

/-- One 32-bit register word (R36). -/
abbrev Word := BitVec 32

/-- A sparse table: pairs of a key and a value. Every
operation keeps the keys rising; `NMap.canon` is the one canonical form. -/
abbrev NMap (α : Type) := List (Nat × α)

/-- The value held for `k`, if an entry of `k` is listed. -/
def NMap.get? {α : Type} : NMap α → Nat → Option α
  | [], _ => none
  | (k', v) :: m, k => if k' = k then some v else NMap.get? m k

/-- The value held for `k`, or `dflt` where none is listed. -/
def NMap.getD {α : Type} (m : NMap α) (k : Nat) (dflt : α) : α := (m.get? k).getD dflt

/-- Hold `v` for `k`: the entry takes its place in the rising order of the keys, over any entry of
that key. -/
def NMap.set {α : Type} (m : NMap α) (k : Nat) (v : α) : NMap α :=
  match m with
  | [] => [(k, v)]
  | (k', v') :: m =>
    if k < k' then (k, v) :: (k', v') :: m
    else if k = k' then (k, v) :: m
    else (k', v') :: NMap.set m k v

/-- The table without the entries of `k`. -/
def NMap.erase {α : Type} (m : NMap α) (k : Nat) : NMap α := m.filter (fun e => e.1 != k)

/-- The table without the entries whose key is in `p`. -/
def NMap.drop {α : Type} (m : NMap α) (p : Nat → Bool) : NMap α := m.filter (fun e => !p e.1)

/-- Keys in rising order, each once. -/
def NMap.sort {α : Type} (m : NMap α) : NMap α := m.foldr (fun e acc => NMap.set acc e.1 e.2) []

/-- The one canonical form: keys strictly rising and no entry equal to what an unlisted key
reads as. -/
def NMap.canon {α : Type} [DecidableEq α] (dflt : Nat → α) (m : NMap α) : NMap α :=
  m.sort.filter (fun e => e.2 != dflt e.1)

/-- Keys strictly rising. -/
def NMap.rising {α : Type} : NMap α → Bool
  | [] => true
  | [_] => true
  | a :: b :: m => decide (a.1 < b.1) && NMap.rising (b :: m)

/-- The canonical form holds. -/
def NMap.wf {α : Type} [DecidableEq α] (dflt : Nat → α) (m : NMap α) : Bool :=
  m.rising && m.all (fun e => e.2 != dflt e.1)

end Sys2Proof
end

