-- ==== Sys2Proof/Syntax.lean ====
section
/-! DEFINITION. What a command names (owners, pages, addresses, frames) and the commands
themselves, one constructor per row of spec/opcode_table.json. -/

namespace Sys2Proof

/-- The parties whose register writes the device tells apart by path (R45). -/
inductive Owner where
  /-- 0x1, the host physical function. -/
  | host
  /-- 0x2, the SPI management port. -/
  | spi
  /-- 0x3 to 0x6, pairs 0 to 3 of the control cluster. -/
  | pair (n : Fin 4)
  /-- 0x7, the peer unit. -/
  | peer
  /-- 0x8, the boot loader. -/
  | boot
  deriving DecidableEq, Repr

/-- The lock owner code of a party (R45). -/
def Owner.code : Owner → Nat
  | .host => 1
  | .spi => 2
  | .pair n => 3 + n.val
  | .peer => 7
  | .boot => 8

/-- The register page sets (R41), the three sets of PMK (R262), the two of EDG (R291) and the
capture pages of DST (R413) each under its own name. -/
inductive PageKind where
  | trc | sys | boot | pwr | flt | key | wax | msc | pmk | evo | cap | prt | bur | fwl | shl
  | sch | frk | can | lin | npt | hbr | dma | dst | dcap | mmu | ccl | adj | upd | lbx
  deriving DecidableEq, Repr

/-- One register page instance. -/
structure Page where
  kind : PageKind
  inst : Nat
  deriving DecidableEq, Repr

/-- The three address spaces of the endpoint (R35). -/
inductive Space where
  | bar0 | bar2 | bar4
  deriving DecidableEq, Repr

/-- Where an access goes: an address of a space, or a register named by its page and its offset
(the pages whose BAR0 base the manual does not state are reached so). -/
inductive Target where
  | addr (sp : Space) (a : Nat)
  | reg (p : Page) (off : Nat)
  deriving DecidableEq, Repr

/-- What the enable state machine of R46 governs: a page or a DMA queue (R385). -/
inductive Unit' where
  | page (p : Page)
  | rxq (q : Fin 64)
  | txq (q : Fin 64)
  deriving DecidableEq, Repr

/-- What the checks of one decision find beside what the tables say (R141, R142, R184): nothing; a
corrected single-bit error; an uncorrectable error in the table copy a BUR checker names; a difference
found by both comparators, or by one; a connection entry whose records are not complements, whose
read is uncorrectable, or whose updated records differ. -/
inductive Upset where
  | none
  | corrected
  | table (checker : Nat)
  | lanes
  | one (comparator : Fin 2)
  | record
  | recordRead
  | recordWrite
  deriving DecidableEq, Repr

/-- A CAN or LIN message (R292, R300, R305). `fmt`: 0 classic, 1 FD, 2 XL, 3 LIN. -/
structure CanMsg where
  fmt : Nat := 0
  ext : Bool := false
  rtr : Bool := false
  id : Nat := 0
  brs : Bool := false
  esi : Bool := false
  sdt : Nat := 0
  vcid : Nat := 0
  af : Nat := 0
  sec : Bool := false
  rrs : Bool := false
  data : List Byte := []
  /-- message_timestamp when mtv = 1 (R304, R308). -/
  ts : Option Nat := none
  deriving DecidableEq, Repr

/-- What the host answers to a queue's reads and writes: the buffer IOVAs of the descriptors in ring
order, and an access that fails: ERR, its address, and CAUSE where a write was contained. -/
structure HostSide where
  bufs : List Nat := []
  fail : Option (Nat × Nat × Option Nat) := none
  deriving DecidableEq, Repr

/-- One descriptor of a transmit ring with its buffer, as the host's memory holds them. -/
structure TxDesc where
  addr : Nat
  ts : Bool
  eop : Bool
  len : Nat
  bytes : List Byte
  deriving DecidableEq, Repr

/-- The next frame of a transmit queue as the host's memory holds it, or the access that fails. -/
structure TxNext where
  q : Nat
  descs : List TxDesc
  fail : Option (Nat × Nat) := none
  deriving DecidableEq, Repr

/-- A request to the deep store from a requester that acts on its own (R405): an access of a pair's
firmware through the MMU, with the bytes it writes; the connection sweeper; the ECC initialiser. -/
inductive DsArrival where
  | pair (p : Fin 4) (ctx : Fin 16) (dva : BitVec 64) (bytes : Nat)
  | pairWrite (p : Fin 4) (ctx : Fin 16) (dva : BitVec 64) (data : List Byte)
  | sweeper
  | initialise
  deriving DecidableEq, Repr

/-- A frame as it ends at an ingress MAC (R92): its bytes from the destination address on without the
FCS, whether the FCS is good and every code group was, corrected and uncorrectable codewords met, the
fragments it came in where it was pre-empted, whether their assembly failed, and bad SMDs met. -/
structure RxEnd where
  data : List Byte
  fcsGood : Bool := true
  codeErr : Bool := false
  fecCorrected : Nat := 0
  fecUncorrected : Nat := 0
  fragments : Nat := 0
  assemblyErr : Bool := false
  smdErrs : Nat := 0
  deriving DecidableEq, Repr

/-- What an MKA timer of a port makes pair 3 do (R346, R466), as the protocol of IEEE 802.1X-2020 has it,
which the manual names and does not restate: send an MKPDU; find so many live peers and the key server; or
take a SAK into use, by its AN and key number, wrapped as received where the unit is not the key server, with
the transmit SSCI, the salt and for each peer its SCI, SSCI and lowest acceptable PN. `other` is a timer of
connection management. -/
inductive MkaStep where
  | send (mkpdu : List Byte)
  | peers (live : BitVec 8) (server : Bool)
  | sak (an : Fin 4) (number : BitVec 32) (wrapped : List Byte) (ssci : BitVec 32) (salt : List Byte)
      (peers : List (BitVec 64 × BitVec 32 × BitVec 64))
  | other
  deriving DecidableEq, Repr

/-- How a start step ends at its present variant (R73): what its checks found, and where they matter the pairs whose
start-up test failed (step 0x08, R426), the ports that failed to start (step 0x0C), and whether the regulator's
VOUT_MODE states linear format (step 0x09, R360). -/
structure StepEnd where
  good : Bool := true
  bad2 : Bool := false
  bad3 : Bool := false
  ports : BitVec 40 := 0
  linear : Bool := true
  deriving DecidableEq, Repr

/-- What CHAIN_IN shows (R81): low for 100 µs or more, a complete train of `n` pulses, or a chain error. -/
inductive ChainIn where
  | low
  | train (n : Fin 16)
  | error
  deriving DecidableEq, Repr

/-- How a step of a hitless activation ends (R516, R517): within its bound and well; a Quiesce past its bound;
a failure to load or to hand over. -/
inductive HitlessEnd where
  | done | timeout | fail
  deriving DecidableEq, Repr

/-- The commands the device takes, one constructor per row of spec/opcode_table.json. -/
inductive Instr where
  /-- REGISTER_WRITE (R28). A write to a register that has no row of its own is decoded in arrival order and either takes effect or is refused and sets WRITE_REFUSED. -/
  | registerWrite (who : Owner) (target : Target) (size : Nat) (data : BitVec 64)
  /-- DOMAIN_ACCESS_WAKE (R39). An access to a page whose power domain is not in Run wakes that domain, fires wake source 0x2A and stalls. -/
  | domainAccessWake (who : Owner) (target : Target) (write : Bool) (size : Nat) (data : BitVec 64)
  /-- DOMAIN_READY (R350). The woken domain becomes ready, and the stalled access and the posted writes held behind it complete. -/
  | domainReady (domain : Fin 17)
  /-- ACCESS_STALL_TIMEOUT (R352). A domain still not ready 8 ms after the access fails it, fills the access error record and raises STALL_TIMEOUT and a SUPPLY fault. -/
  | accessStallTimeout
  /-- LOCK_ACQUIRE (R49). LOCK_REQ = 0b01 grants the page lock to the writer if it is free, or is refused if another owner holds it. -/
  | lockAcquire (who : Owner) (p : Page)
  /-- LOCK_RELEASE (R54). LOCK_REQ = 0b10 from the holder releases the lock, discards uncommitted staged writes and abandons the holder's open shadow. -/
  | lockRelease (who : Owner) (p : Page)
  /-- COMMIT (R52). PAGE_CTRL.COMMIT from the lock holder applies every staged write of the page as one change, unless the writer lacks the lock or TORN = 1. -/
  | commit (who : Owner) (p : Page)
  /-- PAGE_EN_REQUEST (R46). A write of ON or OFF to the EN field of a page or DMA queue moves it through the enable state machine or records the request as pending. -/
  | pageEnRequest (who : Owner) (u : Unit') (on : Bool)
  /-- START_COMPLETE (R46). A page or queue in STARTING completes its start and goes ON, or to STOPPING if OFF is pending. -/
  | startComplete (u : Unit')
  /-- STOP_COMPLETE (R46). A page or queue in STOPPING completes its stop, releases its claims and goes OFF, then handles a pending ON. -/
  | stopComplete (u : Unit')
  /-- TORN_CLEAR (R56). A write of 1 to PAGE_STAT.TORN from the lock holder clears TORN and PAGE_TORN_OWNER; from anyone else it is refused. -/
  | tornClear (who : Owner) (p : Page)
  /-- LOCK_OWNER_RESET (R55). A reset event of a lock owner releases its locks within 1 µs, discards its staged writes with TORN set and abandons its uncommitted edition. -/
  | lockOwnerReset (owner : Owner)
  /-- SNAPSHOT (R58). A write to a page's SNAP register captures all counters of the instance at one clock edge and holds later accesses until done. -/
  | snapshot (who : Owner) (p : Page)
  /-- SNAPSHOT_DONE (R58). A snapshot completes, SNAP_SEQ increments and the held accesses return the new values. -/
  | snapshotDone (p : Page)
  /-- FAULT_INJECT (R143). FLT_INJ.GO arms the selected checker to see inverted check bits once, or is refused for a reserved index. -/
  | faultInject (who : Owner) (p : Page) (checker : Byte)
  /-- POP_ACK (R60). A write to POP_ACK with the head's SEQ frees the head entry; any other SEQ sets STALE_ACK. -/
  | popAck (who : Owner) (window : Fin 64) (seq : BitVec 16)
  /-- FEATURES_ACCEPT (R65). A write of SYS_FEATURES_OK.ACCEPT clears FAILED and starts negotiation of the requested feature set. -/
  | featuresAccept (who : Owner)
  /-- FEATURES_DONE (R65). Within 2 µs the requested set is put in force with OK = 1, or refused with FAILED and the first failing reason. -/
  | featuresDone
  /-- VSTBY_POWER_ON (R67). A VSTBY power-on resets the whole device including the always-on island and clears SYS_RESET_CAUSE to STBY_POR. -/
  | vstbyPowerOn (dbg : Bool)
  /-- MAIN_POWER_ON (R67). Main supplies power-on causes a device reset and runs the start sequence. -/
  | mainPowerOn (dbg : Bool)
  /-- RESET_PIN (R67). RESET_N held low for 1 µs or more causes a device reset. -/
  | resetPin (ns : Nat) (dbg : Bool)
  /-- DEVICE_RESET_REQUEST (R69). A write of SYS_RESET_CTRL.DEVICE with KEY 0x5A17 resets the device within 2 µs; any other KEY is refused. -/
  | deviceResetRequest (who : Owner) (key : BitVec 16)
  /-- PCIE_RESET (R45). PERST#, hot reset, link down or Function Level Reset resets the PCIe endpoint and DMA queues and is a reset event of owner 0x1. -/
  | pcieReset (flr : Bool)
  /-- SPI_PORT_RESET (R373). A request of sixteen 0xFF bytes resets the SPI management port, discards its result, releases owner 0x2 locks and abandons mailbox 2. -/
  | spiPortReset
  /-- START_STEP_DONE (R73). A start step ends: success records the docket entry and begins the next step; an in-line failure moves to the next variant, skip or Hold. -/
  | startStepDone (e : StepEnd)
  /-- START_STEP_TIMEOUT (R74). A start step that exceeds its time limit causes a device reset with STEP_WDOG and a TIMEOUT docket entry. -/
  | startStepTimeout
  /-- BOOT_RETRY_TOP (R75). A write of 1 to BOOT_RETRY.TOP makes the next start begin every step at variant 0. -/
  | bootRetryTop (who : Owner)
  /-- CHAIN_TRAIN_RX (R82). A complete pulse train arrives on CHAIN_IN and gives the address count, or is discarded as a chain error. -/
  | chainTrainRx (what : ChainIn)
  /-- CHAIN_TRAIN_TX (R81). A unit with an address sends its pulse train on CHAIN_OUT when it takes the address and every 10 ms after. -/
  | chainTrainTx
  /-- CHAIN_WAIT_TIMEOUT (R82). A unit that has received no train by 100 ms from t0 takes address 0. -/
  | chainWaitTimeout
  /-- RX_SOF (R265). The start-of-frame delimiter passes an ingress MAC and the frame is stamped on anchor 0 and anchor 1. -/
  | rxSof (p : Fin 40)
  /-- RX_FRAME_END (R92). A received frame ends at the MAC and is checked for runt, oversize, FCS, code error and PAUSE/PFC, the failures being discarded and counted. -/
  | rxFrameEnd (p : Fin 40) (e : RxEnd)
  /-- FRAME_STORED (R201). The last cell of a good frame is written and the frame becomes stored, its header copy going to the Burin. -/
  | frameStored (frame : Nat)
  /-- CLASSIFY_FRAME (R112). A header copy gets a pipeline slot, latches the edition, and both lanes parse, build the key, look up and form the firewall verdict. -/
  | classifyFrame (frame : Nat) (u : Upset)
  /-- CONNECTION_LOOKUP_DONE (R183). A connection-table read returns and the lane decides the tracked frame from the entry in bucket order. -/
  | connectionLookupDone (frame : Nat) (u : Upset)
  /-- RESULT_HANDOFF (R111). A checked result is handed to the Sorting Hall in stored order per ingress port, after the results of earlier frames. -/
  | resultHandoff (frame : Nat)
  /-- SPILL_WRITTEN (R214). A spilled frame's blocks are all in the deep store and its on-chip cells return to the free list. -/
  | spillWritten
  /-- REFILL_READ (R214). With the on-chip part below ON/2 and shared cells available, the head of the spilled part is read back. -/
  | refillRead (p : Fin 43) (q : Fin 8)
  /-- REFILL_DONE (R214). A read-back frame is rewritten on chip as the tail of the on-chip part, or freed if aged or uncorrectable. -/
  | refillDone (p : Fin 43) (q : Fin 8) (uncorr : Bool)
  /-- SPILL_BUDGET_CREDIT (R213). Every 100 ns the spill write and read budgets are credited. -/
  | spillBudgetCredit
  /-- AGE_HEAD_SCAN (R209). At least every 8 µs the head of every non-empty queue is examined and discarded if older than LIMIT. -/
  | ageHeadScan
  /-- QUEUE_RELEASE (R242). The highest selectable queue of a port releases its head frame to the egress quad. -/
  | queueRelease (p : Fin 43) (corrected uncorr : Bool) (host : HostSide)
  /-- TX_FRAME_DONE (R207). A copy finishes on the wire and its cells return to the free list when it was the last copy. -/
  | txFrameDone (p : Fin 40) (fragments collisions : Nat)
  /-- AUDIT_CHECK (R225). Once every 4,096 island cycles the auditor sums each kind's accounts and reports a difference as a CONSERVATION fault. -/
  | auditCheck (kind : Fin 5) (island : BitVec 8) (account : BitVec 16) (diff : Int)
  /-- AUDIT_CENSUS (R225). A cell-tag census completes every 16 ms and reports any difference with ACCOUNT 0xFFFF. -/
  | auditCensus (diff : Int)
  /-- LOW_WATER_RESTART (R217). A write of SHL_LOW_WATER.RESTART sets LOW to the present SHL_SHARED_FREE. -/
  | lowWaterRestart (who : Owner)
  /-- PORT_DRAIN_TIMEOUT (R95). At the drain limit T of a stopping port, frames still queued are freed and counted in TX_STOP_DISCARD. -/
  | portDrainTimeout (p : Fin 40)
  /-- PORT_LANES_DOWN (R95). 50 µs after the last frame of a stopping port, PCS and lane power down and the port reaches OFF. -/
  | portLanesDown (p : Fin 40)
  /-- PCS_LOCK_CHANGE (R96). PCS block lock, code-group sync or MII carrier is gained or lost on a port. -/
  | pcsLockChange (p : Fin 40) (lock : Bool)
  /-- LINK_FAULT_RX (R97). Local or remote fault signalling is received or ends, changing what the reconciliation sublayer sends. -/
  | linkFaultRx (p : Fin 40) (localFault remoteFault : Bool)
  /-- AN_DONE (R96). Auto-negotiation resolves and sets the speed in force. -/
  | anDone (p : Fin 40) (speed : Fin 16)
  /-- LINK_UP (R96). All link conditions have held for UP_HOLD ms and UP is set. -/
  | linkUp (p : Fin 40)
  /-- MDIO_POLL (R104). Every POLL_MS ms an MDIO master reads the PHY and TC10 status of the ports naming it. -/
  | mdioPoll (m : Fin 4) (reads : List (Nat × Nat × Nat))
  /-- MDIO_WRITE (R104). GO with OP write runs an MDIO write command on the master. -/
  | mdioWrite (who : Owner) (m : Fin 4) (c45 : Bool) (phyad devad : Fin 32) (reg : BitVec 16)
  /-- MDIO_READ (R104). GO with OP read runs an MDIO read command on the master. -/
  | mdioRead (who : Owner) (m : Fin 4) (c45 : Bool) (phyad devad : Fin 32) (reg : BitVec 16)
  /-- MDIO_DONE (R104). An MDIO command finishes, sets DONE and raises MDIO_DONE. -/
  | mdioDone (m : Fin 4) (answer : BitVec 16)
  /-- MM_VERIFY_TX (R101). Every VERIFY_MS ms a verify frame is sent, at most three times, after UP is set. -/
  | mmVerifyTx (p : Fin 24)
  /-- MM_VERIFY_RESPONSE (R101). A matching verify response is received and verification succeeds. -/
  | mmVerifyResponse (p : Fin 24)
  /-- PLCA_BEACON_TX (R103). A coordinator port sends a beacon at the start of each PLCA cycle. -/
  | plcaBeaconTx (k : Fin 8)
  /-- PLCA_BEACON_RX (R103). A follower receives a beacon and sets ACTIVE = 1. -/
  | plcaBeaconRx (k : Fin 8)
  /-- PLCA_BEACON_LOST (R103). A follower that receives no beacon for 400 µs falls back to CSMA/CD and raises PLCA_BEACON_LOST. -/
  | plcaBeaconLost (k : Fin 8)
  /-- TC10_SLEEP_CMD (R105). PRT_TC10_CTRL.CMD sleep starts the drain toward TC10 sleep. -/
  | tc10SleepCmd (who : Owner) (p : Fin 40) (acceptRemote : Bool)
  /-- TC10_WAKE_CMD (R105). PRT_TC10_CTRL.CMD wake writes WAKE_VALUE to an asleep PHY. -/
  | tc10WakeCmd (who : Owner) (p : Fin 40) (acceptRemote : Bool)
  /-- TC10_DRAIN_DONE (R105). The TC10 drain ends and SLEEP_VALUE is written to the PHY. -/
  | tc10DrainDone (p : Fin 40)
  /-- TC10_SLEEP_TIMEOUT (R105). 50 ms in SLEEP_PENDING without ASLEEP returns the port to AWAKE and raises TC10_FAIL. -/
  | tc10SleepTimeout (p : Fin 40)
  /-- TC10_WAKE_TIMEOUT (R105). 100 ms in WAKING without UP returns the port to AWAKE with R98 applied. -/
  | tc10WakeTimeout (p : Fin 40)
  /-- EM_INSERT (R124). BUR_EM_CMD INSERT adds or replaces an exact-match entry in both lane copies of the open shadow. -/
  | emInsert (who : Owner)
  /-- EM_DELETE (R124). BUR_EM_CMD DELETE removes an exact-match entry from the open shadow. -/
  | emDelete (who : Owner)
  /-- EM_LOOKUP (R124). BUR_EM_CMD LOOKUP finds an entry and returns its word 0 in BUR_EM_ENTRY0. -/
  | emLookup (who : Owner)
  /-- EM_DONE (R124). An exact-match command completes, sets DONE and RESULT and raises EM_DONE. -/
  | emDone
  /-- FRAG_RECORD_EXPIRE (R131). A fragment-follow record expires 2 ms after it was made. -/
  | fragRecordExpire
  /-- TABLE_WINDOW_WRITE (R150). A 64-bit BAR4 write lands in the open shadow from its owner or is discarded and counted as foreign. -/
  | tableWindowWrite (who : Owner) (off : BitVec 32) (data : BitVec 64)
  /-- EDITION_OPEN (R148). BUR_EDITION_CMD OPEN opens a shadow copy of the current edition owned by the lock holder. -/
  | editionOpen (who : Owner)
  /-- EDITION_COMMIT (R154). BUR_EDITION_CMD COMMIT checks, freezes and self-tests the shadow and starts saving it to flash. -/
  | editionCommit (who : Owner) (revoke selfTest : Bool)
  /-- EDITION_ABANDON (R160). BUR_EDITION_CMD ABANDON from the owner discards the open shadow. -/
  | editionAbandon (who : Owner)
  /-- EDITION_LOAD (R165). BUR_EDITION_CMD LOAD checks and applies the image in the load window to the open shadow. -/
  | editionLoad (who : Owner)
  /-- EDITION_CMD_DONE (R153). An OPEN, ABANDON or LOAD command finishes, setting DONE and RESULT and raising EDITION_DONE. -/
  | editionCmdDone
  /-- EDITION_SAVE_DONE (R154). The shadow is saved to the configuration store and the Burin pauses, holding new headers. -/
  | editionSaveDone (pages : Nat) (ok : Bool)
  /-- EDITION_FLIP (R154). With the pipelines empty, CUR becomes the new edition, revocation is recorded and the shadow closes. -/
  | editionFlip
  /-- EDITION_RESUME (R154). Held headers are classified under the new edition and the commit completes with EDITION_DONE. -/
  | editionResume
  /-- CT_SWEEP (R180). The sweeper visits a bucket, freeing expired, other-epoch and failing entries and rechecking old revocable ones. -/
  | ctSweep (bucket : Nat) (bad : Option (Fin 8))
  /-- CAN_LIMITER_CREDIT (R189). Every 1 ms each CAN rate limiter is credited RATE/1,000 messages up to BURST. -/
  | canLimiterCredit
  /-- DIAG_GATE_OPEN (R194). OPEN_REQ opens diagnostic gate p for SECONDS seconds and raises GATE_CHANGE. -/
  | diagGateOpen (who : Owner) (p : Fin 3) (seconds : BitVec 16)
  /-- DIAG_GATE_CLOSE (R194). CLOSE_REQ closes diagnostic gate p at once. -/
  | diagGateClose (who : Owner) (p : Fin 3)
  /-- DIAG_GATE_EXPIRE (R194). A diagnostic gate whose SECONDS counts down to 0 closes. -/
  | diagGateExpire (p : Fin 3)
  /-- CT_QUERY (R200). Letterbox CT_QUERY returns record A and counters of one connection entry. -/
  | ctQuery (mailbox : Fin 4)
  /-- CT_FLUSH (R200). Letterbox CT_FLUSH frees the connection entries that match its filter. -/
  | ctFlush (mailbox : Fin 4)
  /-- CT_DUMP (R200). Letterbox CT_DUMP writes matching connection entries to a host buffer. -/
  | ctDump (mailbox : Fin 4)
  /-- TOKEN_REFILL_TICK (R252). Every 64 ns the policer buckets and CBS credits are refilled and pending table writes apply. -/
  | tokenRefillTick (bad : List (Fin 43 × Fin 8))
  /-- FRER_RESET (R255). A recovery function that accepts no frame for RESET_MS returns to take-any and raises FRER_RESET. -/
  | frerReset (index : Fin 1024)
  /-- GATE_EVENT (R235). A gate control list entry begins at its list time, setting the gates and hold. -/
  | gateEvent (port : Fin 43) (uncorr : Bool)
  /-- GCL_CHANGE (R236). SCH_GCL_CMD.CHANGE copies the administrative list into the pending slot and computes the swap time. -/
  | gclChange (who : Owner) (port : Fin 43)
  /-- GCL_CANCEL (R238). SCH_GCL_CMD.CANCEL discards a pending change. -/
  | gclCancel (who : Owner) (port : Fin 43)
  /-- GCL_COPY_DONE (R236). The copy into the pending slot completes and S is shown in SCH_GCL_PEND_TIME. -/
  | gclCopyDone (port : Fin 40)
  /-- GCL_SWAP (R237). At S the pending configuration becomes operational, or the running entry is extended under FINISH_SLOT. -/
  | gclSwap (port : Fin 40)
  /-- GCL_EXTENSION_END (R237). An extended old entry ends and the new list takes over, raising SWAPPED. -/
  | gclExtensionEnd (port : Fin 40)
  /-- GCL_ENTRY_WRITE (R245). A write completing SCH_GCL_ENTRY sets an administrative entry and advances INDEX. -/
  | gclEntryWrite (who : Owner) (port : Fin 43) (value : BitVec 64)
  /-- MAX_RESTART (R245). SCH_MAX_RESTART sets every queue maximum of the port to 0. -/
  | maxRestart (who : Owner) (port : Fin 43)
  /-- HIST_DEPTH_SAMPLE (R259). Every PERIOD_US the depths of all eight queues are sampled into the histograms. -/
  | histDepthSample (port : Fin 43)
  /-- FRK_TBL_READ (R248). FRK_TBL_CMD read copies the selected entry into W0–W7. -/
  | frkTblRead (who : Owner)
  /-- FRK_TBL_WRITE (R248). FRK_TBL_CMD write writes the selected entry from W0–W7 or refuses it. -/
  | frkTblWrite (who : Owner)
  /-- FRK_TBL_DONE (R248). A FRK table command completes, sets DONE and RESULT and raises TBL_DONE. -/
  | frkTblDone
  /-- SCHED_LOAD (R258). Letterbox SCHED_LOAD checks a schedule image and writes FRK tables and administrative lists under the pages' locks. -/
  | schedLoad (mailbox : Fin 4) (image : List Byte)
  /-- GPTP_RX (R267). A gPTP message diverted at an ingress MAC is handled by the engine or discarded and counted. -/
  | gptpRx
  /-- SYNC_TX (R269). A grandmaster anchor sends a Sync every 2^SYNC seconds on MASTER ports. -/
  | syncTx (anchor : Fin 2)
  /-- PDELAY_REQ_TX (R269). A Pdelay_Req is sent every 2^PDELAY seconds on ports without a static delay. -/
  | pdelayReqTx
  /-- ANCHOR_TIMEOUT (R273). An anchor without a sample for TIMEOUT Sync intervals enters HOLDOVER or FOLLOW. -/
  | anchorTimeout (anchor : Fin 2)
  /-- ANCHOR_SET (R273). CMD.SET loads a FREE anchor's time from PMK_ANCHORn_SET. -/
  | anchorSet (who : Owner) (anchor : Fin 2)
  /-- ANCHOR_RESYNC (R273). CMD.RESYNC accepts a step out of SPLIT and returns the anchor to ACQUIRING. -/
  | anchorResync (who : Owner) (anchor : Fin 2)
  /-- WC_ENABLE (R277). A write of EN from 0 to 1 sets a working clock to its source's time and rate. -/
  | wcEnable (who : Owner) (clock : Fin 6) (value : Word)
  /-- WC_RESTEP (R276). PMK_WCc_CMD.RESTEP steps a working clock to its source now. -/
  | wcRestep (who : Owner) (clock : Fin 6)
  /-- WC_UPDATE (R277). Every 1 ms each working clock corrects its rate toward its source. -/
  | wcUpdate
  /-- LATCH (R279). PMK_LATCH.GO latches all eight clocks at one Postmark edge. -/
  | latch (who : Owner)
  /-- LATCH_DONE (R279). The latch completes, PMK_LATCH_SEQ increments and LATCHED is raised. -/
  | latchDone
  /-- EVO_LEADING_EDGE (R282). A pulse falls due on an event output and is driven, muted or forced. -/
  | evoLeadingEdge (output : Fin 16)
  /-- EVO_TRAILING_EDGE (R282). A pulse on an event output ends after WIDTH. -/
  | evoTrailingEdge (output : Fin 16)
  /-- CAPTURE_EDGE (R285). An accepted edge on CAPIN k is stamped into its capture window or counted as missed. -/
  | captureEdge (input : Fin 8) (rising : Bool)
  /-- TIME_CARRY (R287). Every 31.25 ms the always-on island takes anchor 0 time and PMK_HS_DELTA to carry. -/
  | timeCarry
  /-- CAN_RX_VALID (R303). A message becomes valid on a CAN or LIN source bus and is routed directly, bridged or discarded. -/
  | canRxValid (bus : Fin 24) (msg : CanMsg) (ago : Nat) (u : Upset)
  /-- CAN_TX_DONE (R307). A transmitted message becomes valid on the bus and leaves the transmit buffer. -/
  | canTxDone (bus : Fin 24)
  /-- CAN_TX_ERROR (R307). A message loses arbitration or meets an error and is retried under the error counting rules. -/
  | canTxError (bus : Fin 24) (lost exempt : Bool)
  /-- BUS_OFF_RECOVERED (R299). After 128 occurrences of 11 recessive bits the controller leaves bus-off and raises RECOVERED. -/
  | busOffRecovered (bus : Fin 24)
  /-- CAN_RECOVER (R299). EDG_CAN_CMD.RECOVER starts the bus-off recovery sequence. -/
  | canRecover (who : Owner) (bus : Fin 24)
  /-- CAN_CLR_TX (R293). EDG_CAN_CMD.CLR_TX discards every message waiting to be sent. -/
  | canClrTx (who : Owner) (bus : Fin 24)
  /-- CAN_INTEGRATED (R295). A controller sees 11 consecutive recessive bits and sets SYNC. -/
  | canIntegrated (bus : Fin 24)
  /-- CAN_TRX_REQ (R296). A write of EDG_CAN_TRX.REQ drives new mode pin levels once the frame on the wire ends. -/
  | canTrxReq (who : Owner) (bus : Fin 24) (value : Word)
  /-- CAN_TRX_SETTLED (R296). SETTLE_US after a mode pin change the transceiver STATE follows. -/
  | canTrxSettled (bus : Fin 24)
  /-- CAN_PINS_PASS (R31). Once any relay transaction has finished and the controller has integrated, the CAN 0 or CAN 1 pins pass from the Night Post to the controller. -/
  | canPinsPass (bus : Fin 2)
  /-- TIMED_TX_DUE (R308). A held message's time stamp is reached on the working clock and it enters the transmit buffer. -/
  | timedTxDue (bus : Fin 24)
  /-- RT_READ (R302). EDG_RT_CMD read copies a route entry into W0–W3. -/
  | rtRead (who : Owner)
  /-- RT_WRITE (R302). EDG_RT_CMD write writes a route entry from W0–W3 or refuses it. -/
  | rtWrite (who : Owner)
  /-- RT_DONE (R302). A route table command completes and raises RT_DONE. -/
  | rtDone
  /-- LIN_SLOT_START (R312). A LIN master begins a schedule slot, sending a header and response as the slot type requires. -/
  | linSlotStart (bus : Fin 8)
  /-- LIN_RESPONSE_RX (R312). A LIN response is received, checked and routed like a CAN message. -/
  | linResponseRx (bus : Fin 8) (bytes : List Byte) (err : Fin 3) (ago : Nat) (u : Upset)
  /-- LIN_SWITCH (R311). EDG_LIN_SCHED.SWITCH makes the inactive table active at the end of the current slot. -/
  | linSwitch (who : Owner) (bus : Fin 8) (len : BitVec 8)
  /-- WAKE_SOURCE_FIRE (R318). A wake source fires and is accepted into the wake latch, or ignored in quarantine. -/
  | wakeSourceFire (source : Fin 40)
  /-- NPT_ALARM (R319). Carried anchor 0 time reaches NPT_ALARM and fires source 0x29. -/
  | nptAlarm
  /-- SLEEP_GO (R322). NPT_SLEEP_CMD.GO starts a sleep round in PREPARE or replaces its target. -/
  | sleepGo (who : Owner) (target : Fin 4)
  /-- SLEEP_GO_FORCE (R322). NPT_SLEEP_CMD.GO with FORCE commits the sleep round at once. -/
  | sleepGoForce (who : Owner) (target : Fin 4)
  /-- SLEEP_CANCEL (R320). NPT_SLEEP_CMD.CANCEL fires source 0x2C, cancelling a round in PREPARE. -/
  | sleepCancel (who : Owner)
  /-- PHASE_MSG_REPEAT (R322). Every REPEAT_MS in PREPARE a phase message is placed on the sleep buses. -/
  | phaseMsgRepeat
  /-- SLEEP_MSG_RX (R321). A ready or stay-awake message is recognised on a sleep bus. -/
  | sleepMsgRx (bus : Fin 24) (id : BitVec 11)
  /-- READY_REPORT (R320). A W1S write of NPT_READY marks nodes ready and may commit the round. -/
  | readyReport (who : Owner) (nodes : Word)
  /-- PREP_MIN_EXPIRE (R322). PREP_MIN_MS passes in PREPARE and the round commits if every required node is ready. -/
  | prepMinExpire
  /-- PREP_TIMER_EXPIRE (R322). The prepare-sleep timer expires and the round commits, counting FORCED_COMMITS. -/
  | prepTimerExpire
  /-- SLEEP_ENTRY_DONE (R325). Entry to Doze or Slumber completes and the round reaches ASLEEP, or a latched wake starts exit. -/
  | sleepEntryDone
  /-- SLEEP_EXIT_DONE (R326). The main domains reach Run after exit and the round returns to AWAKE, raising AWOKE. -/
  | sleepExitDone
  /-- PN_WAKE (R328). NPT_PN_CTRL.WAKE wakes the named partial network groups. -/
  | pnWake (who : Owner) (groups : BitVec 8)
  /-- PN_SLEEP (R328). NPT_PN_CTRL.SLEEP puts the named groups to sleep while the device stays awake. -/
  | pnSleep (who : Owner) (groups : BitVec 8)
  /-- USE_SOURCE_CHANGE (R331). A USE wake input becomes active or inactive, stopping or reloading the awake timer and ending quarantines. -/
  | useSourceChange (pin : Fin 8) (active : Bool)
  /-- MAX_AWAKE (R332). The awake timer reaches 0, quarantines the offender and starts a forced sleep round. -/
  | maxAwake
  /-- QUARANTINE_END (R333). A source's quarantine ends when QUAR_LEFT reaches 0. -/
  | quarantineEnd (source : Fin 48) (node : Fin 32)
  /-- WAKE_HOUR_RESTART (R317). Every 3,600 s of always-on time the wake-rate hour restarts. -/
  | wakeHourRestart
  /-- WAKE_FRAME_RX (R337). A Night Post wake frame is received on CAN 0 and checked for format, sender, command and key. -/
  | wakeFrameRx (fd ext : Bool) (id : BitVec 29) (data : List Byte)
  /-- NP_VERIFY_DONE (R341). Wax finishes the frame's CMAC; MAC and counter checks run, LAST is committed and the relay is queued. -/
  | npVerifyDone
  /-- RELAY_COPY_DUE (R339). A relay copy falls due GAP_MS after the previous one and is offered on CAN 1. -/
  | relayCopyDue
  /-- RELAY_COPY_DONE (R339). A relay copy is sent or exhausts its attempts; the first copy sent fires source 0x28. -/
  | relayCopyDone (ok : Bool)
  /-- NP_OSC_STOP (R335). After 1 ms of bus idle with no relay, the 40 MHz oscillator stops. -/
  | npOscStop
  /-- STATE_REQ_RUN (R353). PWR_STATE_REQ with TARGET Run requests the Run state. -/
  | stateReqRun (who : Owner)
  /-- STATE_REQ_IDLE (R346). PWR_STATE_REQ with TARGET Idle stops pairs 2 and 3 after a checkpoint. -/
  | stateReqIdle (who : Owner)
  /-- STATE_REQ_OFF (R347). PWR_STATE_REQ with TARGET Off enters Off through the Slumber steps, or is refused outside AWAKE. -/
  | stateReqOff (who : Owner)
  /-- STATE_TRANSITION_DONE (R353). A power-state transition completes and a pending request starts. -/
  | stateTransitionDone
  /-- OP_REQUEST (R353). PWR_OP_REQ starts an operating-point transition or fills the pending slot. -/
  | opRequest (who : Owner) (op : Fin 4)
  /-- OP_TRANSITION_DONE (R357). After SETTLE_US the operating point is in force, OP_DONE is raised and a pending request starts. -/
  | opTransitionDone (settled : Bool)
  /-- TRIM_CHECK (R359). Once every 24 hours of Run pair 0 measures margin and raises TRIM when needed. -/
  | trimCheck (needed : Bool)
  /-- PMBUS_TELEMETRY (R360). Every 10 ms the device reads READ_VOUT into PWR_PMB_STAT. -/
  | pmbusTelemetry (mv : Option (BitVec 16))
  /-- SUPPLY_GOOD (R364). A supply group's monitor reports good and the next WAKE_EN is asserted. -/
  | supplyGood (g : Fin 4)
  /-- SUPPLY_TIMEOUT (R364). A group not good 6 ms after its enable raises a SUPPLY fault and releases every WAKE_EN. -/
  | supplyTimeout (g : Fin 4)
  /-- PFAIL_ASSERT (R481). PFAIL is asserted for 2 µs, stopping new flash operations and carrying time. -/
  | pfailAssert
  /-- PFAIL_FLUSHED (R481). Unarchived records are flushed to retention and a PFAIL record is written. -/
  | pfailFlushed
  /-- PFAIL_DEASSERT (R481). PFAIL deasserted for 1 ms lets held flash operations start and archives retained records. -/
  | pfailDeassert
  /-- TEMP_HIGH (R469). The junction rises above FLT_TEMP.HIGH or 135 °C and raises THERMAL. -/
  | tempHigh (celsius : Int)
  /-- CLOCK_FAULT (R531). A reference clock is lost or more than 1 % off nominal and raises CLOCK. -/
  | clockFault
  /-- SPI_READ32 (R371). A management-port READ32 request performs a 32-bit read and returns status and data. -/
  | spiRead32 (space : Fin 3) (off : BitVec 32) (crc : Byte)
  /-- SPI_READ64 (R371). A management-port READ64 request performs a 64-bit read and returns status and data. -/
  | spiRead64 (space : Fin 3) (off : BitVec 32) (crc : Byte)
  /-- SPI_WRITE32 (R371). A management-port WRITE32 request performs a 32-bit write and returns status. -/
  | spiWrite32 (space : Fin 3) (off data : BitVec 32) (crc : Byte)
  /-- SPI_WRITE64 (R371). A management-port WRITE64 request performs a 64-bit write and returns status. -/
  | spiWrite64 (space : Fin 3) (off : BitVec 32) (data : BitVec 64) (crc : Byte)
  /-- SPI_GET_RESULT (R372). GET_RESULT returns the status and data of the latest access again. -/
  | spiGetResult (crc : Byte)
  /-- PEER_WINDOW_ACCESS (R377). An access to the peer remote window is forwarded over the Adjor link with owner code 0x7. -/
  | peerWindowAccess (who : Owner) (write wide : Bool) (off : BitVec 23) (data : BitVec 64)
  /-- FLASH_WINDOW_READ (R378). A read through the flash remote window returns image flash data or fails. -/
  | flashWindowRead (who : Owner) (wide : Bool) (off : BitVec 23)
  /-- FLASH_WINDOW_WRITE (R380). A write through the flash window is queued for programming in the user area or fails. -/
  | flashWindowWrite (who : Owner) (wide : Bool) (off : BitVec 23) (data : BitVec 64)
  /-- FLASH_PROGRAM_DONE (R380). A queued flash window write is programmed. -/
  | flashProgramDone (ok : Bool)
  /-- FLASH_ERASE (R380). HBR_FLASH_ERASE.GO starts erasing a 64 KiB user-area sector. -/
  | flashErase (who : Owner) (sector : BitVec 16)
  /-- FLASH_ERASE_DONE (R380). A sector erase finishes and raises ERASE_DONE. -/
  | flashEraseDone (ok : Bool)
  /-- PCIE_LINK_CHANGE (R383). The PCIe link changes state, width or speed and raises LINK_CHANGE. -/
  | pcieLinkChange (up : Bool) (width : Byte) (speed : Fin 16)
  /-- D3HOT_ENTRY (R370). Entry to D3hot stops every DMA queue and holds MSI-X messages pending. -/
  | d3hotEntry
  /-- DMA_TAIL_WRITE (R386). A write of DMA_Q_TAIL hands descriptors to the device, or is refused. -/
  | dmaTailWrite (who : Owner) (queue : Fin 128) (tail : BitVec 32)
  /-- DMA_TX_FETCH (R390). Deficit round robin picks a transmit queue and reads its next frame's descriptors and buffers. -/
  | dmaTxFetch (next : List TxNext)
  /-- DMA_TX_FRAME_IN (R389). A transmit frame's reads complete and it enters port 41, or is discarded for format. -/
  | dmaTxFrameIn (queue : Fin 64)
  /-- TS_TIMEOUT (R389). A transmit writeback waiting 2 ms for its egress stamp is written back with TS_TIMEOUT. -/
  | tsTimeout (queue : Fin 64)
  /-- DMA_ITR_EXPIRE (R392). The interrupt moderation timer expires and an MSI-X message announces the pending writebacks. -/
  | dmaItrExpire (queue : Fin 128)
  /-- MAILBOX_GO (R396). LBX_MBm_CTRL.GO submits a mailbox request and moves it to QUEUED. -/
  | mailboxGo (who : Owner) (mailbox : Fin 4)
  /-- MAILBOX_TAKEN (R396). The serving pair takes a queued request and starts the command or ends it on a framing failure. -/
  | mailboxTaken (mailbox : Fin 4)
  /-- ECHO (R398). Letterbox ECHO returns the request body unchanged. -/
  | echo (mailbox : Fin 4)
  /-- INFO (R398). Letterbox INFO returns firmware version, active slot, start number and unique identity. -/
  | info (mailbox : Fin 4)
  /-- DEEP_STORE_GRANT (R405). The arbiter grants the oldest waiting deep-store request. -/
  | deepStoreGrant (arrived : List DsArrival)
  /-- DEEP_STORE_READ_DONE (R402). A deep-store read returns, corrected or poisoned by inline ECC. -/
  | deepStoreReadDone (requester : BitVec 8) (found : Fin 3) (addr : BitVec 64)
  /-- STARVATION (R408). A request waits STARVE_NS without grant, filling the starvation record. -/
  | starvation
  /-- ARBITER_STALL (R408). A request waits STALL_US and raises a MEMORY fault. -/
  | arbiterStall
  /-- ARB_LIMIT_CREDIT (R410). Every 1 µs each enabled arbiter limit is credited. -/
  | arbLimitCredit
  /-- MR4_POLL (R403). Every 32 ms MR4 is polled and refresh is derated or restored. -/
  | mr4Poll (code : Fin 8) (hot : Bool)
  /-- PATROL_SCRUB (R403). The patrol scrub reads the next block on its pass period. -/
  | patrolScrub
  /-- ECC_INIT_GRANULE (R403). A 2 MiB granule finishes background ECC initialisation. -/
  | eccInitGranule
  /-- USE_RESTART (R411). DST_USE.RESTART sets PEAK to USE. -/
  | useRestart (who : Owner)
  /-- CAP_READ (R415). Letterbox CAP_READ copies capture data to a host buffer. -/
  | capRead (mailbox : Fin 4) (reached : Bool)
  /-- MMU_INV (R418). MMU_INV.GO invalidates TLB entries of the chosen scope. -/
  | mmuInv (who : Owner) (scope : Fin 4) (ctx : Fin 16)
  /-- MMU_INV_DONE (R418). An invalidation completes and raises INV_DONE. -/
  | mmuInvDone
  /-- MOV_START (R419). MOV_CTRL.START begins a mover transfer in WAITING. -/
  | movStart (who : Owner) (channel : Fin 32) (prio : Fin 4) (ctx : Fin 16)
  /-- MOV_RESUME (R419). MOV_CTRL.RESUME returns a parked channel to WAITING. -/
  | movResume (who : Owner) (channel : Fin 32)
  /-- MOV_ABORT (R419). MOV_CTRL.ABORT ends a channel's transfer. -/
  | movAbort (who : Owner) (channel : Fin 32)
  /-- MOV_SLOT_GRANT (R419). A waiting channel takes a free slot or pre-empts a lower-priority one. -/
  | movSlotGrant (walkBad : Bool)
  /-- MOV_BLOCK_DONE (R419). A mover block completes and the next is translated, or the channel parks, pre-empts or finishes. -/
  | movBlockDone (channel : Fin 32) (host : List Byte) (fail walkBad : Bool)
  /-- CHECKPOINT (R428). Every 1 ms or when the undo log reaches 512 KiB a pair writes and commits a checkpoint. -/
  | checkpoint (pair : Fin 4) (corrected : Byte)
  /-- PAIR_RESTART (R430). A compare difference, uncorrectable cache error or injection restarts a pair and raises a LOCKSTEP fault. -/
  | pairRestart (pair : Fin 4) (cause : Fin 5) (point : BitVec 8)
  /-- PAIR_RESUMED (R430). A restarted pair resumes from its checkpoint and raises RESUMED. -/
  | pairResumed (pair : Fin 4) (bad : Bool)
  /-- PAIR_TAKEOVER (R432). The partner takes over a failed pair's duties and sets COVER. -/
  | pairTakeover (failed : Fin 4)
  /-- SLOW_PATH_TAKE (R433). The slow-path pair takes a frame from port 40 and discards, reinjects or scans it. -/
  | slowPathTake (corrected uncorr : Bool)
  /-- REASM_TIMEOUT (R433). A datagram held for reassembly 2 ms is discarded. -/
  | reasmTimeout
  /-- RESTART_HISTORY (R437). Letterbox RESTART_HISTORY returns the recent restart records. -/
  | restartHistory (mailbox : Fin 4)
  /-- KEY_GENERATE (R445). KEY_CMD GENERATE fills a slot from CTR_DRBG. -/
  | keyGenerate (who : Owner) (slot : BitVec 8)
  /-- KEY_DERIVE (R446). KEY_CMD DERIVE derives a slot key from the root or a parent. -/
  | keyDerive (who : Owner) (slot : BitVec 8) (root : Bool) (parent : BitVec 8) (format : Fin 2)
  /-- KEY_LOAD (R445). KEY_CMD LOAD loads a slot from KEY_WO. -/
  | keyLoad (who : Owner) (slot : BitVec 8)
  /-- KEY_IMPORT (R447). KEY_CMD IMPORT unwraps a GCM blob into a slot. -/
  | keyImport (who : Owner) (slot parent : BitVec 8)
  /-- KEY_UNWRAP_KW (R447). KEY_CMD UNWRAP_KW unwraps an RFC 3394 blob into a slot. -/
  | keyUnwrapKw (who : Owner) (slot parent : BitVec 8)
  /-- KEY_WRAP_KW (R447). KEY_CMD WRAP_KW wraps a MACsec SA key into KEY_BLOB. -/
  | keyWrapKw (who : Owner) (slot parent : BitVec 8)
  /-- KEY_SET_ATTR (R445). KEY_CMD SET_ATTR narrows a slot's attributes. -/
  | keySetAttr (who : Owner) (slot : BitVec 8)
  /-- KEY_DESTROY (R445). KEY_CMD DESTROY clears a slot. -/
  | keyDestroy (who : Owner) (slot : BitVec 8)
  /-- KEY_CMD_DONE (R445). A key command finishes, sets RESULT and raises CMD_DONE. -/
  | keyCmdDone (stored : Bool)
  /-- TAMPER_DETECT (R448). A tamper source latches, sets LOCKOUT and clears every key, context and SA. -/
  | tamperDetect (source : Fin 4)
  /-- TAMPER_FUSE_DONE (R448). A tamper fuse is programmed and the key record becomes unreadable. -/
  | tamperFuseDone
  /-- ROOT_REVOKE_DONE (R448). The revoke fuse of the root bank in use is programmed. -/
  | rootRevokeDone
  /-- WAX_GO (R454). WAX_CTXc_CTRL.GO submits a chunk, starting a message with FIRST. -/
  | waxGo (who : Owner) (c : Fin 4) (ctrl : BitVec 29)
  /-- WAX_ABORT (R454). WAX_CTXc_CTRL.ABORT from the owner ends the message. -/
  | waxAbort (who : Owner) (c : Fin 4)
  /-- WAX_RELEASE (R454). WAX_CTXc_CTRL.RELEASE returns a DONE context to IDLE. -/
  | waxRelease (who : Owner) (c : Fin 4)
  /-- WAX_BLOCK_BOUNDARY (R453). A Wax block ends and the highest-ranked waiting work runs next. -/
  | waxBlockBoundary (last : Bool)
  /-- MACSEC_SA_READ (R462). MSC_SA_CMD read copies an SA entry into W0–W11. -/
  | macsecSaRead (who : Owner) (k : Fin 6)
  /-- MACSEC_SA_WRITE (R462). MSC_SA_CMD write installs, updates or clears an SA entry. -/
  | macsecSaWrite (who : Owner) (k : Fin 6)
  /-- MACSEC_SA_DONE (R462). An SA command completes and raises SA_DONE. -/
  | macsecSaDone (k : Fin 6)
  /-- MKA_SET (R466). Letterbox MKA_SET restarts MKA on a port. -/
  | mkaSet (mailbox : Fin 4)
  /-- MKA_STATUS (R466). Letterbox MKA_STATUS returns MKA state. -/
  | mkaStatus (mailbox : Fin 4)
  /-- QUIET_TIMER_EXPIRE (R470). A class's quiet timer expires and the class leaves or sets QUIET_DONE. -/
  | quietTimerExpire (cls : Fin 12)
  /-- FAULT_ACK (R470). A write of FLT_CLS_ACK acknowledges an ACTIVE class or leaves it. -/
  | faultAck (who : Owner) (cls : Fin 12)
  /-- ARCHIVE_COPY (R478). Pair 0 copies staged records to the flash event archive. -/
  | archiveCopy (ok : Bool)
  /-- EVENT_READ (R478). Letterbox EVENT_READ copies archived records to a host buffer. -/
  | eventRead (mailbox : Fin 4) (reached : Bool)
  /-- ARCHIVE_NOW (R478). Letterbox ARCHIVE_NOW archives waiting records at once. -/
  | archiveNow (mailbox : Fin 4) (ok : Bool)
  /-- HELLO_TX (R496). A seeking unit sends HELLO every 1 ms. -/
  | helloTx
  /-- HELLO_RX (R496). A HELLO from the peer is matched and moves the unit's pair state. -/
  | helloRx (words : List Word)
  /-- HEARTBEAT_TX (R489). A HEARTBEAT is sent every 10 µs on both lanes. -/
  | heartbeatTx
  /-- HEARTBEAT_RX (R489). A heartbeat from the peer updates peer state, order index and digest. -/
  | heartbeatRx (words : List Word)
  /-- HEARTBEAT_MISSED (R489). A heartbeat not arriving within 5 µs of its due time is counted missed. -/
  | heartbeatMissed
  /-- ORDER_RX (R491). An ORDER frame brings up to 32 orders to the standby's queue. -/
  | orderRx (seq : Word) (crcGood : Bool) (orders : List (List Word))
  /-- ORDER_APPLY (R492). The standby applies an order at TIME + 40 µs, or late on arrival. -/
  | orderApply
  /-- CARBON_RX (R493). A CARBON record updates mirrored state on the standby. -/
  | carbonRx (seq : Word) (crcGood : Bool) (words : List Word)
  /-- ADJ_ACK_RX (R488). An ACK acknowledges an Adjor frame. -/
  | adjAckRx (type : Byte) (seq : Word)
  /-- ADJ_RETRANSMIT (R488). An unacknowledged Adjor frame is resent after 4 µs. -/
  | adjRetransmit (type : Byte) (seq : Word)
  /-- ADJ_TIME_RX (R492). A TIME frame keeps the standby's anchor 0 following the holder. -/
  | adjTimeRx (words : List Word)
  /-- ADJ_IRQ_RX (R488). An IRQ frame delivers a page interrupt routed to the peer. -/
  | adjIrqRx (seq : Word) (crcGood : Bool) (type inst : BitVec 16) (stat : Word)
  /-- REMOTE_REQ_RX (R488). A REMOTE_REQ frame performs a peer-window access with owner 0x7. -/
  | remoteReqRx (seq : Word) (crcGood : Bool) (words : List Word)
  /-- LANE_DOWN (R487). An Adjor lane loses lock or exhausts retransmissions and its frames move to the other lane. -/
  | laneDown (lane : Fin 2)
  /-- CLAIM_ROUND (R494). A claim round is run on the CLAIM net in its slot. -/
  | claimRound (other : Option (Bool × Fin 16)) (levels : BitVec 16)
  /-- JOIN_TIMEOUT (R496). JOIN_MS without a matching peer moves a seeking unit to CLAIMING. -/
  | joinTimeout
  /-- YIELD (R500). ADJ_CMD.YIELD hands the claim to the standby by a MARK order. -/
  | adjYield (who : Owner)
  /-- ADJ_RESYNC (R499). ADJ_CMD.RESYNC makes the standby copy again. -/
  | adjResync (who : Owner)
  /-- STALE_TX_TIMEOUT (R484). A buffered message unretired for 2 ms on a unit without the claim is discarded. -/
  | staleTxTimeout (bus : Fin 24)
  /-- UPD_BEGIN (R514). Letterbox UPD_BEGIN starts erasing a slot for a new image. -/
  | updBegin (mailbox : Fin 4)
  /-- UPD_ERASE_DONE (R514). The background erase finishes and the slot goes to WRITING. -/
  | updEraseDone (slot : Fin 2)
  /-- UPD_BLOCK (R514). Letterbox UPD_BLOCK programs an image block into the slot. -/
  | updBlock (mailbox : Fin 4) (host : List Byte) (ok : Bool)
  /-- UPD_FINISH (R514). Letterbox UPD_FINISH checks the image and marks the slot VALID or INVALID. -/
  | updFinish (mailbox : Fin 4)
  /-- UPD_ACTIVATE (R515). Letterbox UPD_ACTIVATE starts a hitless, reset or scheduled activation. -/
  | updActivate (mailbox : Fin 4)
  /-- HITLESS_STEP_DONE (R516). A step of a pair's renewal completes and the next begins. -/
  | hitlessStepDone (how : HitlessEnd)
  /-- SCHEDULED_ACTIVATION (R515). Anchor 0 reaches TIME and the scheduled activation resets the device. -/
  | scheduledActivation
  /-- UPD_CONFIRM (R518). Letterbox UPD_CONFIRM programs anti-rollback fuses and confirms the slot. -/
  | updConfirm (mailbox : Fin 4)
  /-- UPD_CANCEL (R514). Letterbox UPD_CANCEL makes a slot INVALID and ends its scheduled activation. -/
  | updCancel (mailbox : Fin 4)
  /-- CONFIG_SAVE (R509). Letterbox CONFIG_SAVE saves committed configuration as one record. -/
  | configSave (mailbox : Fin 4) (pages : Nat) (ok : Bool)
  /-- COMPACTION_DONE (R508). Compaction of the configuration store completes and raises COMPACT_DONE. -/
  | compactionDone (pages : Nat)
  /-- CAN_RX_ERROR (R299). A CAN controller detects an error or protocol exception while receiving, raising REC and possibly entering error passive. -/
  | canRxError (bus : Fin 24) (eight : Bool)
  /-- LIN_HEADER_RX (R312). A LIN controller in slave mode receives a header and sends the response from a PUBLISH entry or awaits another node's response. -/
  | linHeaderRx (bus : Fin 8) (id : Fin 64)
  /-- MAIN_SUPPLY_LOSS (R482). The main supplies fail while VSTBY stays, losing main-domain state and leaving AO outputs at their fail levels. -/
  | mainSupplyLoss
  /-- VSTBY_LOSS (R482). VSTBY and every supply fail at once, losing retention, carried time and unpersisted keys. -/
  | vstbyLoss
  /-- SUPPLY_UNDERVOLTAGE (R469). A supply monitor reports a main supply outside its limits while running and raises a SUPPLY fault. -/
  | supplyUndervoltage (g : Fin 4)
  /-- PCIE_CONFIG_WRITE (R381). The host writes configuration space, such as returning to D0 or setting Bus Master Enable, which releases pending MSI-X messages. -/
  | pcieConfigWrite (toD0 busMaster : Bool)
  /-- LANE_UP (R487). An Adjor lane regains block lock after retraining and carries frames again. -/
  | laneUp (lane : Fin 2)
  /-- DIGEST_ORDER_TX (R499). Every 1 ms the holder issues a DIGEST order carrying its running digest. -/
  | digestOrderTx
  /-- ADJ_TIME_TX (R492). Every 125 µs the holder sends a TIME frame to the standby. -/
  | adjTimeTx
  /-- CARBON_GEN_TX (R493). Every 1 ms the holder sends a GEN carbon record for each valid sequence generator. -/
  | carbonGenTx
  /-- TAMPER_SOURCE_INACTIVE (R450). A tamper source stops being active, which may end LOCKOUT and raise LOCKOUT_END. -/
  | tamperSourceInactive (source : Fin 4)
  /-- MKA_TIMER_DUE (R346). An MKA or connection-management timer of pair 3 falls due, sending MKPDUs or updating MKA state and returning the device from Idle to Run. -/
  | mkaTimerDue (port : Fin 24) (what : MkaStep)
  /-- BOOT_LOADER_FAULT (R72). The boot loader faults, releasing its locks under R55 with TORN set, parking its mover channels and ending the start in Hold. -/
  | bootLoaderFault
  /-- PAIR_INFO (R504). Letterbox PAIR_INFO returns ADJ_STAT and the peer's identity, firmware version and address from its last HELLO. -/
  | pairInfo (mailbox : Fin 4)
  /-- REMOTE_RESP_RX (R379). A REMOTE_RESP frame returns the outcome of a peer-window access, completing a stalled read or reporting a failed posted write. -/
  | remoteRespRx (seq : Word) (crcGood : Bool) (words : List Word)
  deriving DecidableEq, Repr

end Sys2Proof
end

