-- ==== Sys2Proof/Config.lean ====
section
/-! DEFINITION. What one implementation fixes and the manual does not state, and the free values.
None of these constants has a body, so no proof can see what it is. -/

namespace Sys2Proof

/-- BAR0 base of the SYS page, which the manual does not state. UNVERIFIED: assumption 2. -/
opaque Config.sysBase : Nat

/-- BAR0 base of the PMK time core, which the manual does not state. UNVERIFIED: assumption 2. -/
opaque Config.pmkBase : Nat

/-- BAR0 base of MSC instance 0, which the manual does not state. UNVERIFIED: assumption 2. -/
opaque Config.mscBase : Nat

/-- This unit's fused block of MAC addresses (R84), which the manual does not state. -/
opaque Config.fusedMac : Nat

/-- The substitute test root (R439), a fixed 256-bit value the manual does not state. -/
opaque Config.testRoot : Nat

/-- This unit's 128-bit unique identity (R398, R510), which the manual does not state. -/
opaque Config.unitId : Nat

/-- PARAM of the Tracing entries for which the manual states none (R41), by TYPE. Assumption 18. -/
opaque Config.traceParam : Nat → Nat

/-- Bytes of the image flash, and whether it supports program suspend and erase suspend, as its discovery table reports
them (R506). -/
opaque Config.flashBytes : Nat

/-- It supports both suspends. -/
opaque Config.flashSuspend : Bool

/-- The four fused SHA-384 digests of image keys (R467), which the manual does not state. -/
opaque Config.imageKeys : Fin 4 → Nat

/-- Which of them are fused, and which have their revoke fuse set (R467). -/
opaque Config.keyPresent : Fin 4 → Bool

opaque Config.keyRevoked : Fin 4 → Bool

/-- STATE_FORMAT of the image the unit was delivered with (R510, R515), which the manual does not state. -/
opaque Config.stateFormat : Nat

/-- The island a credit crossing starts in (R224), by the island it ends in and its number; the manual numbers no
crossing. Assumption 146. -/
opaque Config.crossingFrom : Nat → Nat → Nat

/-- The free values: what the device draws at random or the manual leaves open, one number for
each draw. Assumption 3. -/
opaque Config.free : Nat → Nat

end Sys2Proof
end

