-- ==== Sys2Proof/Machine/Crc.lean ====
section
/-! DEFINITION. The cyclic redundancy checks: CRC-32C (R133, R164) and CRC-8 (R371). -/

namespace Sys2Proof.Machine

/-- One bit of a reflected CRC of polynomial `poly`. -/
def crcBit (poly c : Nat) : Nat := if c % 2 = 1 then (c / 2) ^^^ poly else c / 2

/-- One byte of a reflected CRC. -/
def crcByte (poly c b : Nat) : Nat :=
  (List.range 8).foldl (fun c _ => crcBit poly c) (c ^^^ b)

/-- CRC-32C of a byte string. -/
def crc32c (bs : List Byte) : Nat :=
  bs.foldl (fun c b => crcByte 0x82F63B78 c b.toNat) 0xFFFFFFFF ^^^ 0xFFFFFFFF

/-- CRC-32C carried on over 32-bit words, without the final inversion (R499). -/
def crc32cWords (seed : Nat) (ws : List Nat) : Nat :=
  ws.foldl (fun c w => (List.range 4).foldl
    (fun c i => crcByte 0x82F63B78 c (w / 256 ^ i % 256)) c) seed

/-- One bit of the CRC-8 of polynomial 0x2F, most significant bit first. -/
def crc8Bit (c : Nat) : Nat := if c / 128 % 2 = 1 then ((c * 2) % 256) ^^^ 0x2F else (c * 2) % 256

/-- CRC-8 with polynomial 0x2F, start value 0xFF and final inversion (R371). -/
def crc8 (bs : List Byte) : Nat :=
  bs.foldl (fun c b => (List.range 8).foldl (fun c _ => crc8Bit c) (c ^^^ b.toNat)) 0xFF ^^^ 0xFF

end Sys2Proof.Machine
end

