-- ==== Sys2Proof/Machine/State.lean ====
section
/-! DEFINITION. The state of the device as plain data: the registers of every page, the state the
manual names outside the registers, and the queue of waiting commands. -/

namespace Sys2Proof.Machine

/-- A field of a register map: offset of element 0 of the register in its page, bytes from one
element to the next, highest and lowest bit (a field of a 64-bit register may reach bit 63). -/
structure Fld where
  off : Nat
  stride : Nat
  hi : Nat
  lo : Nat
  deriving DecidableEq, Repr

/-- One row of a register map, for one 32-bit word (R8): where the word and its repetitions lie,
whether it belongs to a register mapped [63:0] (R36), the bits of each access type, the bits that
are staged (R50), and the word at reset. -/
structure RegDef where
  off : Nat
  stride : Nat
  count : Nat
  wide : Bool
  rw : Nat
  w1c : Nat
  w1s : Nat
  wo : Nat
  ro : Nat
  staged : Nat
  reset : Nat
  deriving DecidableEq, Repr

/-- One register access on its way (R36, R37). -/
structure Access where
  who : Owner
  target : Target
  write : Bool
  /-- 1, 2, 4 or 8 bytes. -/
  size : Nat := 4
  data : Nat := 0
  /-- Tag of a peer-window request served for the peer (R379). -/
  tag : Nat := 0
  deriving DecidableEq, Repr

/-- An access that waits for its domain (R350). -/
structure Stall where
  domain : Nat
  acc : Access
  since : Nat
  deriving DecidableEq, Repr

/-- A staged write that no COMMIT has applied yet (R50): register word, bits written, value. -/
structure Staged where
  key : Nat
  mask : Nat
  value : Nat
  deriving DecidableEq, Repr

/-- One entry of a pop window (R59, R61). -/
structure PopEntry where
  seq : Nat
  body : List Nat
  deriving DecidableEq, Repr

/-- One pop window (R59 to R61). -/
structure PopWin where
  entries : List PopEntry := []
  nextSeq : Nat := 0
  lost : Nat := 0
  stale : Bool := false
  deriving DecidableEq, Repr

-- ==== frames and queues (01, 05, 08, 09) ====

/-- The checked result of a frame (R138). -/
structure Res where
  destType : Nat := 0
  dest : Nat := 0
  queue : Nat := 0
  revocable : Bool := false
  edition : Nat := 0
  source : Nat := 0
  /-- Word 1: POLICER_EN, POLICER, STREAM_EN and STREAM in the layout of action word 1. -/
  meter : Nat := 0
  zoneSrc : Nat := 0
  /-- PORT_MASK of the multicast group that a MCAST result names, of the edition that made it (R20, R122). -/
  ports : Nat := 0
  zoneDst : Nat := 0
  fwVerdict : Nat := 0
  mirrorEn : Bool := false
  mirrorSession : Nat := 0
  patHit : Bool := false
  deep : Bool := false
  patId : Nat := 0
  rule : Nat := 0
  fwReason : Nat := 0
  parseErr : Nat := 0
  deriving DecidableEq, Repr

/-- A frame in the device. `data` runs from the destination address to the last byte before the
FCS; `fcs` says that the stored length counts four FCS bytes (R201). -/
structure Frm where
  id : Nat
  inPort : Nat
  data : List Byte
  fcs : Bool := false
  /-- Stamps on anchor 0 and anchor 1 at the start-of-frame delimiter, quarter-ns (R265). -/
  stamp0 : Nat := 0
  stamp1 : Nat := 0
  /-- Hall time of "Stored" (R209). -/
  storedAt : Nat := 0
  deep : Bool := false
  res : Res := {}
  /-- IPv4 or IPv6 header found with no parse failure: its offset (R210). -/
  l3 : Option Nat := none
  /-- Mirror session of the ingress port as the frame was stored (R216, R221). -/
  rxMirror : Option Nat := none
  /-- The mirror sessions that were on as the frame was stored: session, SHL_MIR_CFG, SHL_MIR_SAMPLE (R221). -/
  mirrors : List (Nat × Nat × Nat) := []
  deriving DecidableEq, Repr

/-- One copy of a frame in an egress queue (R207). -/
structure Copy where
  frm : Frm
  cells : Nat
  /-- A mirror copy and its session (R216). -/
  mirror : Option Nat := none
  marked : Bool := false
  /-- ATS eligibility time in Postmark time (R253). -/
  ats : Option Nat := none
  /-- Receive DMA queue for port 41, controller for port 42. -/
  sub : Nat := 0
  /-- The R-tag the copy leaves with, where a path sets one (R256); `untag`: it leaves without; and
  whether the frame carries one now. -/
  rtag : Option Nat := none
  untag : Bool := false
  tagNow : Bool := false
  /-- A mirror copy keeps this many bytes; 0 all (R216). -/
  keep : Nat := 0
  /-- Spill blocks (R211); 0 for a copy on chip. -/
  blocks : Nat := 0
  /-- 0 green, 1 yellow (R252). -/
  colour : Nat := 0
  /-- Number of the cells a refilled copy holds, where not those of its frame (R214). -/
  hold : Option Nat := none
  /-- MAX_LEN of the egress port in force as the copy was queued (R90, R93). -/
  maxLen : Nat := 0
  deriving DecidableEq, Repr

/-- One egress queue (R205, R212): the on-chip part in order, the spilled part in order, and the
spilled frame now being read back. -/
structure Queue where
  chip : List Copy := []
  spill : List Copy := []
  refill : Option Copy := none
  deriving DecidableEq, Repr

/-- The cells one stored frame holds (R201, R203, R207). `copies` counts on-chip copies; 0 while
the frame still belongs to the receive account of its port. -/
structure Held where
  inPort : Nat
  cells : Nat
  copies : Nat
  multi : Bool := false
  deriving DecidableEq, Repr

/-- The start of a frame on the wire (R264): device time of its stamp point, and its stamps on anchor 0 and anchor 1
in quarter-ns. -/
structure TxSof where
  at0 : Int
  stamp0 : Int
  stamp1 : Int
  deriving DecidableEq, Repr

/-- A copy a queue has released (R242): on its way to, or on, the wire. -/
structure TxCopy where
  copy : Copy
  queue : Nat
  releasedAt : Nat
  /-- What goes on the wire, without the FCS. -/
  bytes : List Byte := []
  /-- Cut or replaced by an error at egress (R215, R98). -/
  bad : Bool := false
  /-- Its start-of-frame delimiter has passed. -/
  sof : Option TxSof := none
  /-- Preemptable, as it began (R100); pre-empted, so that its remaining fragments wait (R240, R242). -/
  pre : Bool := false
  cut : Bool := false
  /-- Bytes sent in earlier fragments, and when the running fragment began. -/
  sent : Nat := 0
  since : Nat := 0
  deriving DecidableEq, Repr

/-- The Sorting Hall (08): cells held, queues, copies released, spill writes not yet written,
budgets and mirror sample counts. -/
structure Hall where
  held : NMap Held := []
  queues : NMap Queue := []
  tx : NMap (List TxCopy) := []
  /-- Frames stored and waiting for their Burin result, by frame number. -/
  stored : NMap Frm := []
  /-- Spilled copies whose blocks are still being written: queue index, frame number (R214). -/
  writing : List (Nat × Nat) := []
  /-- Budgets of R213 in bits; a write or read that begins on what is left may overdraw them. -/
  writeBudget : Int := 0
  readBudget : Int := 0
  mirCount : NMap Nat := []
  nextFrame : Nat := 0
  /-- Sum of differences the auditor has accepted per kind (R226). -/
  drift : NMap Int := []
  /-- Crossings that have lost a credit, by the island they end in and their number (R226). -/
  lostCredits : List (Nat × Nat) := []
  deriving DecidableEq, Repr

-- ==== the Burin, editions and the firewall (05 to 07) ====

/-- An exact-match entry (R123) and the slots it takes in lane A's and lane B's copy (R124). -/
structure EmEntry where
  profile : Nat
  key : List Nat
  action : Nat
  slot : Nat
  slotB : Nat
  deriving DecidableEq, Repr

/-- The tables of one edition (R117, R195): the words that are not 0, by BAR4 offset, and the
exact-match entries. -/
structure Tables where
  words : NMap Nat := []
  em : List EmEntry := []
  deriving DecidableEq, Repr

/-- What the parser makes of a frame (R114 to R116): the 640-bit key and what the firewall and the
fragment records need beside it. -/
structure Parsed where
  key : Nat := 0
  /-- Codes of the checks that failed (R115). -/
  errs : List Nat := []
  reach : Bool := false
  /-- End of the innermost header recognised in full (R126). -/
  pay : Nat := 0
  ipAt : Option Nat := none
  /-- IPv4 or IPv6 identification (R130). -/
  ident : Nat := 0
  /-- The L4 header lies wholly within reach (R182). -/
  l4In : Bool := false
  /-- Type and code of an ICMP message lie within reach. -/
  typeIn : Bool := false
  seq : Nat := 0
  segLen : Nat := 0
  echoId : Nat := 0
  /-- DOIP_TYPE and the payload length lie within reach; UDS_SID does (R192). -/
  doipIn : Bool := false
  doipLen : Nat := 0
  sidIn : Bool := false
  /-- The first ACF message: format (0 classic, 1 FD, 2 XL, 3 LIN), identifier of 29 bits, data
  offset and length (R187). -/
  acfFmt : Nat := 0
  acfExt : Bool := false
  acfAt : Nat := 0
  acfLen : Nat := 0
  deriving DecidableEq, Repr

/-- A fragment-follow record (R130): its key, the checked result and when it was made. -/
structure Frag where
  key : Nat
  res : Res
  madeAt : Nat
  deriving DecidableEq, Repr

/-- A connection entry (R176), by its place in the table. -/
structure Conn where
  bucket : Nat
  slot : Nat
  epoch : Nat
  proto : Nat
  l3 : Nat
  zone0 : Nat
  zone1 : Nat
  addr0 : Nat
  addr1 : Nat
  port0 : Nat
  port1 : Nat
  state : Nat
  orig : Nat
  revocable : Bool
  diag : Nat
  fin0 : Bool := false
  fin1 : Bool := false
  gen : Nat
  lastSeen : Nat
  nextSeq : Nat := 0
  remain : Nat := 0
  frames0 : Nat := 0
  frames1 : Nat := 0
  octets0 : Nat := 0
  octets1 : Nat := 0
  deriving DecidableEq, Repr

/-- A frame's way through the Burin (R110 to R112): waiting for a slot (0), waiting for its
connection read (1), result ready (2). The frame carries its result as far as it is made. -/
structure Flight where
  frm : Frm
  pipe : Nat
  phase : Nat := 0
  /-- Arrival of the header copy, the t0 of R112. -/
  at0 : Nat
  parsed : Parsed := {}
  /-- Policies of the two directions, the traffic class, and the gates as latched at "Key built". -/
  polV : Nat := 0
  polW : Nat := 0
  cls : Nat := 0
  gates : Nat := 0
  /-- The words of the Burin's registers for its ingress port as its header reached the Burin (R129). -/
  portCfg : List Nat := []
  /-- Counters of the decision so far, applied once it is checked: BUR, FWL, rule counter. -/
  counts : List Nat := []
  fw : List Nat := []
  rule : Option Nat := none
  deriving DecidableEq, Repr

/-- The Burin beside its page: editions, the load window, fragment records, frames in the pipelines
and the commands that run. -/
structure Bur where
  cur : Tables := {}
  shadow : Option Tables := none
  load : NMap Nat := []
  frags : List Frag := []
  flights : List Flight := []
  /-- The draw of the four initial values of the exact-match copies (R124). -/
  seedDraw : Nat := 0
  /-- When the Save step of the running commit begins (R154). -/
  saveAt : Nat := 0
  /-- Exact-match command: OP, owner code, entry words. -/
  emRun : Option (Nat × Nat × List Nat) := none
  /-- OPEN, ABANDON or LOAD: OP, owner code, RESULT found by the checks. -/
  edRun : Option (Nat × Nat × Nat) := none
  /-- A commit past its Checks step, the owner code it was commanded by, its REVOKE bit, its pause and when that
  began. -/
  committing : Bool := false
  commitBy : Nat := 0
  revoke : Bool := false
  paused : Bool := false
  pauseAt : Nat := 0
  flipped : Bool := false
  /-- The owner had a reset event while its commit ran (R160). -/
  ownerGone : Bool := false
  deriving DecidableEq, Repr

/-- The firewall beside its page: connection entries, limiter counts in thousandths of a message,
and the sweeper. -/
structure Fwl where
  conns : List Conn := []
  /-- Tokens by limiter, in thousandths of a message. -/
  tokens : NMap Nat := []
  sweepAt : Nat := 0
  /-- When a diagnostic gate was opened, by profile. -/
  gateAt : NMap Nat := []
  deriving DecidableEq, Repr

-- ==== scheduling and Franking (09) ====

/-- The TOKEN account of a bucket (R224): what has been credited, debited and clipped since its initial level was set. A
shaper counts in micro-bits, a policer in millionths of a byte. -/
structure Tok where
  initial : Int := 0
  credited : Int := 0
  debited : Int := 0
  clipped : Int := 0
  deriving DecidableEq, Repr

/-- A gate configuration (R233 to R236): entries by index, those not 0, and the four registers. -/
structure Gcl where
  list : NMap Nat := []
  cfg : Nat := 0
  base : Nat := 0
  cycle : Nat := 1000000
  ext : Nat := 0
  /-- Swap time S of a pending configuration (R236). -/
  swap : Nat := 0
  deriving DecidableEq, Repr

/-- The scheduler of a port beside its SCH page. -/
structure Sched where
  /-- The administrative and the operational list; their registers lie in the page. -/
  admin : NMap Nat := []
  oper : NMap Nat := []
  pend : Option Gcl := none
  copying : Option Gcl := none
  /-- A change decoded less than 1 µs before S: pending once the swap has completed (R238). -/
  next : Option Gcl := none
  /-- The running copy was asked for less than 1 µs before a pending S. -/
  nearSwap : Bool := false
  /-- End of an extension in progress, ns (R237). -/
  extEnd : Nat := 0
  /-- Gates shut until the next cycle boundary (R247). -/
  shut : Bool := false
  /-- Credit of each queue in micro-bits (R243), and the shaper MODE in force. -/
  credit : NMap Int := []
  mode : NMap Nat := []
  /-- HI and LO in force, by queue, where not at reset (R244); the TOKEN accounts. -/
  limits : NMap (Nat × Nat) := []
  toks : NMap Tok := []
  /-- Frames released since the last delay sample, by queue (R259). -/
  sampled : NMap Nat := []
  /-- Writes of the administrative list since the lock was taken (R234). -/
  adminWrites : Nat := 0
  deriving DecidableEq, Repr

/-- A recovery function's state (R255): take-any when `recov` is `none`; bit i of `hist` says that
number RECOV − i was seen. -/
structure Recov where
  recov : Option Nat := none
  hist : Nat := 0
  deriving DecidableEq, Repr

/-- The Franking tables beside the FRK page (R248 to R256). -/
structure Frk where
  /-- Table words by table, entry and word, those that differ from reset. -/
  words : NMap Nat := []
  /-- Table writes that apply at the next refill tick: table, entry, words. -/
  writes : List (Nat × Nat × List Nat) := []
  /-- The running table command: OP, TABLE, INDEX, words. -/
  run : Option (Nat × Nat × Nat × List Nat) := none
  /-- Committed and excess buckets in millionths of a byte, by policer, where below full at reset. -/
  tc : NMap Nat := []
  te : NMap Nat := []
  /-- TOKEN accounts, by 2 × policer, plus 1 for the excess bucket. -/
  toks : NMap Tok := []
  /-- ATS: bucket_empty by entry and group_elig by group, ns of hall time. -/
  empty : NMap Int := []
  elig : NMap Nat := []
  recovs : NMap Recov := []
  /-- Per-entry counters and their snapshot: table, entry, index in one number. -/
  cnts : NMap Nat := []
  snaps : NMap Nat := []
  deriving DecidableEq, Repr

-- ==== ports (04) ====

/-- A frame in reception (R92, R265). -/
structure RxCur where
  stamp0 : Nat
  stamp1 : Nat
  /-- Device time of the stamp point (R264). -/
  at0 : Int := 0
  deep : Bool
  maxLen : Nat
  /-- Begun before the port stopped. -/
  stopped : Bool := false
  deriving DecidableEq, Repr

/-- What a port keeps beside its page (04). -/
structure Port where
  rx : Option RxCur := none
  /-- Admission closed by a stop or by TC10 sleep (R95, R105). -/
  closed : Bool := false
  verifyTries : Nat := 0
  /-- The reconciliation sublayer sends remote fault (R97). -/
  sendRemoteFault : Bool := false
  /-- A TC10 drain runs and SLEEP_VALUE is not written yet (R105). -/
  tc10Drain : Bool := false
  deriving DecidableEq, Repr

/-- A running MDIO command (R104): the port pages' master, operation and address. -/
structure MdioRun where
  write : Bool
  c45 : Bool
  phyad : Nat
  devad : Nat
  reg : Nat
  data : Nat
  /-- The value the PHY answered to a read. -/
  result : Nat := 0xFFFF
  deriving DecidableEq, Repr

-- ==== edge buses (11) ====

/-- A message in a transmit buffer (R307). `np`: a Night Post relay copy (R340); `phase`: a phase
message (R321); `since`: when it became valid to retire (R484). -/
structure TxMsg where
  msg : CanMsg
  np : Bool := false
  phase : Bool := false
  since : Nat := 0
  deriving DecidableEq, Repr

/-- A received message that waits for its lookups (R303). -/
structure RxMsg where
  bus : Nat
  msg : CanMsg
  stamp0 : Nat
  stamp1 : Nat
  /-- Word 0 of the route entry that matched as the message became valid (R301), and what the checks of its lookups
  find. -/
  entry : Option Nat := none
  upset : Upset := .none
  deriving DecidableEq, Repr

/-- What a CAN controller keeps beside its page (R299, R303, R307, R308). -/
structure Can where
  /-- The transmit buffer, in order of arrival, without the message on the wire. -/
  tx : List TxMsg := []
  /-- Messages held for timed transmission, in time order. -/
  held : List CanMsg := []
  rx : List RxMsg := []
  /-- The message on the wire. -/
  wire : Option TxMsg := none
  /-- NTSCF sequence_num of the next bridged frame (R304). -/
  seqNum : Nat := 0
  /-- Transceiver request waiting for the frame on the wire, and the change in progress (R296). -/
  trxPend : Option Nat := none
  trxGoing : Option Nat := none
  deriving DecidableEq, Repr

/-- What a LIN controller keeps beside its page (R311, R312). -/
structure Lin where
  running : Bool := false
  /-- Slots of the active table. -/
  len : Nat := 0
  /-- Identifier whose response is awaited. -/
  await : Option Nat := none
  /-- The node's own response is on the bus. -/
  sending : Bool := false
  /-- The first switch waits for EDG_LIN_SCHED_START. -/
  first : Bool := false
  /-- The next slot to start is slot 0. -/
  restart : Bool := true
  seqNum : Nat := 0
  rx : List RxMsg := []
  deriving DecidableEq, Repr

-- ==== what the device sends out ====

/-- What a command makes the device send or answer. -/
inductive Output where
  /-- An MSI-X message of the given vector leaves for the host (R43, R383). -/
  | msix (vector : Nat) (addr data : Nat)
  /-- The management port interrupt is asserted for a page (R43). -/
  | spiIrq (page : Nat)
  /-- A page interrupt reaches the control cluster (R43). -/
  | clusterIrq (page : Nat)
  /-- A page interrupt of the peer unit arrives in an Adjor IRQ frame (R43, R488): page TYPE, INSTANCE,
  IRQ_STAT. -/
  | peerIrq (type inst stat : Nat)
  /-- A configuration request is answered with Configuration Request Retry Status (R70). -/
  | configRetry
  /-- The answer to an access: the requester, a status code and the data (R37). -/
  | answer (who : Owner) (status : Nat) (data : Nat)
  /-- A byte string leaves the management port (R371). -/
  | spi (bytes : List Byte)
  /-- A frame starts on the wire of a port, the FCS good unless `bad` (R93). -/
  | frame (port : Nat) (bytes : List Byte) (bad : Bool)
  /-- A message starts on a CAN bus (R307). -/
  | can (bus : Nat) (msg : CanMsg)
  /-- A header or response leaves a LIN controller (R312). -/
  | lin (bus : Nat) (id : Nat) (bytes : List Byte)
  /-- The device writes bytes to host memory at an IOVA (R387 to R389). -/
  | hostWrite (iova : Nat) (bytes : List Byte)
  /-- A level or pulse on a pin: the pin's name as a number, and the level (2 for high
  impedance, 3 for high impedance with the bus keeper of R485 on). -/
  | pin (pin : Nat) (level : Nat)
  /-- A frame leaves on the Adjor link: its type, its sequence number, RETRY and its words (R488). -/
  | adjor (type seq : Nat) (retry : Bool) (words : List Nat)
  /-- A verify frame of the MAC merge sublayer leaves a port (R101). -/
  | mmVerify (port : Nat)
  /-- A PLCA beacon leaves a port (R103). -/
  | beacon (port : Nat)
  /-- A TC10 value is written to the PHY of a port (R105): MDIO master, PHY address, control register (C45, DEVAD and
  REG in the layout of PRT_PHY), value. -/
  | tc10 (port master phyad addr value : Nat)
  /-- An MDIO frame on a master (R104). -/
  | mdio (master : Nat) (write c45 : Bool) (phyad devad reg data : Nat)
  /-- VOUT_COMMAND is written to the regulator at a PMBus address, for a voltage in µV (R360). -/
  | pmbus (addr uv : Nat)
  deriving DecidableEq, Repr

-- ==== time (10) ====

/-- An anchor (R271 to R275): its time in sub-units of 1 / (4 × 256 × 10^9) ns, its rate in
1/256 ppb, the integral term in 2^-32 ppb, the offset of the latest sample in 2^-16 ns, and the kept
difference to the other anchor in FOLLOW, sub-units. -/
structure Anchor where
  sub : Nat := 0
  rate : Int := 0
  integ : Int := 0
  offset : Int := 0
  delta : Int := 0
  deriving DecidableEq, Repr

/-- A working clock (R276 to R278). -/
structure WClock where
  sub : Nat := 0
  rate : Int := 0
  deriving DecidableEq, Repr

/-- An event output beside its page (R282): pulses emitted, and a pulse in progress. -/
structure Evo where
  emitted : Nat := 0
  high : Bool := false
  /-- The pulse in progress is the last one (R282). -/
  last : Bool := false
  deriving DecidableEq, Repr

/-- A gPTP message that waits for the engine (R270), with its stamps in quarter-ns and the device time
of its stamp point. -/
structure GptpMsg where
  port : Nat
  data : List Byte
  stamp0 : Int
  stamp1 : Int
  at0 : Int
  deriving DecidableEq, Repr

/-- A two-step Sync that waits for its Follow_Up (R272): the message, its sequence number and its
source. -/
structure SyncIn where
  msg : GptpMsg
  seq : Nat
  src : Nat
  corr : Int
  deriving DecidableEq, Repr

/-- The link delay measurement of a port (R269): sequence number of the latest request and its egress
time, the response taken (t2 in 2^-16 ns, t4 in sub-cycles), the latest complete pair (t3, t4), and
whether a delay has been measured. -/
structure LinkDelay where
  seq : Nat := 0
  t1 : Option Int := none
  resp : Option (Int × Int) := none
  last : Option (Int × Int) := none
  measured : Bool := false
  /-- The mean link delay in quarter-ns, which MEAN_DELAY shows up to 65,535 (R269, R288). -/
  mean : Nat := 0
  deriving DecidableEq, Repr

/-- A gPTP event message sent and not yet stamped at egress (R265, R269). -/
inductive Await where
  /-- A Sync of a grandmaster: anchor, sequence number. -/
  | grand (n seq : Nat)
  /-- A relayed Sync: anchor, sequence number, origin time, correction so far (2^-16 ns), device time of
  its ingress, rate ratio, and the rest of the Follow_Up information TLV. -/
  | relay (n seq origin : Nat) (corr at0 rr : Int) (tlv : List Byte)
  | pdelayReq (seq : Nat)
  /-- A Pdelay_Resp: sequence number and the requester's port identity. -/
  | pdelayResp (seq who domain sdo : Nat)
  deriving DecidableEq, Repr

/-- The Postmark (10). -/
structure Pmk where
  anchors : NMap Anchor := []
  wcs : NMap WClock := []
  evos : NMap Evo := []
  /-- Time of the last recorded edge of each capture input (R285). -/
  caps : NMap Nat := []
  latching : Bool := false
  rx : List GptpMsg := []
  syncs : NMap SyncIn := []
  links : NMap LinkDelay := []
  /-- Sequence number of the next Sync, by anchor and port. -/
  seqs : NMap Nat := []
  /-- Messages that await their egress stamp, by frame number. -/
  awaits : NMap Await := []
  /-- Egress stamps that wait while pair 1 restarts (R270): port, frame number, stamp. -/
  stamps : List (Nat × Nat × TxSof) := []
  /-- Carried time of anchor 0 and PMK_HS_DELTA as last handed to the always-on island (R287):
  sub-units, ns, and the device time of that hand-over. -/
  carried : Nat := 0
  carriedAt : Nat := 0
  carriedDelta : Int := 0
  deriving DecidableEq, Repr

-- ==== PCI Express (14) ====

/-- The endpoint's state outside its pages (R369, R370). -/
structure Pcie where
  linkUp : Bool := false
  d3hot : Bool := false
  busMaster : Bool := false
  /-- PCIE_WAKE_N is driven low (R348). -/
  wakeLow : Bool := false
  /-- What AER has logged of discarded memory writes (R37, R70): Unsupported Request, Completer Abort, and Advisory
  Non-Fatal. -/
  aerUr : Bool := false
  aerCa : Bool := false
  aerAdvisory : Bool := false
  deriving DecidableEq, Repr

/-- A writeback of a transmit queue (R389): the frame whose stamp it awaits, its STATUS once known, the
stamp in quarter-ns and its port, the descriptors of the frame. -/
structure TxWb where
  frm : Option Nat := none
  status : Option Nat := none
  stamp : Option (Nat × Nat) := none
  descs : Nat
  /-- When the frame entered port 41: the 2 ms of R389 run from here. -/
  since : Nat := 0
  deriving DecidableEq, Repr

/-- A frame a transmit queue has read and not yet given to port 41. -/
structure TxRead where
  data : List Byte
  descs : Nat
  ts : Bool
  bad : Bool
  deriving DecidableEq, Repr

/-- A DMA queue beside its registers (R385 to R392). -/
structure DmaQ where
  /-- Transmit: descriptors from HEAD on that are read already. -/
  fetched : Nat := 0
  reads : List TxRead := []
  wbs : List TxWb := []
  deficit : Nat := 0
  /-- EOP writebacks not yet announced. -/
  unann : Nat := 0
  /-- When the first of them was issued: the timer of R392 runs from here. -/
  timerAt : Nat := 0
  /-- Descriptors the auditor found missing from the ring (R226). -/
  lost : Nat := 0
  deriving DecidableEq, Repr

/-- The DMA queues: receive 0 to 63, transmit 64 to 127; and the round of R390. -/
structure Dma where
  qs : NMap DmaQ := []
  ptr : Nat := 0
  /-- When port 41 has credit for a further frame from the host (R14), in sub-cycles. -/
  freeAt : Nat := 0
  deriving DecidableEq, Repr

/-- Supply sequencing (R364): WAKE_EN outputs asserted, and the group whose monitor is awaited. -/
structure Supply where
  enabled : Nat := 0xF
  wait : Option Nat := none
  deriving DecidableEq, Repr

/-- The SPI management port (R371 to R373): status, data and size of the latest access. -/
structure Spi where
  result : Option (Nat × Nat × Nat) := none
  deriving DecidableEq, Repr

-- ==== faults (18) ====

/-- The fault collector beside the FLT page (R470 to R478). -/
structure Flt where
  /-- Instances isolated: class, page number. -/
  iso : List (Nat × Nat) := []
  /-- Pages with an open fault: class, page number. -/
  opened : List (Nat × Nat) := []
  /-- Event records not yet archived, oldest first (R477, R478). -/
  staging : List (List Nat) := []
  /-- The flash event archive: records with their sequence numbers, oldest first. -/
  archive : List (Nat × List Nat) := []
  archiveSeq : Nat := 0
  /-- When the quiet timer of a class last restarted (R470), by class. -/
  quiet : NMap Nat := []
  /-- Records flushed to retention at a PFAIL warning (R481). -/
  retained : List (List Nat) := []
  /-- When the latest PFAIL warning was latched (R481). -/
  warnAt : Nat := 0
  deriving DecidableEq, Repr

-- ==== sleep, wake and Night Post (12) ====

/-- A wake frame that is handled or waits (R337): FD or not, and its data. -/
structure NpFrame where
  fd : Bool
  data : List Byte
  deriving DecidableEq, Repr

/-- A relay in progress (R339): command, body, copies not yet offered, the copy on offer with its
attempts, and whether any copy has been sent. -/
structure Relay where
  cmd : Nat
  body : List Byte
  left : Nat
  onOffer : Bool := false
  attempts : Nat := 0
  viaCan1 : Bool := false
  sent : Nat := 0
  deriving DecidableEq, Repr

/-- The sleep, wake and Night Post logic beside the NPT page. -/
structure Npt where
  prepMinPassed : Bool := false
  /-- Times of the commit point and of the start of the exit (R325, R326). -/
  commitAt : Nat := 0
  exitAt : Nat := 0
  /-- Since when NPT_AWAKE_LEFT counts down from its stored value (R331). -/
  awakeAt : Nat := 0
  /-- Start of the quarantine of each source (R333). -/
  quarAt : NMap Nat := []
  /-- Sources latched since the commit point, in order (R318, R328). -/
  latched : List Nat := []
  /-- Stay-awake nodes in quarantine and the minutes left (R332). -/
  stayQuar : NMap Nat := []
  /-- The source (and node) that most recently cancelled a round (R332). -/
  canceller : Option (Nat × Nat) := none
  frames : List NpFrame := []
  /-- The key Wax verifies the first frame with; empty once it has been cleared under way. -/
  verify : Option (List Nat) := none
  relay : Option Relay := none
  oscillator : Bool := false
  /-- Serves only once step 0x09 has loaded configuration after a VSTBY power-on (R342). -/
  serving : Bool := false
  /-- At the latest commit point the pair was joined and NP_OWNER was 0: the peer sends the relayed copies while
  the main domains are not in Run (R502). -/
  peerRelays : Bool := false
  /-- LAST of each sender as copied to the configuration store (R342). -/
  lastCopy : NMap Nat := []
  deriving DecidableEq, Repr

-- ==== the pair (19) ====

/-- One order (R491). -/
structure Order where
  kind : Nat
  origin : Nat
  space : Nat
  addr : Nat
  index : Nat
  time : Nat
  data : Nat
  deriving DecidableEq, Repr

/-- An Adjor frame that waits for its ACK (R488). -/
structure Unacked where
  type : Nat
  seq : Nat
  words : List Nat
  tries : Nat := 0
  lane : Nat := 0
  deriving DecidableEq, Repr

/-- An order the digest has yet to take in (R499): the command whose RESULT is awaited, 0 for none, and the outcome as
far as it is known. -/
structure Awaited where
  order : Order
  cmd : Nat
  outcome : Nat
  deriving DecidableEq, Repr

/-- The pair logic beside the ADJ page (19). -/
structure Adj where
  /-- Orders received and not yet applied (R490). -/
  orders : List Order := []
  /-- Sequence number of the next frame, by TYPE. -/
  seqs : NMap Nat := []
  unacked : List Unacked := []
  digest : Nat := 0xFFFFFFFF
  /-- Orders the digest has yet to take in, and the RESULT of a command that ended within the write that started it. -/
  awaited : List Awaited := []
  early : Option Nat := none
  /-- Words of the peer's last matching HELLO (R488, R504). -/
  hello : Option (List Nat) := none
  peerLost : Bool := false
  missed : Nat := 0
  heardAt : Nat := 0
  /-- ROUNDS seen here, and heartbeats in a row that differed (R489). -/
  rounds : Nat := 0
  roundsDiffer : Nat := 0
  /-- INDEX and behind count of the peer's last heartbeat. -/
  peerIndex : Nat := 0
  /-- INDEX of the MARK of a YIELD in progress, on the holder and on the standby (R500). -/
  markIssued : Option Nat := none
  markApplied : Bool := false
  /-- A claim was lost to safe state or a round; no round until STANDBY (R495). -/
  barred : Bool := false
  /-- Peer-window reads in progress: tag, requester (R379). -/
  remote : List (Nat × Access) := []
  nextTag : Nat := 0
  /-- A claim gain whose transceivers still settle (R497): what ADJ_LAST_GAP counts from, and whether it is
  a switch-over. -/
  gapFrom : Option Nat := none
  /-- Records of a copy that is being received, applied at COPY_END (R493, R496). -/
  copy : List (List Nat) := []
  /-- The latest mirrored checkpoint received of a pair (R493). -/
  mirrored : NMap Nat := []
  deriving DecidableEq, Repr

-- ==== the deep store and the MMU (15) ====

/-- A request to the deep store (R405): requester, arrival, direction, bytes, what it belongs to (a
frame, a capture page, a channel), and for an access to addressed memory its device address and the
data written. `starved` and `stalled` say that it has been reported (R408). -/
structure DsReq where
  who : Nat
  at0 : Nat
  write : Bool := false
  bytes : Nat := 256
  tag : Nat := 0
  addr : Option Nat := none
  data : List Byte := []
  starved : Bool := false
  stalled : Bool := false
  deriving DecidableEq, Repr

/-- Data that has been read poisoned and not yet been used: requester, tag, whether by injection
(R402, R412). -/
structure Poison where
  who : Nat
  tag : Nat
  injected : Bool
  deriving DecidableEq, Repr

/-- The deep store beside its page (15): bytes by device address, requests that wait, requests that their requester
still holds back, reads granted and not returned, granules initialised, the next block of the patrol scrub, and the bytes the limits
of R410 in force still let pass. -/
structure Dst where
  mem : NMap Byte := []
  waiting : List DsReq := []
  held : List DsReq := []
  reads : List DsReq := []
  poison : List Poison := []
  granules : Nat := 0
  scrubAt : Nat := 0
  credit : NMap Nat := []
  deriving DecidableEq, Repr

/-- A translation held in the TLB (R418): context, page number and page size as a power of two, and
the entry. -/
structure Tlb where
  ctx : Nat
  page : Nat
  log : Nat
  entry : Nat
  deriving DecidableEq, Repr

/-- A mover channel beside its registers (R419): since when it waits, and what happens at the end of
its current block. -/
structure Mov where
  since : Nat := 0
  /-- The current block as translated: whether at the host, address, bytes. -/
  src : List (Bool × Nat × Nat) := []
  dst : List (Bool × Nat × Nat) := []
  preempt : Bool := false
  abort : Bool := false
  ownerGone : Bool := false
  deriving DecidableEq, Repr

/-- The MMU beside its page: channels, translations held, invalidations that run (SCOPE, CTX, DVA). -/
structure Mmu where
  movs : NMap Mov := []
  tlb : List Tlb := []
  invs : List (Nat × Nat × Nat) := []
  deriving DecidableEq, Repr

-- ==== keys, Wax and MACsec (17) ====

/-- The copy of a slot in the key record (R443): its attribute word and key. -/
structure KeyCopy where
  attr : Nat
  mat : List Nat
  deriving DecidableEq, Repr

/-- A running key command (R445): what it will write, and the RESULT its checks found. -/
structure KeyRun where
  op : Nat
  slot : Nat
  parent : Nat
  result : Nat
  mat : List Nat := []
  attr : Nat := 0
  uses : Nat := 0
  blob : List Nat := []
  /-- Slots that gave a use. -/
  used : List Nat := []
  /-- When the command began. -/
  since : Nat := 0
  deriving DecidableEq, Repr

/-- The key store beside its page (R438 to R450). Slot attributes and uses lie in the page. -/
structure Keys where
  /-- Key octets by slot. -/
  mats : NMap (List Nat) := []
  /-- Root banks A and B: 0 unused, 1 written, 2 committed (R77), and what they hold. -/
  bankA : Nat := 0
  bankB : Nat := 0
  rootA : List Nat := []
  rootB : List Nat := []
  revA : Bool := false
  revB : Bool := false
  /-- The bank in use, once step 0x03 has found one. -/
  bank : Option Nat := none
  tamperFuses : Nat := 0
  /-- Level of DBG_EN, and debug access as the latest device reset left it (R439, R541). -/
  dbgPin : Bool := false
  debug : Bool := false
  /-- The key record, `none` where none can be read, and whether the next step 0x09 reads it. -/
  record : Option (NMap KeyCopy) := some []
  readRecord : Bool := true
  run : Option KeyRun := none
  /-- Message counter of each slot (R456). -/
  messages : NMap Nat := []
  /-- Active tamper sources, by bit of KEY_TAMPER_STAT. -/
  active : Nat := 0
  /-- The step "Root revoked" is due. -/
  revokeDue : Bool := false
  deriving DecidableEq, Repr

/-- A message of a Wax context (R454 to R457). -/
structure WaxMsg where
  mode : Nat
  verify : Bool
  key : List Nat := []
  key2 : List Nat := []
  /-- Slots named, and octets of the data unit for XTS. -/
  slots : List Nat := []
  unit : Nat := 0
  tlen : Nat := 4
  /-- Authenticated data, then message (CMAC) or ciphertext (GCM) octets so far; DATA octets done. -/
  aad : List Nat := []
  text : List Nat := []
  done : Nat := 0
  /-- Order of the latest GO. -/
  order : Nat := 0
  aborting : Bool := false
  deriving DecidableEq, Repr

/-- The Wax engine beside its page: what runs (0–3 a context, 6 the key command, 7 the Night Post),
the messages, and the work that waits (R453). -/
structure Wax where
  cur : Option Nat := none
  msgs : NMap WaxMsg := []
  order : Nat := 0
  keyWork : Bool := false
  npWork : Nat := 0
  deriving DecidableEq, Repr

/-- A MACsec SA entry with VALID = 1 or the words last written to it (R462). -/
structure Sa where
  words : List Nat := []
  key : List Nat := []
  /-- PN_LOW was raised. -/
  low : Bool := false
  deriving DecidableEq, Repr

/-- A running SA command: OP, port within the instance, index, words (R461). -/
structure SaRun where
  write : Bool
  j : Nat
  index : Nat
  words : List Nat
  deriving DecidableEq, Repr

/-- MKA on a port, run by the firmware of pair 3 (R466). -/
structure Mka where
  en : Bool := false
  cakSlot : Nat := 0
  prio : Nat := 0
  ckn : List Nat := []
  state : Nat := 0
  keyServer : Bool := false
  txAn : Nat := 0
  live : Nat := 0
  keyNumber : Nat := 0
  installedAt : Nat := 0
  deriving DecidableEq, Repr

/-- MACsec (R459 to R466): SA entries by 64 × port + INDEX, commands by instance, MKA by port. -/
structure Msc where
  sas : NMap Sa := []
  runs : NMap SaRun := []
  mka : NMap Mka := []
  deriving DecidableEq, Repr

-- ==== the Letterbox (14) ====

/-- A mailbox command that a pair runs (R396): mailbox, CODE, SEQ, body words, time of its GO, the pair.
`dead`: the mailbox's party has had a reset event, and the response is discarded; when the pair took it. -/
structure MbRun where
  box : Nat
  code : Nat
  seq : Nat
  body : List Nat
  goAt : Nat
  pair : Nat
  dead : Bool := false
  since : Nat := 0
  deriving DecidableEq, Repr

/-- The Letterbox beside its page: number and time of the latest GO of each mailbox, and the commands
that run. -/
structure Lbx where
  go : NMap (Nat × Nat) := []
  order : Nat := 0
  runs : List MbRun := []
  deriving DecidableEq, Repr

-- ==== the control cluster (16) ====

/-- A restart record (R437): CCL_LAST_RESTART, US, anchor 0 time of detection. -/
structure RestartRec where
  word : Nat
  us : Nat
  at0 : Nat
  deriving DecidableEq, Repr

/-- A pair beside its registers: detections in the window (R432); of the restart in progress the detection
(device time and anchor 0 ns), its record word, and whether CCL_LAST_RESTART shows it; the undo log, newest
block first, with the former content of each 64-byte block of cluster memory written since the last
checkpoint (R427); the state slot used last (R428), and the architectural state in it, one drawn number for what the
manual does not give. -/
structure Pair where
  restarts : List Nat := []
  detected : Option (Nat × Nat) := none
  word : Nat := 0
  shown : Bool := false
  undo : List (Nat × List Byte) := []
  slot : Nat := 0
  ckpt : Nat := 0
  deriving DecidableEq, Repr

/-- A datagram held for reassembly (R433): its key, the time of its first fragment, its fragments as they
came from port 40, and the window of the original port. -/
structure Datagram where
  key : Nat
  at0 : Nat
  frags : List Frm
  deriving DecidableEq, Repr

/-- The control cluster beside its page; the restart records lie in always-on retention (R437). -/
structure Ccl where
  pairs : NMap Pair := []
  held : List Datagram := []
  history : List RestartRec := []
  /-- When the slow path can take its next frame (R433). -/
  slowAt : Nat := 0
  deriving DecidableEq, Repr

-- ==== the image flash (14, 20) ====

/-- A flash-window write that waits to be programmed (R380): flash byte, data, owner code, and whether it is
of 64 bits. -/
structure FlashWr where
  addr : Nat
  data : List Byte
  who : Nat
  wide : Bool
  deriving DecidableEq, Repr

/-- The image flash (R505): the bytes that are not 0xFF, by flash byte; writes that wait; the sector being
erased; when the oldest write's program and the erase began; sectors whose last erase failed. The areas whose records the device alone writes are held as what they record, elsewhere in Dev. -/
structure Flash where
  mem : NMap Byte := []
  queue : List FlashWr := []
  erasing : Option Nat := none
  headAt : Nat := 0
  eraseFrom : Nat := 0
  spoiled : List Nat := []
  deriving DecidableEq, Repr

/-- Committed configuration (R509): features, EN by page, the RW words by key, forced chain address, vehicle
MAC block, subsystem identity. -/
structure CfgRec where
  features : Nat
  ens : NMap Nat
  words : NMap Word
  chain : Nat
  mac : Nat
  subsystem : Nat
  deriving DecidableEq, Repr

/-- One copy of the configuration store (R507): pages of 4,096 bytes used, SEQ of its last record, its newest
KIND 0x03 record, and the edition its edition records make up, with its number. -/
structure CfgCopy where
  used : Nat := 0
  seq : Nat := 0
  conf : Option CfgRec := none
  ed : Tables := {}
  edNum : Nat := 0
  deriving DecidableEq, Repr

/-- The configuration store (R507, R508): copies A and B, the copy being compacted, and whether its other copy has
been compacted before it. -/
structure CfgStore where
  a : CfgCopy := {}
  b : CfgCopy := {}
  compact : Option Nat := none
  second : Bool := false
  /-- Pages appended to the other copy since the compaction of this one began, and when it did. -/
  meanwhile : Nat := 0
  since : Nat := 0
  /-- The edition of the record that the always-on island marks pending, with its number (R507). -/
  pending : Option (Tables × Nat) := none
  deriving DecidableEq, Repr

/-- Firmware update beside the UPD page (R510 to R518): slots whose image the flash bytes held here make up,
the running activation's slot, pairs still to renew or to load again, the RESULT of a rollback, STATE_FORMAT of the
running image where it is held here, whether the last activation was by reset, and when the erase of a slot began. -/
structure Upd where
  known : List Nat := []
  slot : Nat := 0
  todo : List Nat := []
  failed : Nat := 0
  stateFormat : Option Nat := none
  byReset : Bool := false
  eraseFrom : Nat := 0
  deriving DecidableEq, Repr

-- ==== the device ====

/-- A boot docket as flash keeps it (R80): the start it belongs to, RESULT × 16 + VARIANT by step, the variant at
which each step begins next (R74, R75), and the tries since it last succeeded. -/
structure Docket where
  number : Nat := 0
  entries : NMap Nat := []
  firstVariant : NMap Nat := []
  attempts : NMap Nat := []
  deriving DecidableEq, Repr

/-- The start sequence (03). -/
structure Start where
  /-- The step now running, 0 when none runs. -/
  step : Nat := 0x01
  variant : Nat := 0
  /-- Time of t0 and of the start of the running step. -/
  t0 : Nat := 0
  began : Nat := 0
  /-- Main supplies on and RESET_N high. -/
  released : Bool := true
  barsDecoded : Bool := false
  spiUp : Bool := false
  cfgLoaded : Bool := false
  /-- Variant at which a step begins at the next start (R74, R75), by step. -/
  firstVariant : NMap Nat := []
  /-- Tries since a step last succeeded (R79), by step. -/
  attempts : NMap Nat := []
  /-- RESULT and VARIANT of the previous start (R79), kept in retention, by step. -/
  prev : NMap Nat := []
  /-- The docket in flash (R80): the newer of the two sectors, the older one, and when the newer was written. -/
  flash : Docket := {}
  flashOld : Docket := {}
  flashAt : Option Nat := none
  /-- BOOT_RETRY.TOP as the latest reset found it (R78). -/
  top : Bool := false
  /-- Number of starts since the first, kept with the docket. -/
  number : Nat := 0
  /-- Retention memory holds the docket of the previous start (false after a loss of VSTBY). -/
  retention : Bool := false
  /-- The count of the latest complete train and of the first one received since t0, and whether CHAIN_IN was
  found strapped to ground (R81). -/
  train : Option Nat := none
  firstTrain : Option Nat := none
  head : Bool := false
  /-- TRIM as stored in the configuration store (R359). -/
  trimStored : Nat := 0
  /-- The vehicle block of MAC addresses in committed configuration (R84). -/
  macBlock : Option Nat := none
  /-- Subsystem vendor ID and subsystem ID in committed configuration, 0 for the defaults (R369, R509). -/
  subsystem : Nat := 0
  /-- An address has been taken in this start (R82). -/
  chained : Bool := false
  deriving DecidableEq, Repr

/-- Everything the device holds beside the queue of waiting commands. -/
structure Dev where
  /-- Time since power-on in Postmark sub-cycles of 250 ps. -/
  now : Nat := 0
  /-- Register words that differ from their reset value, by page and offset. -/
  regs : NMap Word := []
  staged : List Staged := []
  /-- Live 64-bit counters (R57) and their latest snapshots. -/
  counts : NMap Nat := []
  snaps : NMap Nat := []
  /-- What the last command sent out. -/
  out : List Output := []
  /-- Writes the last command saw refused. -/
  refusals : Nat := 0
  /-- Free values drawn so far. -/
  drawn : Nat := 0
  stalls : List Stall := []
  /-- Armed checkers (R143): page key and checker index. -/
  armed : List (Nat × Nat) := []
  /-- The party of the latest accepted request ON of a page (R23), by page key. -/
  party : NMap Nat := []
  /-- Features in force (R65). -/
  features : Nat := 0
  /-- The set that a running negotiation judges, as SYS_DRV_FEATURES held it at ACCEPT (R63, R65). -/
  featBusy : Option Nat := none
  snapBusy : List Nat := []
  /-- Power domains that an access has woken and that nothing has switched off since (R349, R350). -/
  awake : List Nat := []
  pops : NMap PopWin := []
  start : Start := {}
  hall : Hall := {}
  bur : Bur := {}
  scheds : NMap Sched := []
  frk : Frk := {}
  fwl : Fwl := {}
  ports : NMap Port := []
  mdio : NMap MdioRun := []
  cans : NMap Can := []
  lins : NMap Lin := []
  /-- Route table words, those not 0, by 4 × entry + word (R300), and the running command: a write, the
  entry, its words (R302). -/
  routes : NMap Nat := []
  rtRun : Option (Bool × Nat × List Nat) := none
  pmk : Pmk := {}
  pcie : Pcie := {}
  dma : Dma := {}
  dst : Dst := {}
  mmu : Mmu := {}
  spi : Spi := {}
  supply : Supply := {}
  flt : Flt := {}
  npt : Npt := {}
  adj : Adj := {}
  keys : Keys := {}
  wax : Wax := {}
  msc : Msc := {}
  lbx : Lbx := {}
  ccl : Ccl := {}
  flash : Flash := {}
  cfg : CfgStore := {}
  upd : Upd := {}
  deriving DecidableEq, Repr

/-- The state: the commands that wait, first in first out, and the device. -/
structure State where
  pending : List Instr := []
  dev : Dev := {}
  deriving DecidableEq, Repr

/-- Why a step stops with a fault. -/
inductive Fault where
  /-- No command raises it: every fault of this device is an effect on its fault classes (R470),
  not a stop. Kept so that the type names the outcome the interface has. Safe. -/
  | none
  deriving DecidableEq, Repr

/-- Why a step has no meaning. -/
inductive Refusal where
  /-- Raised by the arm of a command that has no meaning in this model. Safe. -/
  | notModelled (mnemonic : String)
  deriving DecidableEq, Repr

/-- The device right after a VSTBY power-on and the release of reset (R67): every register at its
reset value, nothing listed, no command waiting. -/
def State.reset : State := { pending := [], dev := {} }

/-- What a command answers. -/
abbrev Answer := Host.Outcome State Fault Refusal

end Sys2Proof.Machine
end

