-- ==== Sys2Proof/Machine/Fields.lean ====
section
/-! DEFINITION. The fields of the register maps, one constant per field,
written from the register tables of spec/01 to spec/20 (offset of element 0, bit range,
distance from one element of the register to the next). -/

namespace Sys2Proof.Machine.R

def SYS_CLAIM_CONFLICT_RES_VALID : Fld := ⟨0x1400, 0x0, 31, 31⟩
def SYS_CLAIM_CONFLICT_RES_OVERRUN : Fld := ⟨0x1400, 0x0, 30, 30⟩
def SYS_CLAIM_CONFLICT_RES_RESOURCE : Fld := ⟨0x1400, 0x0, 9, 0⟩
def SYS_CLAIM_CONFLICT_HOLDER : Fld := ⟨0x1404, 0x0, 31, 0⟩
def SYS_CLAIM_CONFLICT_REQ : Fld := ⟨0x1408, 0x0, 31, 0⟩
def TRC_DEVICE_FAMILY : Fld := ⟨0x40, 0x0, 31, 16⟩
def TRC_DEVICE_DIE : Fld := ⟨0x40, 0x0, 15, 0⟩
def TRC_ENTRY_COUNT_COUNT : Fld := ⟨0x44, 0x0, 15, 0⟩
def TRC_ENTRY_SIZE_SIZE : Fld := ⟨0x48, 0x0, 31, 0⟩
def TRC_CRC_CRC : Fld := ⟨0x4C, 0x0, 31, 0⟩
def PAGE_ID_TYPE : Fld := ⟨0x0, 0x0, 31, 16⟩
def PAGE_ID_INSTANCE : Fld := ⟨0x0, 0x0, 15, 0⟩
def PAGE_VER_MAJOR : Fld := ⟨0x4, 0x0, 31, 24⟩
def PAGE_VER_MINOR : Fld := ⟨0x4, 0x0, 23, 16⟩
def PAGE_VER_STEP : Fld := ⟨0x4, 0x0, 7, 0⟩
def PAGE_CTRL_LOCK_REQ : Fld := ⟨0x8, 0x0, 9, 8⟩
def PAGE_CTRL_COMMIT : Fld := ⟨0x8, 0x0, 4, 4⟩
def PAGE_CTRL_EN : Fld := ⟨0x8, 0x0, 1, 0⟩
def PAGE_STAT_WRITE_REFUSED : Fld := ⟨0xC, 0x0, 10, 10⟩
def PAGE_STAT_CONFLICT : Fld := ⟨0xC, 0x0, 9, 9⟩
def PAGE_STAT_TORN : Fld := ⟨0xC, 0x0, 8, 8⟩
def PAGE_STAT_PENDING : Fld := ⟨0xC, 0x0, 3, 2⟩
def PAGE_STAT_STATE : Fld := ⟨0xC, 0x0, 1, 0⟩
def PAGE_LOCK_HELD : Fld := ⟨0x10, 0x0, 31, 31⟩
def PAGE_LOCK_GRANT_SEQ : Fld := ⟨0x10, 0x0, 15, 8⟩
def PAGE_LOCK_OWNER : Fld := ⟨0x10, 0x0, 3, 0⟩
def PAGE_TORN_OWNER_DISCARDED : Fld := ⟨0x14, 0x0, 23, 8⟩
def PAGE_TORN_OWNER_OWNER : Fld := ⟨0x14, 0x0, 3, 0⟩
def IRQ_RAW_TORN_SET : Fld := ⟨0x18, 0x0, 31, 31⟩
def IRQ_RAW_REFUSED : Fld := ⟨0x18, 0x0, 30, 30⟩
def IRQ_RAW_STATE_CHANGE : Fld := ⟨0x18, 0x0, 29, 29⟩
def IRQ_RAW_CONFLICT : Fld := ⟨0x18, 0x0, 28, 28⟩
def IRQ_RAW_BLOCK : Fld := ⟨0x18, 0x0, 27, 0⟩
def IRQ_MASK_MASK : Fld := ⟨0x1C, 0x0, 31, 0⟩
def IRQ_STAT_STAT : Fld := ⟨0x20, 0x0, 31, 0⟩
def IRQ_ROUTE_PEER : Fld := ⟨0x24, 0x0, 19, 19⟩
def IRQ_ROUTE_CLUSTER : Fld := ⟨0x24, 0x0, 18, 18⟩
def IRQ_ROUTE_SPI : Fld := ⟨0x24, 0x0, 17, 17⟩
def IRQ_ROUTE_HOST : Fld := ⟨0x24, 0x0, 16, 16⟩
def IRQ_ROUTE_VECTOR : Fld := ⟨0x24, 0x0, 6, 0⟩
def FLT_INJ_GO : Fld := ⟨0x28, 0x0, 31, 31⟩
def FLT_INJ_CHECKER : Fld := ⟨0x28, 0x0, 7, 0⟩
def FLT_STAT_OPEN : Fld := ⟨0x2C, 0x0, 31, 31⟩
def FLT_STAT_LEVEL : Fld := ⟨0x2C, 0x0, 10, 8⟩
def FLT_STAT_CHECKER : Fld := ⟨0x2C, 0x0, 7, 0⟩
def SNAP_SNAP : Fld := ⟨0x40, 0x0, 0, 0⟩
def SNAP_SEQ_SEQ : Fld := ⟨0x44, 0x0, 31, 0⟩
def SNAP_TIME_TIME : Fld := ⟨0x48, 0x0, 63, 0⟩
def POP_HEAD_VALID : Fld := ⟨0x0, 0x0, 63, 63⟩
def POP_HEAD : Fld := ⟨0x0, 0x0, 62, 40⟩
def POP_HEAD_WORDS : Fld := ⟨0x0, 0x0, 39, 32⟩
def POP_POP_HEAD : Fld := ⟨0x0, 0x0, 31, 16⟩
def POP_HEAD_SEQ : Fld := ⟨0x0, 0x0, 15, 0⟩
def POP_ACK : Fld := ⟨0x8, 0x0, 31, 16⟩
def POP_ACK_SEQ : Fld := ⟨0x8, 0x0, 15, 0⟩
def POP_FILL_STALE_ACK : Fld := ⟨0x10, 0x0, 31, 31⟩
def POP_FILL_FILL : Fld := ⟨0x10, 0x0, 15, 0⟩
def POP_LOST_LOST : Fld := ⟨0x18, 0x0, 31, 0⟩
def POP_BODY_WORD : Fld := ⟨0x100, 0x0, 31, 0⟩
def SYS_DEV_FEATURES_DEV : Fld := ⟨0x100, 0x4, 31, 0⟩
def SYS_DRV_FEATURES_DRV : Fld := ⟨0x110, 0x4, 31, 0⟩
def SYS_FEATURES_OK_OK : Fld := ⟨0x120, 0x0, 31, 31⟩
def SYS_FEATURES_OK_FAILED : Fld := ⟨0x120, 0x0, 30, 30⟩
def SYS_FEATURES_OK_ACCEPT : Fld := ⟨0x120, 0x0, 0, 0⟩
def SYS_FEATURES_FAIL_REASON : Fld := ⟨0x124, 0x0, 31, 24⟩
def SYS_FEATURES_FAIL_BIT : Fld := ⟨0x124, 0x0, 6, 0⟩
def BOOT_STATUS_HOLD : Fld := ⟨0x80, 0x0, 31, 31⟩
def BOOT_STATUS_FLASH_COPY_OK : Fld := ⟨0x80, 0x0, 30, 30⟩
def BOOT_STATUS_FROM_FLASH : Fld := ⟨0x80, 0x0, 29, 29⟩
def BOOT_STATUS_HOLD_STEP : Fld := ⟨0x80, 0x0, 15, 8⟩
def BOOT_STATUS_STEP_COUNT : Fld := ⟨0x80, 0x0, 7, 0⟩
def BOOT_START_NUMBER_NUMBER : Fld := ⟨0x84, 0x0, 31, 0⟩
def BOOT_FIRST_FWD_TIME_US : Fld := ⟨0x88, 0x0, 31, 0⟩
def BOOT_RETRY_TOP : Fld := ⟨0x8C, 0x0, 0, 0⟩
def PRT_MODE_AN : Fld := ⟨0x80, 0x0, 12, 12⟩
def PRT_MODE_FEC : Fld := ⟨0x80, 0x0, 11, 8⟩
def PRT_MODE_SPEED : Fld := ⟨0x80, 0x0, 7, 4⟩
def PRT_MODE_IF : Fld := ⟨0x80, 0x0, 3, 0⟩
def PRT_CTRL_LINK_DOWN_HOLD : Fld := ⟨0x84, 0x0, 16, 16⟩
def PRT_CTRL_LOOP : Fld := ⟨0x84, 0x0, 5, 4⟩
def PRT_CTRL_CLASS_MODE : Fld := ⟨0x84, 0x0, 0, 0⟩
def PRT_FRAME_MAX_LEN : Fld := ⟨0x88, 0x0, 13, 0⟩
def PRT_LINK_CFG_DRAIN : Fld := ⟨0x8C, 0x0, 29, 16⟩
def PRT_LINK_CFG_UP_HOLD : Fld := ⟨0x8C, 0x0, 9, 0⟩
def PRT_LINK_STAT_UP : Fld := ⟨0xA0, 0x0, 31, 31⟩
def PRT_LINK_STAT_PCS_LOCK : Fld := ⟨0xA0, 0x0, 30, 30⟩
def PRT_LINK_STAT_PHY_UP : Fld := ⟨0xA0, 0x0, 29, 29⟩
def PRT_LINK_STAT_LOCAL_FAULT : Fld := ⟨0xA0, 0x0, 28, 28⟩
def PRT_LINK_STAT_REMOTE_FAULT : Fld := ⟨0xA0, 0x0, 27, 27⟩
def PRT_LINK_STAT_AN_DONE : Fld := ⟨0xA0, 0x0, 26, 26⟩
def PRT_LINK_STAT_TC10 : Fld := ⟨0xA0, 0x0, 25, 24⟩
def PRT_LINK_STAT_RES_SPEED : Fld := ⟨0xA0, 0x0, 23, 20⟩
def PRT_SERDES_TX_INV : Fld := ⟨0xB0, 0x0, 31, 31⟩
def PRT_SERDES_RX_INV : Fld := ⟨0xB0, 0x0, 30, 30⟩
def PRT_SERDES_TX_MAIN : Fld := ⟨0xB0, 0x0, 21, 16⟩
def PRT_SERDES_TX_POST : Fld := ⟨0xB0, 0x0, 12, 8⟩
def PRT_SERDES_TX_PRE : Fld := ⟨0xB0, 0x0, 3, 0⟩
def PRT_PHY_POLL_EN : Fld := ⟨0xC0, 0x0, 31, 31⟩
def PRT_PHY_C45 : Fld := ⟨0xC0, 0x0, 30, 30⟩
def PRT_PHY_MASTER : Fld := ⟨0xC0, 0x0, 29, 28⟩
def PRT_PHY_PHYAD : Fld := ⟨0xC0, 0x0, 27, 23⟩
def PRT_PHY_DEVAD : Fld := ⟨0xC0, 0x0, 22, 18⟩
def PRT_PHY_REG : Fld := ⟨0xC0, 0x0, 15, 0⟩
def PRT_PHY_MATCH_MASK : Fld := ⟨0xC4, 0x0, 31, 16⟩
def PRT_PHY_MATCH_MATCH : Fld := ⟨0xC4, 0x0, 15, 0⟩
def PRT_MM_EN : Fld := ⟨0x100, 0x0, 31, 31⟩
def PRT_MM_VERIFY_DIS : Fld := ⟨0x100, 0x0, 30, 30⟩
def PRT_MM_ADD_FRAG : Fld := ⟨0x100, 0x0, 25, 24⟩
def PRT_MM_VERIFY_MS : Fld := ⟨0x100, 0x0, 23, 16⟩
def PRT_MM_PREEMPTABLE : Fld := ⟨0x100, 0x0, 7, 0⟩
def PRT_MM_STAT_ACTIVE : Fld := ⟨0x104, 0x0, 31, 31⟩
def PRT_MM_STAT_VERIFY : Fld := ⟨0x104, 0x0, 2, 0⟩
def PRT_PLCA_EN : Fld := ⟨0x120, 0x0, 31, 31⟩
def PRT_PLCA_NODE_COUNT : Fld := ⟨0x120, 0x0, 23, 16⟩
def PRT_PLCA_NODE_ID : Fld := ⟨0x120, 0x0, 7, 0⟩
def PRT_PLCA_TMR_BURST_TMR : Fld := ⟨0x124, 0x0, 23, 16⟩
def PRT_PLCA_TMR_MAX_BC : Fld := ⟨0x124, 0x0, 15, 8⟩
def PRT_PLCA_TMR_TO_TMR : Fld := ⟨0x124, 0x0, 7, 0⟩
def PRT_PLCA_STAT_ACTIVE : Fld := ⟨0x128, 0x0, 31, 31⟩
def PRT_MDIO_CFG_POLL_MS : Fld := ⟨0x800, 0x40, 23, 16⟩
def PRT_MDIO_CFG_NO_PRE : Fld := ⟨0x800, 0x40, 8, 8⟩
def PRT_MDIO_CFG_DIV : Fld := ⟨0x800, 0x40, 4, 0⟩
def PRT_MDIO_CMD_GO : Fld := ⟨0x804, 0x40, 31, 31⟩
def PRT_MDIO_CMD_OP : Fld := ⟨0x804, 0x40, 29, 28⟩
def PRT_MDIO_CMD_C45 : Fld := ⟨0x804, 0x40, 27, 27⟩
def PRT_MDIO_CMD_PHYAD : Fld := ⟨0x804, 0x40, 26, 22⟩
def PRT_MDIO_CMD_DEVAD : Fld := ⟨0x804, 0x40, 21, 17⟩
def PRT_MDIO_CMD_REG : Fld := ⟨0x804, 0x40, 15, 0⟩
def PRT_MDIO_DATA_DATA : Fld := ⟨0x808, 0x40, 15, 0⟩
def PRT_MDIO_STAT_BUSY : Fld := ⟨0x80C, 0x40, 31, 31⟩
def PRT_MDIO_STAT_DONE : Fld := ⟨0x80C, 0x40, 30, 30⟩
def PRT_TC10_CMD_ADDR : Fld := ⟨0xD0, 0x0, 31, 0⟩
def PRT_TC10_VAL_WAKE_VALUE : Fld := ⟨0xD4, 0x0, 31, 16⟩
def PRT_TC10_VAL_SLEEP_VALUE : Fld := ⟨0xD4, 0x0, 15, 0⟩
def PRT_TC10_STAT_ADDR : Fld := ⟨0xD8, 0x0, 31, 0⟩
def PRT_TC10_BITS_REQ_BIT : Fld := ⟨0xDC, 0x0, 11, 8⟩
def PRT_TC10_BITS_ASLEEP_BIT : Fld := ⟨0xDC, 0x0, 3, 0⟩
def PRT_TC10_CTRL_ACCEPT_REMOTE : Fld := ⟨0xE0, 0x0, 8, 8⟩
def PRT_TC10_CTRL_CMD : Fld := ⟨0xE0, 0x0, 1, 0⟩
def BUR_PORT_CFG0_EM_EN : Fld := ⟨0x1000, 0x10, 31, 31⟩
def BUR_PORT_CFG0_EM_PROF : Fld := ⟨0x1000, 0x10, 30, 27⟩
def BUR_PORT_CFG0_FRAG_MISS_SLOW : Fld := ⟨0x1000, 0x10, 26, 26⟩
def BUR_PORT_CFG0_USER_META : Fld := ⟨0x1000, 0x10, 25, 18⟩
def BUR_PORT_CFG0_NOMATCH_ACTION : Fld := ⟨0x1000, 0x10, 14, 0⟩
def BUR_PORT_CFG1_PARSE_ACTION : Fld := ⟨0x1004, 0x10, 14, 0⟩
def BUR_PORT_CFG2_WIN_OFFSET : Fld := ⟨0x1008, 0x10, 21, 16⟩
def BUR_PORT_CFG2_WIN_LEN : Fld := ⟨0x1008, 0x10, 8, 0⟩
def BUR_PORT_CFG3_DEFAULT_PCP : Fld := ⟨0x100C, 0x10, 26, 24⟩
def BUR_PORT_CFG3_PCP_MAP : Fld := ⟨0x100C, 0x10, 23, 0⟩
def BUR_EM_PROF_SEL_W : Fld := ⟨0x1800, 0x20, 29, 0⟩
def BUR_EM_PROF_MASK_MASK : Fld := ⟨0x1804, 0x20, 31, 0⟩
def BUR_HASH_CFG_ZONE : Fld := ⟨0x2000, 0x40, 20, 16⟩
def BUR_HASH_CFG_FEATURE : Fld := ⟨0x2000, 0x40, 7, 0⟩
def BUR_HASH_SEED_SEED : Fld := ⟨0x2004, 0x40, 31, 0⟩
def BUR_HASH_SEL_W : Fld := ⟨0x2008, 0x40, 29, 0⟩
def BUR_HASH_MASK_MASK : Fld := ⟨0x200C, 0x40, 31, 0⟩
def BUR_FRAG_CFG_EN : Fld := ⟨0x80, 0x0, 31, 31⟩
def BUR_FRAG_CFG_USED : Fld := ⟨0x80, 0x0, 9, 0⟩
def BUR_SLOW_CFG_POLICER_EN : Fld := ⟨0x84, 0x0, 31, 31⟩
def BUR_SLOW_CFG_POLICER : Fld := ⟨0x84, 0x0, 27, 16⟩
def BUR_SLOW_CFG_QUEUE : Fld := ⟨0x84, 0x0, 2, 0⟩
def BUR_PIPE_STAT_PIPE1_WAIT : Fld := ⟨0x88, 0x0, 15, 8⟩
def BUR_PIPE_STAT_PIPE0_WAIT : Fld := ⟨0x88, 0x0, 7, 0⟩
def BUR_EM_ENTRY_WORD : Fld := ⟨0x100, 0x4, 31, 0⟩
def BUR_EM_CMD_GO : Fld := ⟨0x120, 0x0, 31, 31⟩
def BUR_EM_CMD_OP : Fld := ⟨0x120, 0x0, 1, 0⟩
def BUR_EM_STAT_BUSY : Fld := ⟨0x124, 0x0, 31, 31⟩
def BUR_EM_STAT_DONE : Fld := ⟨0x124, 0x0, 30, 30⟩
def BUR_EM_STAT_RESULT : Fld := ⟨0x124, 0x0, 3, 0⟩
def BUR_EM_USED_COUNT : Fld := ⟨0x128, 0x0, 18, 0⟩
def BUR_EDITION_CUR_REV_VALID : Fld := ⟨0xC0, 0x0, 31, 31⟩
def BUR_EDITION_CUR_REVOKED : Fld := ⟨0xC0, 0x0, 23, 16⟩
def BUR_EDITION_CUR_OLDEST : Fld := ⟨0xC0, 0x0, 15, 8⟩
def BUR_EDITION_CUR_CUR : Fld := ⟨0xC0, 0x0, 7, 0⟩
def BUR_EDITION_SHADOW_OPEN : Fld := ⟨0xC4, 0x0, 31, 31⟩
def BUR_EDITION_SHADOW_OWNER : Fld := ⟨0xC4, 0x0, 27, 24⟩
def BUR_EDITION_SHADOW_BASE : Fld := ⟨0xC4, 0x0, 15, 8⟩
def BUR_EDITION_SHADOW_NUMBER : Fld := ⟨0xC4, 0x0, 7, 0⟩
def BUR_EDITION_CMD_GO : Fld := ⟨0xC8, 0x0, 31, 31⟩
def BUR_EDITION_CMD_REVOKE : Fld := ⟨0xC8, 0x0, 8, 8⟩
def BUR_EDITION_CMD_OP : Fld := ⟨0xC8, 0x0, 3, 0⟩
def BUR_EDITION_STAT_BUSY : Fld := ⟨0xCC, 0x0, 31, 31⟩
def BUR_EDITION_STAT_DONE : Fld := ⟨0xCC, 0x0, 30, 30⟩
def BUR_EDITION_STAT_PHASE : Fld := ⟨0xCC, 0x0, 29, 28⟩
def BUR_EDITION_STAT_SECTION : Fld := ⟨0xCC, 0x0, 19, 8⟩
def BUR_EDITION_STAT_RESULT : Fld := ⟨0xCC, 0x0, 3, 0⟩
def BUR_EDITION_IMAGE_LEN : Fld := ⟨0xD0, 0x0, 31, 0⟩
def BUR_EDITION_PAUSE_MAX_NS : Fld := ⟨0xD4, 0x0, 31, 16⟩
def BUR_EDITION_PAUSE_LAST_NS : Fld := ⟨0xD4, 0x0, 15, 0⟩
def BUR_EDITION_WRITES_FOREIGN : Fld := ⟨0xD8, 0x0, 31, 31⟩
def BUR_EDITION_WRITES_COUNT : Fld := ⟨0xD8, 0x0, 19, 0⟩
def EDITION_COMMITS : Fld := ⟨0xE0, 0x0, 63, 0⟩
def EDITION_REVOKED_DISCARD : Fld := ⟨0xE8, 0x0, 63, 0⟩
def EDITION_HELD : Fld := ⟨0xF0, 0x0, 63, 0⟩
def EDITION_FOREIGN_WRITES : Fld := ⟨0xF8, 0x0, 63, 0⟩
def FWL_CFG_REACH_SLOW : Fld := ⟨0x80, 0x0, 8, 8⟩
def FWL_CFG_MULTI_OK : Fld := ⟨0x80, 0x0, 4, 4⟩
def FWL_CFG_CAN_NOMATCH_SLOW : Fld := ⟨0x80, 0x0, 0, 0⟩
def FWL_CT_CFG_EN : Fld := ⟨0x84, 0x0, 31, 31⟩
def FWL_CT_CFG_SIZE_LOG2 : Fld := ⟨0x84, 0x0, 20, 16⟩
def FWL_CT_CFG_FULL_SLOW : Fld := ⟨0x84, 0x0, 8, 8⟩
def FWL_CT_CFG_EVICT : Fld := ⟨0x84, 0x0, 4, 4⟩
def FWL_CT_STAT_EPOCH : Fld := ⟨0x88, 0x0, 31, 16⟩
def FWL_CT_STAT_REV_SEEN : Fld := ⟨0x88, 0x0, 0, 0⟩
def FWL_CT_USED_COUNT : Fld := ⟨0x8C, 0x0, 22, 0⟩
def FWL_CT_REV_GEN_GEN : Fld := ⟨0x90, 0x0, 31, 0⟩
def FWL_CT_SWEEP_MS : Fld := ⟨0x94, 0x0, 31, 0⟩
def FWL_CT_SEED_SEED : Fld := ⟨0x98, 0x0, 31, 0⟩
def FWL_TMO0_TCP_EST : Fld := ⟨0xA0, 0x0, 31, 16⟩
def FWL_TMO0_TCP_SYN : Fld := ⟨0xA0, 0x0, 15, 0⟩
def FWL_TMO1_TCP_CLOSED : Fld := ⟨0xA4, 0x0, 31, 16⟩
def FWL_TMO1_TCP_FIN : Fld := ⟨0xA4, 0x0, 15, 0⟩
def FWL_TMO2_UDP_STREAM : Fld := ⟨0xA8, 0x0, 31, 16⟩
def FWL_TMO2_UDP_NEW : Fld := ⟨0xA8, 0x0, 15, 0⟩
def FWL_TMO3_ICMP : Fld := ⟨0xAC, 0x0, 15, 0⟩
def FWL_DIAG_GATE_OPEN : Fld := ⟨0xB0, 0x4, 31, 31⟩
def FWL_DIAG_GATE_OPEN_REQ : Fld := ⟨0xB0, 0x4, 30, 30⟩
def FWL_DIAG_GATE_CLOSE_REQ : Fld := ⟨0xB0, 0x4, 29, 29⟩
def FWL_DIAG_GATE_SECONDS : Fld := ⟨0xB0, 0x4, 15, 0⟩
def FWL_ZONE_QUOTA_LIMIT : Fld := ⟨0x100, 0x4, 22, 0⟩
def FWL_ZONE_USED_COUNT : Fld := ⟨0x180, 0x4, 22, 0⟩
def SHL_CELL_FREE_COUNT : Fld := ⟨0x80, 0x0, 16, 0⟩
def SHL_SHARED_FREE_COUNT : Fld := ⟨0x84, 0x0, 16, 0⟩
def SHL_RECV_CELLS_COUNT : Fld := ⟨0x88, 0x0, 16, 0⟩
def SHL_MULTI_CELLS_COUNT : Fld := ⟨0x8C, 0x0, 16, 0⟩
def SHL_HEADROOM_CELLS : Fld := ⟨0x90, 0x0, 16, 0⟩
def SHL_RESERVED_CELLS : Fld := ⟨0x94, 0x0, 16, 0⟩
def SHL_LOW_WATER_RESTART : Fld := ⟨0x98, 0x0, 31, 31⟩
def SHL_LOW_WATER_LOW : Fld := ⟨0x98, 0x0, 16, 0⟩
def SHL_SPILL_CFG_EN : Fld := ⟨0xA0, 0x0, 31, 31⟩
def SHL_SPILL_CFG_RATE_PCT : Fld := ⟨0xA0, 0x0, 30, 24⟩
def SHL_SPILL_CFG_QUOTA16 : Fld := ⟨0xA0, 0x0, 6, 0⟩
def SHL_SPILL_STAT_VARIANT : Fld := ⟨0xA4, 0x0, 31, 30⟩
def SHL_SPILL_STAT_USED : Fld := ⟨0xA4, 0x0, 22, 0⟩
def SHL_SPILL_RATE_WRITE_GBPS : Fld := ⟨0xA8, 0x0, 15, 8⟩
def SHL_SPILL_RATE_READ_GBPS : Fld := ⟨0xA8, 0x0, 7, 0⟩
def SHL_PORT_EG_LIMIT_CELLS : Fld := ⟨0x1000, 0x20, 16, 0⟩
def SHL_PORT_IN_LIMIT_CELLS : Fld := ⟨0x1004, 0x20, 16, 0⟩
def SHL_PORT_MIRROR_RX_EN : Fld := ⟨0x1008, 0x20, 15, 15⟩
def SHL_PORT_MIRROR_RX_SESSION : Fld := ⟨0x1008, 0x20, 11, 8⟩
def SHL_PORT_MIRROR_TX_EN : Fld := ⟨0x1008, 0x20, 7, 7⟩
def SHL_PORT_MIRROR_TX_SESSION : Fld := ⟨0x1008, 0x20, 3, 0⟩
def SHL_PORT_EG_CELLS_CELLS : Fld := ⟨0x100C, 0x20, 16, 0⟩
def SHL_PORT_IN_CELLS_CELLS : Fld := ⟨0x1010, 0x20, 16, 0⟩
def SHL_Q_MIN_MIN : Fld := ⟨0x2000, 0x20, 12, 0⟩
def SHL_Q_MAX_ALPHA : Fld := ⟨0x2004, 0x20, 31, 29⟩
def SHL_Q_MAX_MAX : Fld := ⟨0x2004, 0x20, 16, 0⟩
def SHL_Q_AGE_LIMIT : Fld := ⟨0x2008, 0x20, 15, 0⟩
def SHL_Q_ECN_EN : Fld := ⟨0x200C, 0x20, 31, 31⟩
def SHL_Q_ECN_MARK : Fld := ⟨0x200C, 0x20, 16, 0⟩
def SHL_Q_SPILL_ON_EN : Fld := ⟨0x2010, 0x20, 31, 31⟩
def SHL_Q_SPILL_ON_ON : Fld := ⟨0x2010, 0x20, 16, 0⟩
def SHL_Q_SPILL_MAX_BLOCKS : Fld := ⟨0x2014, 0x20, 22, 0⟩
def SHL_Q_STAT_SPILLING : Fld := ⟨0x2018, 0x20, 31, 31⟩
def SHL_Q_STAT_DEPTH : Fld := ⟨0x2018, 0x20, 16, 0⟩
def SHL_Q_SPILL_STAT_BLOCKS : Fld := ⟨0x201C, 0x20, 22, 0⟩
def SHL_MIR_CFG_EN : Fld := ⟨0x200, 0x10, 31, 31⟩
def SHL_MIR_CFG_DEST_PORT : Fld := ⟨0x200, 0x10, 29, 24⟩
def SHL_MIR_CFG_QUEUE : Fld := ⟨0x200, 0x10, 22, 20⟩
def SHL_MIR_CFG_DMA_QUEUE : Fld := ⟨0x200, 0x10, 17, 12⟩
def SHL_MIR_CFG_TRUNC : Fld := ⟨0x200, 0x10, 7, 0⟩
def SHL_MIR_SAMPLE_LOG2_N : Fld := ⟨0x204, 0x10, 3, 0⟩
def SHL_AUDIT_TOTAL_TOTAL : Fld := ⟨0x100, 0x10, 31, 0⟩
def SHL_AUDIT_SUM_SUM : Fld := ⟨0x104, 0x10, 31, 0⟩
def SHL_AUDIT_CHECKS_COUNT : Fld := ⟨0x108, 0x10, 31, 0⟩
def SHL_AUDIT_STAT_DRIFT : Fld := ⟨0x10C, 0x10, 31, 16⟩
def SHL_AUDIT_STAT_FAILS : Fld := ⟨0x10C, 0x10, 15, 0⟩
def SHL_AUDIT_REC0_VALID : Fld := ⟨0x180, 0x0, 31, 31⟩
def SHL_AUDIT_REC0_OVERRUN : Fld := ⟨0x180, 0x0, 30, 30⟩
def SHL_AUDIT_REC0_INJECTED : Fld := ⟨0x180, 0x0, 29, 29⟩
def SHL_AUDIT_REC0_KIND : Fld := ⟨0x180, 0x0, 26, 24⟩
def SHL_AUDIT_REC0_ISLAND : Fld := ⟨0x180, 0x0, 23, 16⟩
def SHL_AUDIT_REC0_ACCOUNT : Fld := ⟨0x180, 0x0, 15, 0⟩
def SHL_AUDIT_REC1_EXPECTED : Fld := ⟨0x184, 0x0, 31, 0⟩
def SHL_AUDIT_REC2_FOUND : Fld := ⟨0x188, 0x0, 31, 0⟩
def SHL_AUDIT_REC_TIME_TIME : Fld := ⟨0x190, 0x0, 63, 0⟩
def SCH_GATE_CFG_CLOCK : Fld := ⟨0x80, 0x0, 29, 28⟩
def SCH_GATE_CFG_FINISH_SLOT : Fld := ⟨0x80, 0x0, 27, 27⟩
def SCH_GATE_CFG_ADMIN_LEN : Fld := ⟨0x80, 0x0, 10, 0⟩
def SCH_ADMIN_BASE_BASE : Fld := ⟨0x88, 0x0, 63, 0⟩
def SCH_ADMIN_CYCLE_CYCLE : Fld := ⟨0x90, 0x0, 31, 0⟩
def SCH_ADMIN_EXT_EXT : Fld := ⟨0x94, 0x0, 31, 0⟩
def SCH_GCL_CMD_CHANGE : Fld := ⟨0xC0, 0x0, 31, 31⟩
def SCH_GCL_CMD_CANCEL : Fld := ⟨0xC0, 0x0, 30, 30⟩
def SCH_GCL_STAT_PENDING : Fld := ⟨0xC4, 0x0, 31, 31⟩
def SCH_GCL_STAT_COPYING : Fld := ⟨0xC4, 0x0, 30, 30⟩
def SCH_GCL_STAT_EXTENDING : Fld := ⟨0xC4, 0x0, 29, 29⟩
def SCH_GCL_STAT_CUR_ENTRY : Fld := ⟨0xC4, 0x0, 25, 16⟩
def SCH_GCL_STAT_GATES : Fld := ⟨0xC4, 0x0, 15, 8⟩
def SCH_GCL_STAT_HOLD : Fld := ⟨0xC4, 0x0, 7, 7⟩
def SCH_GCL_PEND_TIME_S : Fld := ⟨0xC8, 0x0, 63, 0⟩
def SCH_GCL_SWAP_TIME_TIME : Fld := ⟨0xD0, 0x0, 63, 0⟩
def SCH_GCL_INDEX_LIST : Fld := ⟨0xD8, 0x0, 31, 31⟩
def SCH_GCL_INDEX_INDEX : Fld := ⟨0xD8, 0x0, 9, 0⟩
def SCH_GCL_ENTRY_ENTRY : Fld := ⟨0xE0, 0x0, 63, 0⟩
def SCH_HIST_CFG_EN : Fld := ⟨0xE8, 0x0, 31, 31⟩
def SCH_HIST_CFG_PERIOD_US : Fld := ⟨0xE8, 0x0, 15, 0⟩
def SCH_MAX_RESTART_RESTART : Fld := ⟨0xEC, 0x0, 0, 0⟩
def SCH_Q_SHAPER_MODE : Fld := ⟨0x100, 0x20, 31, 30⟩
def SCH_Q_SHAPER_IDLE_SLOPE : Fld := ⟨0x100, 0x20, 24, 0⟩
def SCH_Q_HICREDIT_HI : Fld := ⟨0x104, 0x20, 30, 0⟩
def SCH_Q_LOCREDIT_LO : Fld := ⟨0x108, 0x20, 30, 0⟩
def SCH_Q_CREDIT_CREDIT : Fld := ⟨0x10C, 0x20, 31, 0⟩
def SCH_Q_HIST_DELAY_LOG2 : Fld := ⟨0x110, 0x20, 20, 16⟩
def SCH_Q_HIST_DEPTH_LOG2 : Fld := ⟨0x110, 0x20, 12, 8⟩
def SCH_Q_HIST_SAMPLE_LOG2 : Fld := ⟨0x110, 0x20, 3, 0⟩
def SCH_Q_STAT_GATE_OPEN : Fld := ⟨0x114, 0x20, 31, 31⟩
def SCH_Q_STAT_CREDIT_OK : Fld := ⟨0x114, 0x20, 30, 30⟩
def SCH_Q_STAT_ATS_WAIT : Fld := ⟨0x114, 0x20, 29, 29⟩
def SCH_Q_MAX_DEPTH_CELLS : Fld := ⟨0x118, 0x20, 16, 0⟩
def SCH_Q_MAX_DELAY_NS : Fld := ⟨0x11C, 0x20, 31, 0⟩
def FRK_TBL_SEL_TABLE : Fld := ⟨0x80, 0x0, 31, 28⟩
def FRK_TBL_SEL_INDEX : Fld := ⟨0x80, 0x0, 11, 0⟩
def FRK_TBL_CMD_GO : Fld := ⟨0x84, 0x0, 31, 31⟩
def FRK_TBL_CMD_OP : Fld := ⟨0x84, 0x0, 0, 0⟩
def FRK_TBL_STAT_BUSY : Fld := ⟨0x88, 0x0, 31, 31⟩
def FRK_TBL_STAT_DONE : Fld := ⟨0x88, 0x0, 30, 30⟩
def FRK_TBL_STAT_RESULT : Fld := ⟨0x88, 0x0, 3, 0⟩
def FRK_TBL_W_WORD : Fld := ⟨0xA0, 0x4, 31, 0⟩
def FRK_CNT_SEL_TABLE : Fld := ⟨0xC0, 0x0, 31, 28⟩
def FRK_CNT_SEL_INDEX : Fld := ⟨0xC0, 0x0, 11, 0⟩
def FRK_CNT_COUNT : Fld := ⟨0xC8, 0x8, 63, 0⟩
def FRK_ATS_GROUP_MAX_RES : Fld := ⟨0x200, 0x4, 31, 0⟩
def PMK_ANCHOR_CFG_TRACK : Fld := ⟨0x80, 0x40, 31, 31⟩
def PMK_ANCHOR_CFG_DOMAIN : Fld := ⟨0x80, 0x40, 22, 16⟩
def PMK_ANCHOR_CFG_KP_LOG2 : Fld := ⟨0x80, 0x40, 15, 12⟩
def PMK_ANCHOR_CFG_KI_LOG2 : Fld := ⟨0x80, 0x40, 11, 8⟩
def PMK_ANCHOR_CFG_LOCK_COUNT : Fld := ⟨0x80, 0x40, 7, 4⟩
def PMK_ANCHOR_CFG_TIMEOUT : Fld := ⟨0x80, 0x40, 3, 0⟩
def PMK_ANCHOR_LIMITS_STEP_NS : Fld := ⟨0x84, 0x40, 31, 16⟩
def PMK_ANCHOR_LIMITS_LOCK_NS : Fld := ⟨0x84, 0x40, 15, 0⟩
def PMK_ANCHOR_MAXRATE_MAX_PPB : Fld := ⟨0x88, 0x40, 23, 0⟩
def PMK_ANCHOR_STAT_SPLIT : Fld := ⟨0x8C, 0x40, 31, 31⟩
def PMK_ANCHOR_STAT_STATE : Fld := ⟨0x8C, 0x40, 30, 28⟩
def PMK_ANCHOR_STAT_COARSE : Fld := ⟨0x8C, 0x40, 27, 27⟩
def PMK_ANCHOR_STAT_GOOD : Fld := ⟨0x8C, 0x40, 3, 0⟩
def PMK_ANCHOR_TIME_NS : Fld := ⟨0x90, 0x40, 63, 0⟩
def PMK_ANCHOR_SET_NS : Fld := ⟨0x98, 0x40, 63, 0⟩
def PMK_ANCHOR_OFFSET_NS : Fld := ⟨0xA0, 0x40, 31, 0⟩
def PMK_ANCHOR_RATE_RATE : Fld := ⟨0xA4, 0x40, 31, 0⟩
def PMK_ANCHOR_CMD_RESYNC : Fld := ⟨0xA8, 0x40, 31, 31⟩
def PMK_ANCHOR_CMD_SET : Fld := ⟨0xA8, 0x40, 30, 30⟩
def PMK_ANCHOR_FREE_RATE_RATE : Fld := ⟨0xAC, 0x40, 31, 0⟩
def PMK_WC_CFG_EN : Fld := ⟨0x200, 0x20, 31, 31⟩
def PMK_WC_CFG_SOURCE : Fld := ⟨0x200, 0x20, 30, 28⟩
def PMK_WC_CFG_TAU_LOG2 : Fld := ⟨0x200, 0x20, 27, 24⟩
def PMK_WC_CFG_SLEW_PPB : Fld := ⟨0x200, 0x20, 23, 0⟩
def PMK_WC_CMD_RESTEP : Fld := ⟨0x204, 0x20, 31, 31⟩
def PMK_WC_STAT_SLEWING : Fld := ⟨0x208, 0x20, 31, 31⟩
def PMK_WC_OFFSET_NS : Fld := ⟨0x20C, 0x20, 31, 0⟩
def PMK_WC_TIME_NS : Fld := ⟨0x210, 0x20, 63, 0⟩
def PMK_WC_RATE_RATE : Fld := ⟨0x218, 0x20, 31, 0⟩
def PMK_EVO_CFG_SOURCE : Fld := ⟨0x80, 0x0, 31, 28⟩
def PMK_EVO_CFG_POLARITY : Fld := ⟨0x80, 0x0, 27, 27⟩
def PMK_EVO_CFG_IRQ_EACH : Fld := ⟨0x80, 0x0, 26, 26⟩
def PMK_EVO_START_NS : Fld := ⟨0x88, 0x0, 63, 0⟩
def PMK_EVO_PERIOD_NS : Fld := ⟨0x90, 0x0, 31, 0⟩
def PMK_EVO_WIDTH_NS : Fld := ⟨0x94, 0x0, 31, 0⟩
def PMK_EVO_COUNT_PULSES : Fld := ⟨0x98, 0x0, 31, 0⟩
def PMK_EVO_STAT_ARMED : Fld := ⟨0x9C, 0x0, 31, 31⟩
def PMK_EVO_STAT_DONE : Fld := ⟨0x9C, 0x0, 30, 30⟩
def PMK_EVO_NEXT_NS : Fld := ⟨0xA0, 0x0, 63, 0⟩
def PMK_EVO_FLAGS_MUTE : Fld := ⟨0xA8, 0x0, 31, 31⟩
def PMK_EVO_FLAGS_PIN : Fld := ⟨0xA8, 0x0, 30, 30⟩
def PMK_CAP_CFG_EDGE : Fld := ⟨0x80, 0x0, 31, 30⟩
def PMK_CAP_CFG_REGION : Fld := ⟨0x80, 0x0, 23, 20⟩
def PMK_CAP_CFG_WC : Fld := ⟨0x80, 0x0, 19, 16⟩
def PMK_CAP_CFG_FILTER_NS : Fld := ⟨0x80, 0x0, 15, 0⟩
def PMK_GPTP_CFG_EN : Fld := ⟨0x120, 0x0, 31, 31⟩
def PMK_GPTP_CFG_SYNC1 : Fld := ⟨0x120, 0x0, 11, 8⟩
def PMK_GPTP_CFG_SYNC0 : Fld := ⟨0x120, 0x0, 7, 4⟩
def PMK_GPTP_CFG_PDELAY : Fld := ⟨0x120, 0x0, 3, 0⟩
def PMK_PORT_CFG_ROLE1 : Fld := ⟨0x1000, 0x20, 31, 30⟩
def PMK_PORT_CFG_ROLE0 : Fld := ⟨0x1000, 0x20, 29, 28⟩
def PMK_PORT_CFG_DELAY_STATIC : Fld := ⟨0x1000, 0x20, 27, 27⟩
def PMK_PORT_CFG_QUEUE : Fld := ⟨0x1000, 0x20, 26, 24⟩
def PMK_PORT_LAT_RX_LAT : Fld := ⟨0x1004, 0x20, 31, 16⟩
def PMK_PORT_LAT_TX_LAT : Fld := ⟨0x1004, 0x20, 15, 0⟩
def PMK_PORT_DELAY_DELAY_THRESH : Fld := ⟨0x1008, 0x20, 31, 16⟩
def PMK_PORT_DELAY_STATIC_DELAY : Fld := ⟨0x1008, 0x20, 15, 0⟩
def PMK_PORT_STAT_AS_CAPABLE : Fld := ⟨0x100C, 0x20, 31, 31⟩
def PMK_PORT_STAT_MEAN_DELAY : Fld := ⟨0x100C, 0x20, 15, 0⟩
def PMK_PORT_NRR_NRR : Fld := ⟨0x1010, 0x20, 31, 0⟩
def EDG_CAN_CFG_XL_EN : Fld := ⟨0x80, 0x0, 31, 31⟩
def EDG_CAN_CFG_FD_EN : Fld := ⟨0x80, 0x0, 30, 30⟩
def EDG_CAN_CFG_LISTEN_ONLY : Fld := ⟨0x80, 0x0, 29, 29⟩
def EDG_CAN_CFG_XL_TMS : Fld := ⟨0x80, 0x0, 28, 28⟩
def EDG_CAN_CFG_PXHD : Fld := ⟨0x80, 0x0, 27, 27⟩
def EDG_CAN_CFG_AUTO_RECOVER : Fld := ⟨0x80, 0x0, 26, 26⟩
def EDG_CAN_CFG_TX_TIME_EN : Fld := ⟨0x80, 0x0, 25, 25⟩
def EDG_CAN_CFG_TX_WC : Fld := ⟨0x80, 0x0, 23, 20⟩
def EDG_CAN_CFG_NOROUTE_BRIDGE : Fld := ⟨0x80, 0x0, 15, 15⟩
def EDG_CAN_CFG_STOP_TRX : Fld := ⟨0x80, 0x0, 14, 13⟩
def EDG_CAN_NBT_NBRP : Fld := ⟨0x84, 0x0, 31, 23⟩
def EDG_CAN_NBT_NTSEG1 : Fld := ⟨0x84, 0x0, 22, 14⟩
def EDG_CAN_NBT_NTSEG2 : Fld := ⟨0x84, 0x0, 13, 7⟩
def EDG_CAN_NBT_NSJW : Fld := ⟨0x84, 0x0, 6, 0⟩
def EDG_CAN_DBT_DBRP : Fld := ⟨0x88, 0x0, 31, 27⟩
def EDG_CAN_DBT_DTSEG1 : Fld := ⟨0x88, 0x0, 26, 20⟩
def EDG_CAN_DBT_DTSEG2 : Fld := ⟨0x88, 0x0, 19, 13⟩
def EDG_CAN_DBT_DSJW : Fld := ⟨0x88, 0x0, 12, 6⟩
def EDG_CAN_XBT : Fld := ⟨0x8C, 0x0, 31, 0⟩
def EDG_CAN_TDC_EN : Fld := ⟨0x90, 0x0, 31, 31⟩
def EDG_CAN_TDC_OFFSET : Fld := ⟨0x90, 0x0, 23, 16⟩
def EDG_CAN_TDC_MEASURED : Fld := ⟨0x90, 0x0, 7, 0⟩
def EDG_CAN_TRX_STATE : Fld := ⟨0x94, 0x0, 31, 30⟩
def EDG_CAN_TRX_REQ : Fld := ⟨0x94, 0x0, 29, 28⟩
def EDG_CAN_TRX_SETTLE_US : Fld := ⟨0x94, 0x0, 23, 16⟩
def EDG_CAN_TRX_PIN_MAP : Fld := ⟨0x94, 0x0, 7, 0⟩
def EDG_CAN_STAT_SYNC : Fld := ⟨0x98, 0x0, 31, 31⟩
def EDG_CAN_STAT_TX_ACTIVE : Fld := ⟨0x98, 0x0, 30, 30⟩
def EDG_CAN_STAT_ERR_STATE : Fld := ⟨0x98, 0x0, 29, 28⟩
def EDG_CAN_STAT_PINS : Fld := ⟨0x98, 0x0, 27, 27⟩
def EDG_CAN_STAT_RECOVERING : Fld := ⟨0x98, 0x0, 26, 26⟩
def EDG_CAN_STAT_REC : Fld := ⟨0x98, 0x0, 15, 8⟩
def EDG_CAN_STAT_TEC : Fld := ⟨0x98, 0x0, 7, 0⟩
def EDG_CAN_CMD_RECOVER : Fld := ⟨0x9C, 0x0, 31, 31⟩
def EDG_CAN_CMD_CLR_TX : Fld := ⟨0x9C, 0x0, 30, 30⟩
def EDG_CAN_LATE_NS : Fld := ⟨0xA0, 0x0, 31, 0⟩
def EDG_BRIDGE_CFG_TS_CLOCK : Fld := ⟨0x800, 0x0, 31, 31⟩
def EDG_BRIDGE_CFG_BRIEF : Fld := ⟨0x800, 0x0, 30, 30⟩
def EDG_BRIDGE_CFG_XL_TYPE : Fld := ⟨0x800, 0x0, 22, 16⟩
def EDG_BRIDGE_DMAC_DMAC : Fld := ⟨0x808, 0x0, 47, 0⟩
def EDG_RT_SEL_INDEX : Fld := ⟨0x810, 0x0, 10, 0⟩
def EDG_RT_W_WORD : Fld := ⟨0x820, 0x4, 31, 0⟩
def EDG_RT_CMD_GO : Fld := ⟨0x830, 0x0, 31, 31⟩
def EDG_RT_CMD_OP : Fld := ⟨0x830, 0x0, 0, 0⟩
def EDG_RT_STAT_BUSY : Fld := ⟨0x834, 0x0, 31, 31⟩
def EDG_RT_STAT_DONE : Fld := ⟨0x834, 0x0, 30, 30⟩
def EDG_RT_STAT_RESULT : Fld := ⟨0x834, 0x0, 3, 0⟩
def EDG_LIN_CFG_MASTER : Fld := ⟨0x80, 0x0, 31, 31⟩
def EDG_LIN_CFG_SCHED_WC : Fld := ⟨0x80, 0x0, 27, 24⟩
def EDG_LIN_CFG_BREAK_BITS : Fld := ⟨0x80, 0x0, 20, 16⟩
def EDG_LIN_CFG_BAUD : Fld := ⟨0x80, 0x0, 14, 0⟩
def EDG_LIN_SCHED_SWITCH : Fld := ⟨0x84, 0x0, 31, 31⟩
def EDG_LIN_SCHED_PENDING : Fld := ⟨0x84, 0x0, 30, 30⟩
def EDG_LIN_SCHED_ACTIVE : Fld := ⟨0x84, 0x0, 29, 29⟩
def EDG_LIN_SCHED_LEN : Fld := ⟨0x84, 0x0, 15, 8⟩
def EDG_LIN_SCHED_CUR_SLOT : Fld := ⟨0x84, 0x0, 7, 0⟩
def EDG_LIN_SCHED_START_NS : Fld := ⟨0x88, 0x0, 63, 0⟩
def NPT_SLEEP_CMD_GO : Fld := ⟨0x100, 0x0, 31, 31⟩
def NPT_SLEEP_CMD_CANCEL : Fld := ⟨0x100, 0x0, 30, 30⟩
def NPT_SLEEP_CMD_FORCE : Fld := ⟨0x100, 0x0, 29, 29⟩
def NPT_SLEEP_CMD_TARGET : Fld := ⟨0x100, 0x0, 1, 0⟩
def NPT_SLEEP_CFG_PREP_MAX_MS : Fld := ⟨0x104, 0x0, 31, 16⟩
def NPT_SLEEP_CFG_PREP_MIN_MS : Fld := ⟨0x104, 0x0, 15, 8⟩
def NPT_SLEEP_CFG_REPEAT_MS : Fld := ⟨0x104, 0x0, 7, 0⟩
def NPT_SLEEP_STAT_STATE : Fld := ⟨0x108, 0x0, 31, 29⟩
def NPT_SLEEP_STAT_TARGET : Fld := ⟨0x108, 0x0, 25, 24⟩
def NPT_SLEEP_STAT_GROUPS_AWAKE : Fld := ⟨0x108, 0x0, 15, 8⟩
def NPT_READY_MASK_MASK : Fld := ⟨0x10C, 0x0, 31, 0⟩
def NPT_READY_READY : Fld := ⟨0x110, 0x0, 31, 0⟩
def NPT_SLEEP_ID_PHASE_ID : Fld := ⟨0x114, 0x0, 26, 16⟩
def NPT_SLEEP_ID_READY_BASE : Fld := ⟨0x114, 0x0, 10, 0⟩
def NPT_STAY_ID_STAY_BASE : Fld := ⟨0x118, 0x0, 10, 0⟩
def NPT_SLEEP_BUSES_CAN : Fld := ⟨0x11C, 0x0, 23, 0⟩
def NPT_SLEEP_PORTS_PORTS : Fld := ⟨0x120, 0x0, 39, 0⟩
def NPT_RX_ID_IDE : Fld := ⟨0x80, 0x0, 31, 31⟩
def NPT_RX_ID_ID : Fld := ⟨0x80, 0x0, 28, 0⟩
def NPT_NBT_B_NBRP : Fld := ⟨0x8C, 0x0, 31, 23⟩
def NPT_NBT_B_NTSEG1 : Fld := ⟨0x8C, 0x0, 22, 14⟩
def NPT_NBT_B_NTSEG2 : Fld := ⟨0x8C, 0x0, 13, 7⟩
def NPT_NBT_B_NSJW : Fld := ⟨0x8C, 0x0, 6, 0⟩
def NPT_TRX_SETTLE_US : Fld := ⟨0x90, 0x0, 31, 24⟩
def NPT_TRX_MAP_A : Fld := ⟨0x90, 0x0, 15, 8⟩
def NPT_TRX_MAP_B : Fld := ⟨0x90, 0x0, 7, 0⟩
def NPT_RELAY_CFG_REPEAT : Fld := ⟨0x94, 0x0, 31, 28⟩
def NPT_RELAY_CFG_RETRY : Fld := ⟨0x94, 0x0, 27, 24⟩
def NPT_RELAY_CFG_GAP_MS : Fld := ⟨0x94, 0x0, 23, 16⟩
def NPT_RELAY_CFG_WINDOW : Fld := ⟨0x94, 0x0, 15, 0⟩
def NPT_CNT_SKIP_SKIP : Fld := ⟨0x98, 0x0, 15, 0⟩
def NPT_SENDER_EN : Fld := ⟨0xA0, 0x4, 31, 31⟩
def NPT_SENDER_KEY_SLOT : Fld := ⟨0xA0, 0x4, 7, 0⟩
def NPT_CNT_LAST_LAST : Fld := ⟨0xB0, 0x4, 31, 0⟩
def NPT_RELAY_STAT_VALID : Fld := ⟨0xC0, 0x0, 31, 31⟩
def NPT_RELAY_STAT_RESULT : Fld := ⟨0xC0, 0x0, 27, 24⟩
def NPT_RELAY_STAT_SENDER : Fld := ⟨0xC0, 0x0, 21, 20⟩
def NPT_RELAY_STAT_CMD : Fld := ⟨0xC0, 0x0, 19, 16⟩
def NPT_RELAY_STAT_COPIES : Fld := ⟨0xC0, 0x0, 7, 0⟩
def NPT_CMD_MAP_EN : Fld := ⟨0x1C0, 0x4, 31, 31⟩
def NPT_CMD_MAP_WAKE : Fld := ⟨0x1C0, 0x4, 30, 30⟩
def NPT_CMD_MAP_IDE : Fld := ⟨0x1C0, 0x4, 29, 29⟩
def NPT_CMD_MAP_TX_ID : Fld := ⟨0x1C0, 0x4, 28, 0⟩
def PWR_STATE_REQ_GO : Fld := ⟨0x80, 0x0, 31, 31⟩
def PWR_STATE_REQ_TARGET : Fld := ⟨0x80, 0x0, 2, 0⟩
def PWR_STATE_STAT_BUSY : Fld := ⟨0x84, 0x0, 31, 31⟩
def PWR_STATE_STAT_PEND_VALID : Fld := ⟨0x84, 0x0, 30, 30⟩
def PWR_STATE_STAT_PEND : Fld := ⟨0x84, 0x0, 26, 24⟩
def PWR_STATE_STAT_NEXT : Fld := ⟨0x84, 0x0, 18, 16⟩
def PWR_STATE_STAT_CUR : Fld := ⟨0x84, 0x0, 2, 0⟩
def PWR_OP_REQ_GO : Fld := ⟨0x88, 0x0, 31, 31⟩
def PWR_OP_REQ_OP : Fld := ⟨0x88, 0x0, 1, 0⟩
def PWR_OP_STAT_BUSY : Fld := ⟨0x8C, 0x0, 31, 31⟩
def PWR_OP_STAT_PEND_VALID : Fld := ⟨0x8C, 0x0, 30, 30⟩
def PWR_OP_STAT_PEND : Fld := ⟨0x8C, 0x0, 25, 24⟩
def PWR_OP_STAT_NEXT : Fld := ⟨0x8C, 0x0, 17, 16⟩
def PWR_OP_STAT_VID : Fld := ⟨0x8C, 0x0, 11, 8⟩
def PWR_OP_STAT_CUR : Fld := ⟨0x8C, 0x0, 1, 0⟩
def PWR_OP_TRIM_TRIM : Fld := ⟨0x90, 0x0, 1, 0⟩
def PWR_VCTRL_PMBUS_EN : Fld := ⟨0x94, 0x0, 31, 31⟩
def PWR_VCTRL_PMB_ADDR : Fld := ⟨0x94, 0x0, 30, 24⟩
def PWR_VCTRL_SETTLE_US : Fld := ⟨0x94, 0x0, 7, 0⟩
def PWR_PMB_STAT_ERR : Fld := ⟨0x98, 0x0, 31, 31⟩
def PWR_PMB_STAT_VOUT_MV : Fld := ⟨0x98, 0x0, 15, 0⟩
def PWR_DOMAIN_STAT_READY : Fld := ⟨0x9C, 0x0, 16, 0⟩
def PWR_STALL_MAX_US : Fld := ⟨0xA0, 0x0, 31, 0⟩
def HBR_LINK_STAT_L0 : Fld := ⟨0x80, 0x0, 31, 31⟩
def HBR_LINK_STAT_WIDTH : Fld := ⟨0x80, 0x0, 15, 8⟩
def HBR_LINK_STAT_SPEED : Fld := ⟨0x80, 0x0, 3, 0⟩
def HBR_ACCESS_ERR_VALID : Fld := ⟨0x90, 0x0, 31, 31⟩
def HBR_ACCESS_ERR_OVERRUN : Fld := ⟨0x90, 0x0, 30, 30⟩
def HBR_ACCESS_ERR_KIND : Fld := ⟨0x90, 0x0, 26, 24⟩
def HBR_ACCESS_ERR_REQUESTER : Fld := ⟨0x90, 0x0, 23, 20⟩
def HBR_ACCESS_ERR_SPACE : Fld := ⟨0x90, 0x0, 19, 18⟩
def HBR_ACCESS_ERR_WRITE : Fld := ⟨0x90, 0x0, 0, 0⟩
def HBR_ACCESS_ADDR_OFFSET : Fld := ⟨0x98, 0x0, 63, 0⟩
def HBR_ACCESS_TIME_TIME : Fld := ⟨0xA0, 0x0, 63, 0⟩
def HBR_RWIN_PEER_FENCE_EN : Fld := ⟨0xC0, 0x0, 31, 31⟩
def HBR_RWIN_PEER_FENCED : Fld := ⟨0xC0, 0x0, 30, 30⟩
def HBR_RWIN_PEER_SPACE : Fld := ⟨0xC0, 0x0, 29, 28⟩
def HBR_RWIN_PEER_BASE : Fld := ⟨0xC0, 0x0, 4, 0⟩
def HBR_RWIN_FLASH_FENCE_EN : Fld := ⟨0xC4, 0x0, 31, 31⟩
def HBR_RWIN_FLASH_FENCED : Fld := ⟨0xC4, 0x0, 30, 30⟩
def HBR_RWIN_FLASH_BASE : Fld := ⟨0xC4, 0x0, 5, 0⟩
def HBR_FLASH_USER_FIRST : Fld := ⟨0xC8, 0x0, 31, 16⟩
def HBR_FLASH_USER_SECTORS : Fld := ⟨0xC8, 0x0, 15, 0⟩
def HBR_FLASH_ERASE_GO : Fld := ⟨0xCC, 0x0, 31, 31⟩
def HBR_FLASH_ERASE_SECTOR : Fld := ⟨0xCC, 0x0, 15, 0⟩
def HBR_FLASH_STAT_BUSY : Fld := ⟨0xD0, 0x0, 31, 31⟩
def HBR_FLASH_STAT_DONE : Fld := ⟨0xD0, 0x0, 30, 30⟩
def HBR_FLASH_STAT_RESULT : Fld := ⟨0xD0, 0x0, 3, 0⟩
def DMA_Q_CTRL_EN : Fld := ⟨0x1000, 0x40, 1, 0⟩
def DMA_Q_STAT_ERR : Fld := ⟨0x1004, 0x40, 11, 8⟩
def DMA_Q_STAT_PENDING : Fld := ⟨0x1004, 0x40, 3, 2⟩
def DMA_Q_STAT_STATE : Fld := ⟨0x1004, 0x40, 1, 0⟩
def DMA_Q_BASE_IOVA : Fld := ⟨0x1008, 0x40, 63, 0⟩
def DMA_Q_CFG_DROP_FULL : Fld := ⟨0x1010, 0x40, 31, 31⟩
def DMA_Q_CFG_UNITS : Fld := ⟨0x1010, 0x40, 23, 16⟩
def DMA_Q_CFG_SIZE : Fld := ⟨0x1010, 0x40, 12, 0⟩
def DMA_Q_TAIL_TAIL : Fld := ⟨0x1014, 0x40, 11, 0⟩
def DMA_Q_HEAD_HEAD : Fld := ⟨0x1018, 0x40, 11, 0⟩
def DMA_Q_IRQ_EN : Fld := ⟨0x101C, 0x40, 31, 31⟩
def DMA_Q_IRQ_VECTOR : Fld := ⟨0x101C, 0x40, 22, 16⟩
def DMA_Q_IRQ_ITR_US : Fld := ⟨0x101C, 0x40, 15, 6⟩
def DMA_Q_IRQ_COUNT : Fld := ⟨0x101C, 0x40, 5, 0⟩
def DMA_Q_ERR_ADDR_IOVA : Fld := ⟨0x1020, 0x40, 63, 0⟩
def LBX_MB_CTRL_GO : Fld := ⟨0x80, 0x10, 31, 31⟩
def LBX_MB_STAT_STATE : Fld := ⟨0x84, 0x10, 31, 30⟩
def DST_CFG_VARIANT : Fld := ⟨0x80, 0x0, 31, 30⟩
def DST_CFG_SIZE : Fld := ⟨0x80, 0x0, 29, 28⟩
def DST_CFG_MTS : Fld := ⟨0x80, 0x0, 15, 0⟩
def DST_USE_RESTART : Fld := ⟨0x84, 0x0, 31, 31⟩
def DST_USE_PEAK : Fld := ⟨0x84, 0x0, 30, 24⟩
def DST_USE_USE : Fld := ⟨0x84, 0x0, 6, 0⟩
def DST_ARB_CFG_STALL_US : Fld := ⟨0x88, 0x0, 31, 16⟩
def DST_ARB_CFG_STARVE_NS : Fld := ⟨0x88, 0x0, 15, 0⟩
def DST_STARVE_VALID : Fld := ⟨0x8C, 0x0, 31, 31⟩
def DST_STARVE_OVERRUN : Fld := ⟨0x8C, 0x0, 30, 30⟩
def DST_STARVE_REQUESTER : Fld := ⟨0x8C, 0x0, 23, 16⟩
def DST_STARVE_WAIT_NS : Fld := ⟨0x8C, 0x0, 15, 0⟩
def DST_ARB_LIMIT_EN : Fld := ⟨0x90, 0x4, 31, 31⟩
def DST_ARB_LIMIT_RATE : Fld := ⟨0x90, 0x4, 15, 0⟩
def DST_ECC_REC_VALID : Fld := ⟨0xA0, 0x0, 31, 31⟩
def DST_ECC_REC_OVERRUN : Fld := ⟨0xA0, 0x0, 30, 30⟩
def DST_ECC_REC_REQUESTER : Fld := ⟨0xA0, 0x0, 23, 16⟩
def DST_ECC_ADDR_ADDR : Fld := ⟨0xA8, 0x0, 63, 0⟩
def DST_SCRUB_EN : Fld := ⟨0xB0, 0x0, 31, 31⟩
def DST_SCRUB_HOURS : Fld := ⟨0xB0, 0x0, 7, 0⟩
def DST_TEMP_DERATED : Fld := ⟨0xB4, 0x0, 31, 31⟩
def DST_TEMP_MR4 : Fld := ⟨0xB4, 0x0, 2, 0⟩
def DST_CAPR_BASE_MIB : Fld := ⟨0x100, 0x8, 12, 0⟩
def DST_CAPR_SIZE_MIB : Fld := ⟨0x104, 0x8, 12, 0⟩
def DST_CAP_CFG_WRAP : Fld := ⟨0x80, 0x0, 31, 31⟩
def DST_CAP_CFG_SESSION : Fld := ⟨0x80, 0x0, 23, 20⟩
def DST_CAP_CFG_REGION : Fld := ⟨0x80, 0x0, 19, 16⟩
def DST_CAP_STAT_FULL : Fld := ⟨0x84, 0x0, 31, 31⟩
def DST_CAP_STAT_LAP : Fld := ⟨0x84, 0x0, 30, 16⟩
def DST_CAP_POINT_OFFSET : Fld := ⟨0x88, 0x0, 31, 0⟩
def MMU_CTX_BASE_ADDR : Fld := ⟨0x100, 0x8, 51, 12⟩
def MMU_CTX_BASE_VALID : Fld := ⟨0x100, 0x8, 0, 0⟩
def MMU_INV_GO : Fld := ⟨0x180, 0x0, 31, 31⟩
def MMU_INV_SCOPE : Fld := ⟨0x180, 0x0, 30, 29⟩
def MMU_INV_CTX : Fld := ⟨0x180, 0x0, 3, 0⟩
def MMU_INV_DVA_DVA : Fld := ⟨0x188, 0x0, 63, 0⟩
def MMU_FAULT_VALID : Fld := ⟨0x1A0, 0x0, 31, 31⟩
def MMU_FAULT_OVERRUN : Fld := ⟨0x1A0, 0x0, 30, 30⟩
def MMU_FAULT_CAUSE : Fld := ⟨0x1A0, 0x0, 23, 16⟩
def MMU_FAULT_CHANNEL : Fld := ⟨0x1A0, 0x0, 13, 8⟩
def MMU_FAULT_WRITE : Fld := ⟨0x1A0, 0x0, 4, 4⟩
def MMU_FAULT_CTX : Fld := ⟨0x1A0, 0x0, 3, 0⟩
def MMU_FAULT_DVA_DVA : Fld := ⟨0x1A8, 0x0, 63, 0⟩
def MOV_CTRL_START : Fld := ⟨0x1000, 0x40, 31, 31⟩
def MOV_CTRL_RESUME : Fld := ⟨0x1000, 0x40, 30, 30⟩
def MOV_CTRL_ABORT : Fld := ⟨0x1000, 0x40, 29, 29⟩
def MOV_CTRL_PRIO : Fld := ⟨0x1000, 0x40, 25, 24⟩
def MOV_CTRL_CTX : Fld := ⟨0x1000, 0x40, 3, 0⟩
def MOV_STAT_STATE : Fld := ⟨0x1004, 0x40, 31, 29⟩
def MOV_STAT_OWNER : Fld := ⟨0x1004, 0x40, 27, 24⟩
def MOV_STAT_CAUSE : Fld := ⟨0x1004, 0x40, 23, 16⟩
def MOV_STAT_PREEMPTS : Fld := ⟨0x1004, 0x40, 15, 0⟩
def MOV_SRC_DVA : Fld := ⟨0x1008, 0x40, 63, 0⟩
def MOV_DST_DVA : Fld := ⟨0x1010, 0x40, 63, 0⟩
def MOV_LEN_BYTES : Fld := ⟨0x1018, 0x40, 31, 0⟩
def MOV_CUR_SRC_DVA : Fld := ⟨0x1020, 0x40, 63, 0⟩
def MOV_CUR_DST_DVA : Fld := ⟨0x1028, 0x40, 63, 0⟩
def MOV_REMAIN_BYTES : Fld := ⟨0x1030, 0x40, 31, 0⟩
def CCL_PAIR_STAT_STATE : Fld := ⟨0x80, 0x10, 31, 29⟩
def CCL_PAIR_STAT_ROLE : Fld := ⟨0x80, 0x10, 28, 27⟩
def CCL_PAIR_STAT_COVER : Fld := ⟨0x80, 0x10, 26, 26⟩
def CCL_PAIR_STAT_DUP_CMP : Fld := ⟨0x80, 0x10, 25, 25⟩
def CCL_PAIR_STAT_CKPT_SEQ : Fld := ⟨0x80, 0x10, 15, 0⟩
def CCL_PAIR_UNDO_KIB : Fld := ⟨0x84, 0x10, 9, 0⟩
def CCL_PAIR_CKPT_TIME_NS : Fld := ⟨0x88, 0x10, 63, 0⟩
def CCL_RESTART_CFG_LIMIT : Fld := ⟨0xC0, 0x0, 31, 28⟩
def CCL_RESTART_CFG_WINDOW_MS : Fld := ⟨0xC0, 0x0, 15, 0⟩
def CCL_LAST_RESTART_VALID : Fld := ⟨0xC8, 0x0, 31, 31⟩
def CCL_LAST_RESTART_OVERRUN : Fld := ⟨0xC8, 0x0, 30, 30⟩
def CCL_LAST_RESTART_PAIR : Fld := ⟨0xC8, 0x0, 25, 24⟩
def CCL_LAST_RESTART_CAUSE : Fld := ⟨0xC8, 0x0, 23, 16⟩
def CCL_LAST_RESTART_POINT : Fld := ⟨0xC8, 0x0, 15, 8⟩
def CCL_LAST_RESTART_US_US : Fld := ⟨0xCC, 0x0, 31, 0⟩
def CCL_SLOW_CFG_DROP_CLASSES : Fld := ⟨0xD0, 0x0, 15, 0⟩
def CCL_SLOW_ACT : Fld := ⟨0x1000, 0x4, 31, 0⟩
def KEY_ROOT_STAT_VALID : Fld := ⟨0x80, 0x0, 31, 31⟩
def KEY_ROOT_STAT_TEST : Fld := ⟨0x80, 0x0, 30, 30⟩
def KEY_ROOT_STAT_BANK : Fld := ⟨0x80, 0x0, 29, 29⟩
def KEY_ROOT_STAT_REVOKED_A : Fld := ⟨0x80, 0x0, 28, 28⟩
def KEY_ROOT_STAT_REVOKED_B : Fld := ⟨0x80, 0x0, 27, 27⟩
def KEY_ROOT_STAT_TAMPER_COUNT : Fld := ⟨0x80, 0x0, 13, 8⟩
def KEY_TAMPER_CFG_KILL_ROOT : Fld := ⟨0x84, 0x0, 31, 31⟩
def KEY_TAMPER_CFG_SRC_EN : Fld := ⟨0x84, 0x0, 10, 8⟩
def KEY_TAMPER_CFG_FILTER_US : Fld := ⟨0x84, 0x0, 7, 0⟩
def KEY_TAMPER_STAT_LOCKOUT : Fld := ⟨0x88, 0x0, 31, 31⟩
def KEY_TAMPER_STAT_FUSE_PENDING : Fld := ⟨0x88, 0x0, 30, 30⟩
def KEY_TAMPER_STAT_TEMP : Fld := ⟨0x88, 0x0, 3, 3⟩
def KEY_TAMPER_STAT_CLOCK : Fld := ⟨0x88, 0x0, 2, 2⟩
def KEY_TAMPER_STAT_VSTBY : Fld := ⟨0x88, 0x0, 1, 1⟩
def KEY_TAMPER_STAT_PIN : Fld := ⟨0x88, 0x0, 0, 0⟩
def KEY_CMD_GO : Fld := ⟨0xC0, 0x0, 31, 31⟩
def KEY_CMD_ROOT : Fld := ⟨0xC0, 0x0, 30, 30⟩
def KEY_CMD_OP : Fld := ⟨0xC0, 0x0, 27, 24⟩
def KEY_CMD_SLOT : Fld := ⟨0xC0, 0x0, 23, 16⟩
def KEY_CMD_PARENT : Fld := ⟨0xC0, 0x0, 15, 8⟩
def KEY_CMD_FORMAT : Fld := ⟨0xC0, 0x0, 0, 0⟩
def KEY_CMD_ATTR_ATTR : Fld := ⟨0xC4, 0x0, 31, 0⟩
def KEY_CMD_USES_USES : Fld := ⟨0xC8, 0x0, 31, 0⟩
def KEY_CMD_LEN_LABEL_LEN : Fld := ⟨0xCC, 0x0, 21, 16⟩
def KEY_CMD_LEN_CONTEXT_LEN : Fld := ⟨0xCC, 0x0, 13, 8⟩
def KEY_CMD_LEN_BLOB_LEN : Fld := ⟨0xCC, 0x0, 7, 0⟩
def KEY_CMD_STAT_BUSY : Fld := ⟨0xD0, 0x0, 31, 31⟩
def KEY_CMD_STAT_DONE : Fld := ⟨0xD0, 0x0, 30, 30⟩
def KEY_CMD_STAT_RESULT : Fld := ⟨0xD0, 0x0, 3, 0⟩
def KEY_LABEL_BYTES : Fld := ⟨0x100, 0x4, 31, 0⟩
def KEY_CONTEXT_BYTES : Fld := ⟨0x120, 0x4, 31, 0⟩
def KEY_WO_KEY : Fld := ⟨0x140, 0x4, 31, 0⟩
def KEY_BLOB_BYTES : Fld := ⟨0x180, 0x4, 31, 0⟩
def WAX_CFG_DUMMY_MAX : Fld := ⟨0x80, 0x0, 2, 0⟩
def WAX_STAT_BUSY : Fld := ⟨0x84, 0x0, 31, 31⟩
def WAX_STAT_CUR : Fld := ⟨0x84, 0x0, 30, 28⟩
def WAX_CTX_CTRL_GO : Fld := ⟨0x800, 0x80, 31, 31⟩
def WAX_CTX_CTRL_ABORT : Fld := ⟨0x800, 0x80, 30, 30⟩
def WAX_CTX_CTRL_RELEASE : Fld := ⟨0x800, 0x80, 29, 29⟩
def WAX_CTX_CTRL_FIRST : Fld := ⟨0x800, 0x80, 28, 28⟩
def WAX_CTX_CTRL_LAST : Fld := ⟨0x800, 0x80, 27, 27⟩
def WAX_CTX_CTRL_XTS256 : Fld := ⟨0x800, 0x80, 26, 26⟩
def WAX_CTX_CTRL_PRIO : Fld := ⟨0x800, 0x80, 25, 24⟩
def WAX_CTX_CTRL_MODE : Fld := ⟨0x800, 0x80, 23, 20⟩
def WAX_CTX_CTRL_DIR : Fld := ⟨0x800, 0x80, 19, 19⟩
def WAX_CTX_CTRL_KEY_WO : Fld := ⟨0x800, 0x80, 18, 18⟩
def WAX_CTX_CTRL_XTS_DU : Fld := ⟨0x800, 0x80, 17, 17⟩
def WAX_CTX_CTRL_KSIZE : Fld := ⟨0x800, 0x80, 16, 16⟩
def WAX_CTX_CTRL_SLOT : Fld := ⟨0x800, 0x80, 15, 8⟩
def WAX_CTX_STAT_STATE : Fld := ⟨0x804, 0x80, 31, 29⟩
def WAX_CTX_STAT_RESULT : Fld := ⟨0x804, 0x80, 27, 24⟩
def WAX_CTX_STAT_OWNER : Fld := ⟨0x804, 0x80, 23, 20⟩
def WAX_CTX_STAT_SUSPENDS : Fld := ⟨0x804, 0x80, 15, 0⟩
def WAX_CTX_LEN_TLEN : Fld := ⟨0x808, 0x80, 31, 28⟩
def WAX_CTX_LEN_AAD : Fld := ⟨0x808, 0x80, 27, 16⟩
def WAX_CTX_LEN_DATA : Fld := ⟨0x808, 0x80, 11, 0⟩
def WAX_CTX_IV_IV : Fld := ⟨0x810, 0x80, 31, 0⟩
def WAX_CTX_TAG_TAG : Fld := ⟨0x820, 0x80, 31, 0⟩
def WAX_CTX_KEY_KEY : Fld := ⟨0x840, 0x80, 31, 0⟩
def MSC_PORT_CFG_EN : Fld := ⟨0x80, 0x10, 31, 31⟩
def MSC_PORT_CFG_PROTECT : Fld := ⟨0x80, 0x10, 30, 30⟩
def MSC_PORT_CFG_CONFIDENTIAL : Fld := ⟨0x80, 0x10, 29, 29⟩
def MSC_PORT_CFG_INCLUDE_SCI : Fld := ⟨0x80, 0x10, 28, 28⟩
def MSC_PORT_CFG_VALIDATE : Fld := ⟨0x80, 0x10, 27, 26⟩
def MSC_PORT_CFG_REPLAY : Fld := ⟨0x80, 0x10, 25, 25⟩
def MSC_PORT_CFG_CIPHER : Fld := ⟨0x80, 0x10, 24, 23⟩
def MSC_PORT_CFG_TX_AN : Fld := ⟨0x80, 0x10, 22, 21⟩
def MSC_PORT_CFG_LOW_LOG2 : Fld := ⟨0x80, 0x10, 20, 16⟩
def MSC_PORT_CFG_PORT_ID : Fld := ⟨0x80, 0x10, 15, 0⟩
def MSC_PORT_WINDOW_WINDOW : Fld := ⟨0x84, 0x10, 31, 0⟩
def MSC_PORT_STAT_ACTIVE : Fld := ⟨0x88, 0x10, 31, 31⟩
def MSC_PORT_STAT_PN_EXHAUSTED : Fld := ⟨0x88, 0x10, 30, 30⟩
def MSC_PORT_STAT_TX_AN : Fld := ⟨0x88, 0x10, 29, 28⟩
def MSC_SA_SEL_PORT : Fld := ⟨0x100, 0x0, 9, 8⟩
def MSC_SA_SEL_INDEX : Fld := ⟨0x100, 0x0, 5, 0⟩
def MSC_SA_CMD_GO : Fld := ⟨0x104, 0x0, 31, 31⟩
def MSC_SA_CMD_OP : Fld := ⟨0x104, 0x0, 0, 0⟩
def MSC_SA_STAT_BUSY : Fld := ⟨0x108, 0x0, 31, 31⟩
def MSC_SA_STAT_DONE : Fld := ⟨0x108, 0x0, 30, 30⟩
def MSC_SA_STAT_RESULT : Fld := ⟨0x108, 0x0, 3, 0⟩
def MSC_SA_W_WORD : Fld := ⟨0x120, 0x4, 31, 0⟩
def CCL_SIG_KEYS_REVOKED : Fld := ⟨0x3080, 0x0, 19, 16⟩
def CCL_SIG_KEYS_PRESENT : Fld := ⟨0x3080, 0x0, 3, 0⟩
def CCL_SIG_LAST_VALID : Fld := ⟨0x3084, 0x0, 31, 31⟩
def CCL_SIG_LAST_RESULT : Fld := ⟨0x3084, 0x0, 27, 24⟩
def CCL_SIG_LAST_KEY : Fld := ⟨0x3084, 0x0, 17, 16⟩
def CCL_SIG_LAST_SLOT : Fld := ⟨0x3084, 0x0, 0, 0⟩
def FLT_SUMMARY_SAFE : Fld := ⟨0x80, 0x0, 31, 31⟩
def FLT_SUMMARY_LEVEL : Fld := ⟨0x80, 0x0, 30, 28⟩
def FLT_SUMMARY_ACTIVE : Fld := ⟨0x80, 0x0, 11, 0⟩
def FLT_OUT_CFG_PIN_LEVEL : Fld := ⟨0x84, 0x0, 2, 0⟩
def FLT_SAFE_EVO_LEVELS : Fld := ⟨0x88, 0x0, 31, 0⟩
def FLT_TEMP_NOW : Fld := ⟨0x8C, 0x0, 23, 16⟩
def FLT_TEMP_HIGH : Fld := ⟨0x8C, 0x0, 7, 0⟩
def FLT_PFAIL_ASSERTED : Fld := ⟨0x90, 0x0, 31, 31⟩
def FLT_PFAIL_FLUSHED : Fld := ⟨0x90, 0x0, 30, 30⟩
def FLT_PFAIL_RECORDS : Fld := ⟨0x90, 0x0, 15, 0⟩
def FLT_ISO_PORT_PORTS : Fld := ⟨0x98, 0x0, 39, 0⟩
def FLT_ISO_EDGE_LIN : Fld := ⟨0xA0, 0x0, 31, 24⟩
def FLT_ISO_EDGE_CAN : Fld := ⟨0xA0, 0x0, 23, 0⟩
def FLT_ISO_PIN_EVO : Fld := ⟨0xA4, 0x0, 15, 0⟩
def FLT_LAST_L4_REC0 : Fld := ⟨0xC0, 0x0, 31, 0⟩
def FLT_LAST_L4_REC1 : Fld := ⟨0xC4, 0x0, 31, 0⟩
def FLT_LAST_L4_TIME_NS : Fld := ⟨0xC8, 0x0, 63, 0⟩
def FLT_CLS_CFG_AUTO : Fld := ⟨0x100, 0x10, 31, 31⟩
def FLT_CLS_CFG_MAX : Fld := ⟨0x100, 0x10, 22, 20⟩
def FLT_CLS_CFG_LEVEL : Fld := ⟨0x100, 0x10, 18, 16⟩
def FLT_CLS_CFG_QUIET_MS : Fld := ⟨0x100, 0x10, 15, 0⟩
def FLT_CLS_STAT_STATE : Fld := ⟨0x104, 0x10, 31, 30⟩
def FLT_CLS_STAT_LEVEL : Fld := ⟨0x104, 0x10, 29, 27⟩
def FLT_CLS_STAT_FLOOR : Fld := ⟨0x104, 0x10, 26, 24⟩
def FLT_CLS_STAT_QUIET_DONE : Fld := ⟨0x104, 0x10, 23, 23⟩
def FLT_CLS_STAT_EPISODE : Fld := ⟨0x104, 0x10, 15, 0⟩
def FLT_CLS_ACK_ACK : Fld := ⟨0x108, 0x10, 0, 0⟩
def FLT_CLS_RECOV_RECOVERIES : Fld := ⟨0x10C, 0x10, 31, 0⟩
def ADJ_CFG_NP_OWNER : Fld := ⟨0x80, 0x0, 31, 31⟩
def ADJ_CFG_UNSYNCED_CLAIM : Fld := ⟨0x80, 0x0, 30, 30⟩
def ADJ_CFG_NUMBER : Fld := ⟨0x80, 0x0, 3, 0⟩
def ADJ_JOIN_JOIN_MS : Fld := ⟨0x84, 0x0, 15, 0⟩
def ADJ_STAT_STATE : Fld := ⟨0x88, 0x0, 31, 28⟩
def ADJ_STAT_HOLD : Fld := ⟨0x88, 0x0, 27, 27⟩
def ADJ_STAT_PEER_SAFE : Fld := ⟨0x88, 0x0, 26, 26⟩
def ADJ_STAT_LANES : Fld := ⟨0x88, 0x0, 25, 24⟩
def ADJ_STAT_PEER_STATE : Fld := ⟨0x88, 0x0, 23, 20⟩
def ADJ_STAT_PEER_NUMBER : Fld := ⟨0x88, 0x0, 19, 16⟩
def ADJ_SHARED_CAN_CAN : Fld := ⟨0x90, 0x0, 23, 0⟩
def ADJ_SHARED_LIN_LIN : Fld := ⟨0x94, 0x0, 7, 0⟩
def ADJ_SHARED_EVO_EVO : Fld := ⟨0x98, 0x0, 15, 0⟩
def ADJ_CMD_YIELD : Fld := ⟨0x9C, 0x0, 31, 31⟩
def ADJ_CMD_RESYNC : Fld := ⟨0x9C, 0x0, 30, 30⟩
def ADJ_ORDER_IDX_INDEX : Fld := ⟨0xA0, 0x0, 63, 0⟩
def ADJ_ORDER_BEHIND_COUNT : Fld := ⟨0xA8, 0x0, 12, 0⟩
def ADJ_TIME_ERR_NS : Fld := ⟨0xAC, 0x0, 31, 0⟩
def ADJ_LAST_GAP_US : Fld := ⟨0xB0, 0x0, 31, 0⟩
def UPD_SLOT_STAT_STATE : Fld := ⟨0x80, 0x10, 31, 29⟩
def UPD_SLOT_STAT_ACTIVE : Fld := ⟨0x80, 0x10, 28, 28⟩
def UPD_SLOT_STAT_CONFIRMED : Fld := ⟨0x80, 0x10, 27, 27⟩
def UPD_SLOT_STAT_REASON : Fld := ⟨0x80, 0x10, 23, 16⟩
def UPD_SLOT_STAT_ROLLBACK : Fld := ⟨0x80, 0x10, 5, 0⟩
def UPD_SLOT_VER_VERSION : Fld := ⟨0x84, 0x10, 31, 0⟩
def UPD_SLOT_LEN_LENGTH : Fld := ⟨0x88, 0x10, 31, 0⟩
def UPD_ROLLBACK_COUNT : Fld := ⟨0xA0, 0x0, 6, 0⟩
def UPD_ACT_PHASE : Fld := ⟨0xA4, 0x0, 31, 28⟩
def UPD_ACT_MODE : Fld := ⟨0xA4, 0x0, 27, 26⟩
def UPD_ACT_PAIR : Fld := ⟨0xA4, 0x0, 25, 24⟩
def UPD_ACT_DONE_MASK : Fld := ⟨0xA4, 0x0, 23, 20⟩
def UPD_ACT_RESULT : Fld := ⟨0xA4, 0x0, 7, 0⟩
def UPD_SCHED_TIME_NS : Fld := ⟨0xA8, 0x0, 63, 0⟩
def UPD_CFG_STORE_COMPACTING : Fld := ⟨0xB0, 0x0, 31, 31⟩
def UPD_CFG_STORE_NEWER : Fld := ⟨0xB0, 0x0, 30, 30⟩
def UPD_CFG_STORE_FREE : Fld := ⟨0xB0, 0x0, 7, 0⟩
def TRC_ENTRY_W : Fld := ⟨0x100, 0x4, 31, 0⟩
def SYS_RESET_CAUSE_STEP_WDOG : Fld := ⟨0x200, 0x0, 7, 7⟩
def SYS_RESET_CAUSE_SOFTWARE : Fld := ⟨0x200, 0x0, 6, 6⟩
def SYS_RESET_CAUSE_FAULT_L4 : Fld := ⟨0x200, 0x0, 5, 5⟩
def SYS_RESET_CAUSE_PIN : Fld := ⟨0x200, 0x0, 4, 4⟩
def SYS_RESET_CAUSE_MAIN_POR : Fld := ⟨0x200, 0x0, 3, 3⟩
def SYS_RESET_CAUSE_STBY_POR : Fld := ⟨0x200, 0x0, 2, 2⟩
def SYS_RESET_CTRL_KEY : Fld := ⟨0x204, 0x0, 31, 16⟩
def SYS_RESET_CTRL_DEVICE : Fld := ⟨0x204, 0x0, 0, 0⟩
def SYS_CHAIN_VALID : Fld := ⟨0x300, 0x0, 31, 31⟩
def SYS_CHAIN_FORCED : Fld := ⟨0x300, 0x0, 30, 30⟩
def SYS_CHAIN_LATE : Fld := ⟨0x300, 0x0, 29, 29⟩
def SYS_CHAIN_MISMATCH : Fld := ⟨0x300, 0x0, 28, 28⟩
def SYS_CHAIN_OVERFLOW : Fld := ⟨0x300, 0x0, 27, 27⟩
def SYS_CHAIN_RECEIVED : Fld := ⟨0x300, 0x0, 19, 16⟩
def SYS_CHAIN_ADDR : Fld := ⟨0x300, 0x0, 3, 0⟩
def SYS_CHAIN_MAC_BASE_MAC : Fld := ⟨0x308, 0x0, 47, 0⟩
def SYS_CLAIM_HELD : Fld := ⟨0x1000, 0x4, 31, 31⟩
def SYS_CLAIM_PARTY : Fld := ⟨0x1000, 0x4, 27, 24⟩
def SYS_CLAIM_INSTANCE : Fld := ⟨0x1000, 0x4, 23, 16⟩
def SYS_CLAIM_FEATURE : Fld := ⟨0x1000, 0x4, 7, 0⟩
def BOOT_DOCKET_W0_STEP : Fld := ⟨0x100, 0x10, 31, 24⟩
def BOOT_DOCKET_W0_RESULT : Fld := ⟨0x100, 0x10, 23, 20⟩
def BOOT_DOCKET_W0_VARIANT : Fld := ⟨0x100, 0x10, 19, 16⟩
def BOOT_DOCKET_W0_ATTEMPTS : Fld := ⟨0x100, 0x10, 15, 8⟩
def BOOT_DOCKET_W0_DETAIL : Fld := ⟨0x100, 0x10, 7, 0⟩
def BOOT_DOCKET_W1_START_US : Fld := ⟨0x104, 0x10, 31, 0⟩
def BOOT_DOCKET_W2_DURATION_US : Fld := ⟨0x108, 0x10, 31, 0⟩
def BOOT_DOCKET_W3_PREV_RESULT : Fld := ⟨0x10C, 0x10, 15, 12⟩
def BOOT_DOCKET_W3_PREV_VARIANT : Fld := ⟨0x10C, 0x10, 11, 8⟩
def PRT_INTERNAL_CLASS_PORT42_DEEP : Fld := ⟨0x200, 0x0, 2, 2⟩
def PRT_INTERNAL_CLASS_PORT41_DEEP : Fld := ⟨0x200, 0x0, 1, 1⟩
def PRT_INTERNAL_CLASS_PORT40_DEEP : Fld := ⟨0x200, 0x0, 0, 0⟩
def SCH_OPER_CFG_CLOCK : Fld := ⟨0xA0, 0x0, 29, 28⟩
def SCH_OPER_CFG_FINISH_SLOT : Fld := ⟨0xA0, 0x0, 27, 27⟩
def SCH_OPER_CFG_ADMIN_LEN : Fld := ⟨0xA0, 0x0, 10, 0⟩
def SCH_OPER_BASE_BASE : Fld := ⟨0xA8, 0x0, 63, 0⟩
def SCH_OPER_CYCLE_CYCLE : Fld := ⟨0xB0, 0x0, 31, 0⟩
def SCH_OPER_EXT_EXT : Fld := ⟨0xB4, 0x0, 31, 0⟩
def PMK_LATCH_GO : Fld := ⟨0x60, 0x0, 0, 0⟩
def PMK_LATCH_SEQ_SEQ : Fld := ⟨0x64, 0x0, 31, 0⟩
def PMK_HS_CFG_EN : Fld := ⟨0x100, 0x0, 31, 31⟩
def PMK_HS_DELTA_NS : Fld := ⟨0x108, 0x0, 63, 0⟩
def PMK_LATCHED_NS : Fld := ⟨0x300, 0x8, 63, 0⟩
def PMK_LATCHED_FRAC_FRAC : Fld := ⟨0x340, 0x0, 15, 0⟩
def EDG_LIN_INACTIVE_TYPE : Fld := ⟨0x200, 0x4, 31, 30⟩
def EDG_LIN_INACTIVE_FRAME_ID : Fld := ⟨0x200, 0x4, 29, 24⟩
def EDG_LIN_INACTIVE_SLOT : Fld := ⟨0x200, 0x4, 15, 0⟩
def EDG_LIN_ACTIVE_TYPE : Fld := ⟨0x300, 0x4, 31, 30⟩
def EDG_LIN_ACTIVE_FRAME_ID : Fld := ⟨0x300, 0x4, 29, 24⟩
def EDG_LIN_ACTIVE_SLOT : Fld := ⟨0x300, 0x4, 15, 0⟩
def EDG_LIN_PUB_W0_VALID : Fld := ⟨0x600, 0x10, 31, 31⟩
def EDG_LIN_PUB_W0_PUBLISH : Fld := ⟨0x600, 0x10, 30, 30⟩
def EDG_LIN_PUB_W0_ENHANCED : Fld := ⟨0x600, 0x10, 29, 29⟩
def EDG_LIN_PUB_W0_FRESH : Fld := ⟨0x600, 0x10, 28, 28⟩
def EDG_LIN_PUB_W0_LEN : Fld := ⟨0x600, 0x10, 3, 0⟩
def EDG_LIN_PUB_DATA_DATA : Fld := ⟨0x604, 0x10, 63, 0⟩
def NPT_NBT_A_NBRP : Fld := ⟨0x84, 0x0, 31, 23⟩
def NPT_NBT_A_NTSEG1 : Fld := ⟨0x84, 0x0, 22, 14⟩
def NPT_NBT_A_NTSEG2 : Fld := ⟨0x84, 0x0, 13, 7⟩
def NPT_NBT_A_NSJW : Fld := ⟨0x84, 0x0, 6, 0⟩
def NPT_DBT_A_DBRP : Fld := ⟨0x88, 0x0, 31, 27⟩
def NPT_DBT_A_DTSEG1 : Fld := ⟨0x88, 0x0, 26, 20⟩
def NPT_DBT_A_DTSEG2 : Fld := ⟨0x88, 0x0, 19, 13⟩
def NPT_DBT_A_DSJW : Fld := ⟨0x88, 0x0, 12, 6⟩
def NPT_MAX_AWAKE_MAX_AWAKE_S : Fld := ⟨0x130, 0x0, 31, 16⟩
def NPT_MAX_AWAKE_QUAR_MIN : Fld := ⟨0x130, 0x0, 15, 2⟩
def NPT_MAX_AWAKE_TARGET : Fld := ⟨0x130, 0x0, 1, 0⟩
def NPT_AWAKE_LEFT_S : Fld := ⟨0x134, 0x0, 31, 0⟩
def NPT_WAKE_LATCH_LATCH : Fld := ⟨0x140, 0x4, 31, 0⟩
def NPT_WAKE_FIRST_VALID : Fld := ⟨0x148, 0x0, 31, 31⟩
def NPT_WAKE_FIRST_SOURCE : Fld := ⟨0x148, 0x0, 23, 16⟩
def NPT_ALARM_NS : Fld := ⟨0x150, 0x0, 63, 0⟩
def NPT_PN_CTRL_WAKE : Fld := ⟨0x158, 0x0, 31, 31⟩
def NPT_PN_CTRL_SLEEP : Fld := ⟨0x158, 0x0, 30, 30⟩
def NPT_PN_CTRL_GROUPS : Fld := ⟨0x158, 0x0, 7, 0⟩
def NPT_SRC_CFG_EN : Fld := ⟨0x200, 0x4, 31, 31⟩
def NPT_SRC_CFG_USE : Fld := ⟨0x200, 0x4, 30, 30⟩
def NPT_SRC_CFG_LEVEL_HIGH : Fld := ⟨0x200, 0x4, 29, 29⟩
def NPT_SRC_CFG_GROUPS : Fld := ⟨0x200, 0x4, 23, 16⟩
def NPT_SRC_CFG_FILTER_US : Fld := ⟨0x200, 0x4, 15, 8⟩
def NPT_SRC_CFG_RATE_LIMIT : Fld := ⟨0x200, 0x4, 7, 0⟩
def NPT_SRC_STAT_QUAR : Fld := ⟨0x2C0, 0x4, 31, 31⟩
def NPT_SRC_STAT_ACTIVE : Fld := ⟨0x2C0, 0x4, 30, 30⟩
def NPT_SRC_STAT_WAKES_HOUR : Fld := ⟨0x2C0, 0x4, 23, 16⟩
def NPT_SRC_STAT_QUAR_LEFT : Fld := ⟨0x2C0, 0x4, 15, 0⟩
def NPT_PN_CAN_CAN : Fld := ⟨0x380, 0x10, 23, 0⟩
def NPT_PN_CAN_LIN : Fld := ⟨0x380, 0x10, 31, 24⟩
def NPT_PN_PORT_PORT : Fld := ⟨0x384, 0x10, 31, 0⟩
def NPT_PN_PORT_HI_PORT : Fld := ⟨0x388, 0x10, 7, 0⟩
def NPT_OFFENDER_HEAD_HEAD : Fld := ⟨0x5F0, 0x0, 2, 0⟩
def NPT_OFFENDER_W0_VALID : Fld := ⟨0x600, 0x10, 31, 31⟩
def NPT_OFFENDER_W0_SOURCE : Fld := ⟨0x600, 0x10, 23, 16⟩
def NPT_OFFENDER_W0_CAUSE : Fld := ⟨0x600, 0x10, 15, 8⟩
def NPT_OFFENDER_W0_NODE : Fld := ⟨0x600, 0x10, 4, 0⟩
def NPT_OFFENDER_W1_WAKES : Fld := ⟨0x604, 0x10, 31, 0⟩
def NPT_OFFENDER_TIME_TIME : Fld := ⟨0x608, 0x10, 63, 0⟩
def HBR_MSIX_ADDR_ADDR : Fld := ⟨0x2000, 0x10, 63, 0⟩
def HBR_MSIX_DATA_DATA : Fld := ⟨0x2008, 0x10, 31, 0⟩
def HBR_MSIX_CTRL_MASK : Fld := ⟨0x200C, 0x10, 0, 0⟩
def HBR_MSIX_PBA_PEND : Fld := ⟨0x3000, 0x4, 31, 0⟩
def DMA_SPREAD_MASK_MASK : Fld := ⟨0x80, 0x0, 63, 0⟩
def WAX_BUF_BYTES : Fld := ⟨0x2000, 0x4, 31, 0⟩
def KEY_SLOT_ATTR_ATTR : Fld := ⟨0x1000, 0x8, 31, 0⟩
def KEY_SLOT_USES_USES : Fld := ⟨0x1004, 0x8, 31, 0⟩
def LBX_MB_REQ0_WORD : Fld := ⟨0x800, 0x4, 31, 0⟩
def LBX_MB_RESP0_WORD : Fld := ⟨0x900, 0x4, 31, 0⟩
def LBX_MB_REQ1_WORD : Fld := ⟨0xA00, 0x4, 31, 0⟩
def LBX_MB_RESP1_WORD : Fld := ⟨0xB00, 0x4, 31, 0⟩
def LBX_MB_REQ2_WORD : Fld := ⟨0xC00, 0x4, 31, 0⟩
def LBX_MB_RESP2_WORD : Fld := ⟨0xD00, 0x4, 31, 0⟩
def LBX_MB_REQ3_WORD : Fld := ⟨0xE00, 0x4, 31, 0⟩
def LBX_MB_RESP3_WORD : Fld := ⟨0xF00, 0x4, 31, 0⟩

end Sys2Proof.Machine.R
end

