-- ==== Sys2Proof/Machine/RegMap.lean ====
section
/-! DEFINITION. The register maps of the pages, one row per register word,
written from the register tables of spec/01 to spec/20: which bits are RW, W1C, W1S, WO or RO,
which are staged (R50) and what the word holds at reset. -/

namespace Sys2Proof.Machine

def regs_sys0 : List RegDef := [
  ⟨0x100, 0x4, 4, false, 0x0, 0x0, 0x0, 0x0, 0xFFFFFFFF, 0x0, 0x0⟩,
  ⟨0x110, 0x4, 4, false, 0xFFFFFFFF, 0x0, 0x0, 0x0, 0x0, 0x0, 0x0⟩,
  ⟨0x120, 0x4, 1, false, 0x0, 0x0, 0x0, 0x1, 0xC0000000, 0x0, 0x0⟩,
  ⟨0x124, 0x4, 1, false, 0x0, 0x0, 0x0, 0x0, 0xFF00007F, 0x0, 0x0⟩,
  ⟨0x200, 0x4, 1, false, 0x0, 0xFC, 0x0, 0x0, 0x0, 0x0, 0x4⟩,
  ⟨0x204, 0x4, 1, false, 0x0, 0x0, 0x0, 0xFFFF0001, 0x0, 0x0, 0x0⟩,
  ⟨0x300, 0x4, 1, false, 0x0, 0x30000000, 0x0, 0x0, 0xC80F000F, 0x0, 0x0⟩,
  ⟨0x308, 0x4, 1, true, 0x0, 0x0, 0x0, 0x0, 0xFFFFFFFF, 0x0, 0x0⟩,
  ⟨0x30C, 0x4, 1, true, 0x0, 0x0, 0x0, 0x0, 0xFFFF, 0x0, 0x0⟩,
  ⟨0x1000, 0x4, 128, false, 0x0, 0x0, 0x0, 0x0, 0x8FFF00FF, 0x0, 0x0⟩,
  ⟨0x1400, 0x4, 1, false, 0x0, 0xC0000000, 0x0, 0x0, 0x3FF, 0x0, 0x0⟩,
  ⟨0x1404, 0x4, 1, false, 0x0, 0x0, 0x0, 0x0, 0xFFFFFFFF, 0x0, 0x0⟩,
  ⟨0x1408, 0x4, 1, false, 0x0, 0x0, 0x0, 0x0, 0xFFFFFFFF, 0x0, 0x0⟩]
def regs_sys : List RegDef := regs_sys0

def regs_trc0 : List RegDef := [
  ⟨0x40, 0x4, 1, false, 0x0, 0x0, 0x0, 0x0, 0xFFFFFFFF, 0x0, 0x33980⟩,
  ⟨0x44, 0x4, 1, false, 0x0, 0x0, 0x0, 0x0, 0xFFFF, 0x0, 0x0⟩,
  ⟨0x48, 0x4, 1, false, 0x0, 0x0, 0x0, 0x0, 0xFFFFFFFF, 0x0, 0x20⟩,
  ⟨0x4C, 0x4, 1, false, 0x0, 0x0, 0x0, 0x0, 0xFFFFFFFF, 0x0, 0x0⟩,
  ⟨0x100, 0x4, 4032, false, 0x0, 0x0, 0x0, 0x0, 0xFFFFFFFF, 0x0, 0x0⟩]
def regs_trc : List RegDef := regs_trc0

def regs_hdr0 : List RegDef := [
  ⟨0x0, 0x4, 1, false, 0x0, 0x0, 0x0, 0x0, 0xFFFFFFFF, 0x0, 0x0⟩,
  ⟨0x4, 0x4, 1, false, 0x0, 0x0, 0x0, 0x0, 0xFFFF00FF, 0x0, 0x1000000⟩,
  ⟨0x8, 0x4, 1, false, 0x3, 0x0, 0x0, 0x310, 0x0, 0x0, 0x2⟩,
  ⟨0xC, 0x4, 1, false, 0x0, 0x700, 0x0, 0x0, 0xF, 0x0, 0x0⟩,
  ⟨0x10, 0x4, 1, false, 0x0, 0x0, 0x0, 0x0, 0x8000FF0F, 0x0, 0x0⟩,
  ⟨0x14, 0x4, 1, false, 0x0, 0x0, 0x0, 0x0, 0xFFFF0F, 0x0, 0x0⟩,
  ⟨0x18, 0x4, 1, false, 0x0, 0xFFFFFFFF, 0x0, 0x0, 0x0, 0x0, 0x0⟩,
  ⟨0x1C, 0x4, 1, false, 0xFFFFFFFF, 0x0, 0x0, 0x0, 0x0, 0x0, 0x0⟩,
  ⟨0x20, 0x4, 1, false, 0x0, 0x0, 0x0, 0x0, 0xFFFFFFFF, 0x0, 0x0⟩,
  ⟨0x24, 0x4, 1, false, 0xF007F, 0x0, 0x0, 0x0, 0x0, 0x0, 0x0⟩,
  ⟨0x28, 0x4, 1, false, 0xFF, 0x0, 0x0, 0x80000000, 0x0, 0x0, 0x0⟩,
  ⟨0x2C, 0x4, 1, false, 0x0, 0x0, 0x0, 0x0, 0x800007FF, 0x0, 0x0⟩,
  ⟨0x40, 0x4, 1, false, 0x0, 0x0, 0x0, 0x1, 0x0, 0x0, 0x0⟩,
  ⟨0x44, 0x4, 1, false, 0x0, 0x0, 0x0, 0x0, 0xFFFFFFFF, 0x0, 0x0⟩,
  ⟨0x48, 0x4, 1, true, 0x0, 0x0, 0x0, 0x0, 0xFFFFFFFF, 0x0, 0x0⟩,
  ⟨0x4C, 0x4, 1, true, 0x0, 0x0, 0x0, 0x0, 0xFFFFFFFF, 0x0, 0x0⟩]
def regs_hdr : List RegDef := regs_hdr0

def regs_pop0 : List RegDef := [
  ⟨0x0, 0x4, 1, true, 0x0, 0x0, 0x0, 0x0, 0xFFFFFFFF, 0x0, 0x0⟩,
  ⟨0x4, 0x4, 1, true, 0x0, 0x0, 0x0, 0x0, 0xFFFFFFFF, 0x0, 0x0⟩,
  ⟨0x8, 0x4, 1, false, 0x0, 0x0, 0x0, 0xFFFFFFFF, 0x0, 0x0, 0x0⟩,
  ⟨0x10, 0x4, 1, false, 0x0, 0x80000000, 0x0, 0x0, 0xFFFF, 0x0, 0x0⟩,
  ⟨0x18, 0x4, 1, false, 0x0, 0x0, 0x0, 0x0, 0xFFFFFFFF, 0x0, 0x0⟩,
  ⟨0x100, 0x4, 1, false, 0x0, 0x0, 0x0, 0x0, 0xFFFFFFFF, 0x0, 0x0⟩]
def regs_pop : List RegDef := regs_pop0

def regs_boot0 : List RegDef := [
  ⟨0x80, 0x4, 1, false, 0x0, 0x0, 0x0, 0x0, 0xE000FFFF, 0x0, 0x0⟩,
  ⟨0x84, 0x4, 1, false, 0x0, 0x0, 0x0, 0x0, 0xFFFFFFFF, 0x0, 0x0⟩,
  ⟨0x88, 0x4, 1, false, 0x0, 0x0, 0x0, 0x0, 0xFFFFFFFF, 0x0, 0x0⟩,
  ⟨0x8C, 0x4, 1, false, 0x0, 0x0, 0x1, 0x0, 0x0, 0x0, 0x0⟩,
  ⟨0x100, 0x10, 16, false, 0x0, 0x0, 0x0, 0x0, 0xFFFFFFFF, 0x0, 0x0⟩,
  ⟨0x104, 0x10, 16, false, 0x0, 0x0, 0x0, 0x0, 0xFFFFFFFF, 0x0, 0x0⟩,
  ⟨0x108, 0x10, 16, false, 0x0, 0x0, 0x0, 0x0, 0xFFFFFFFF, 0x0, 0x0⟩,
  ⟨0x10C, 0x10, 16, false, 0x0, 0x0, 0x0, 0x0, 0xFF00, 0x0, 0x0⟩]
def regs_boot : List RegDef := regs_boot0

def regs_prt0 : List RegDef := [
  ⟨0x80, 0x4, 1, false, 0x1FFF, 0x0, 0x0, 0x0, 0x0, 0x0, 0x0⟩,
  ⟨0x84, 0x4, 1, false, 0x10031, 0x0, 0x0, 0x0, 0x0, 0x1, 0x0⟩,
  ⟨0x88, 0x4, 1, false, 0x3FFF, 0x0, 0x0, 0x0, 0x0, 0x3FFF, 0x5F2⟩,
  ⟨0x8C, 0x4, 1, false, 0x3FFF03FF, 0x0, 0x0, 0x0, 0x0, 0x0, 0xC80000⟩,
  ⟨0xA0, 0x4, 1, false, 0x0, 0x0, 0x0, 0x0, 0xFFF00000, 0x0, 0x0⟩,
  ⟨0xB0, 0x4, 1, false, 0xC03F1F0F, 0x0, 0x0, 0x0, 0x0, 0x0, 0x300802⟩,
  ⟨0xC0, 0x4, 1, false, 0xFFFCFFFF, 0x0, 0x0, 0x0, 0x0, 0x0, 0x0⟩,
  ⟨0xC4, 0x4, 1, false, 0xFFFFFFFF, 0x0, 0x0, 0x0, 0x0, 0x0, 0x0⟩,
  ⟨0xD0, 0x4, 1, false, 0xFFFFFFFF, 0x0, 0x0, 0x0, 0x0, 0x0, 0x0⟩,
  ⟨0xD4, 0x4, 1, false, 0xFFFFFFFF, 0x0, 0x0, 0x0, 0x0, 0x0, 0x0⟩,
  ⟨0xD8, 0x4, 1, false, 0xFFFFFFFF, 0x0, 0x0, 0x0, 0x0, 0x0, 0x0⟩,
  ⟨0xDC, 0x4, 1, false, 0xF0F, 0x0, 0x0, 0x0, 0x0, 0x0, 0x0⟩,
  ⟨0xE0, 0x4, 1, false, 0x100, 0x0, 0x0, 0x3, 0x0, 0x0, 0x0⟩,
  ⟨0x100, 0x4, 1, false, 0xC3FF00FF, 0x0, 0x0, 0x0, 0x0, 0xC3FF00FF, 0xA0000⟩,
  ⟨0x104, 0x4, 1, false, 0x0, 0x0, 0x0, 0x0, 0x80000007, 0x0, 0x0⟩,
  ⟨0x120, 0x4, 1, false, 0x80FF00FF, 0x0, 0x0, 0x0, 0x0, 0x0, 0x800FF⟩,
  ⟨0x124, 0x4, 1, false, 0xFFFFFF, 0x0, 0x0, 0x0, 0x0, 0x0, 0x800020⟩,
  ⟨0x128, 0x4, 1, false, 0x0, 0x0, 0x0, 0x0, 0x80000000, 0x0, 0x0⟩,
  ⟨0x200, 0x4, 1, false, 0x7, 0x0, 0x0, 0x0, 0x0, 0x4, 0x0⟩,
  ⟨0x800, 0x40, 4, false, 0xFF011F, 0x0, 0x0, 0x0, 0x0, 0x0, 0xA0004⟩,
  ⟨0x804, 0x40, 4, false, 0x3FFEFFFF, 0x0, 0x0, 0x80000000, 0x0, 0x0, 0x0⟩,
  ⟨0x808, 0x40, 4, false, 0xFFFF, 0x0, 0x0, 0x0, 0x0, 0x0, 0x0⟩,
  ⟨0x80C, 0x40, 4, false, 0x0, 0x40000000, 0x0, 0x0, 0x80000000, 0x0, 0x0⟩]
def regs_prt : List RegDef := regs_prt0

def regs_bur0 : List RegDef := [
  ⟨0x80, 0x4, 1, false, 0x80000000, 0x0, 0x0, 0x0, 0x3FF, 0x80000000, 0x80000000⟩,
  ⟨0x84, 0x4, 1, false, 0x8FFF0007, 0x0, 0x0, 0x0, 0x0, 0x8FFF0007, 0x8FFF0002⟩,
  ⟨0x88, 0x4, 1, false, 0x0, 0x0, 0x0, 0x0, 0xFFFF, 0x0, 0x0⟩,
  ⟨0xC0, 0x4, 1, false, 0x0, 0x0, 0x0, 0x0, 0x80FFFFFF, 0x0, 0x0⟩,
  ⟨0xC4, 0x4, 1, false, 0x0, 0x0, 0x0, 0x0, 0x8F00FFFF, 0x0, 0x0⟩,
  ⟨0xC8, 0x4, 1, false, 0x10F, 0x0, 0x0, 0x80000000, 0x0, 0x0, 0x0⟩,
  ⟨0xCC, 0x4, 1, false, 0x0, 0x40000000, 0x0, 0x0, 0xB00FFF0F, 0x0, 0x0⟩,
  ⟨0xD0, 0x4, 1, false, 0xFFFFFFFF, 0x0, 0x0, 0x0, 0x0, 0x0, 0x0⟩,
  ⟨0xD4, 0x4, 1, false, 0x0, 0x0, 0x0, 0x0, 0xFFFFFFFF, 0x0, 0x0⟩,
  ⟨0xD8, 0x4, 1, false, 0x0, 0x80000000, 0x0, 0x0, 0xFFFFF, 0x0, 0x0⟩,
  ⟨0xE0, 0x4, 1, true, 0x0, 0x0, 0x0, 0x0, 0xFFFFFFFF, 0x0, 0x0⟩,
  ⟨0xE4, 0x4, 1, true, 0x0, 0x0, 0x0, 0x0, 0xFFFFFFFF, 0x0, 0x0⟩,
  ⟨0xE8, 0x4, 1, true, 0x0, 0x0, 0x0, 0x0, 0xFFFFFFFF, 0x0, 0x0⟩,
  ⟨0xEC, 0x4, 1, true, 0x0, 0x0, 0x0, 0x0, 0xFFFFFFFF, 0x0, 0x0⟩,
  ⟨0xF0, 0x4, 1, true, 0x0, 0x0, 0x0, 0x0, 0xFFFFFFFF, 0x0, 0x0⟩,
  ⟨0xF4, 0x4, 1, true, 0x0, 0x0, 0x0, 0x0, 0xFFFFFFFF, 0x0, 0x0⟩,
  ⟨0xF8, 0x4, 1, true, 0x0, 0x0, 0x0, 0x0, 0xFFFFFFFF, 0x0, 0x0⟩,
  ⟨0xFC, 0x4, 1, true, 0x0, 0x0, 0x0, 0x0, 0xFFFFFFFF, 0x0, 0x0⟩,
  ⟨0x100, 0x4, 8, false, 0xFFFFFFFF, 0x0, 0x0, 0x0, 0x0, 0x0, 0x0⟩,
  ⟨0x120, 0x4, 1, false, 0x3, 0x0, 0x0, 0x80000000, 0x0, 0x0, 0x0⟩,
  ⟨0x124, 0x4, 1, false, 0x0, 0x40000000, 0x0, 0x0, 0x8000000F, 0x0, 0x0⟩,
  ⟨0x128, 0x4, 1, false, 0x0, 0x0, 0x0, 0x0, 0x7FFFF, 0x0, 0x0⟩,
  ⟨0x1000, 0x10, 43, false, 0xFFFC7FFF, 0x0, 0x0, 0x0, 0x0, 0xFFFC7FFF, 0x0⟩,
  ⟨0x1004, 0x10, 43, false, 0x7FFF, 0x0, 0x0, 0x0, 0x0, 0x7FFF, 0x0⟩,
  ⟨0x1008, 0x10, 43, false, 0x3F01FF, 0x0, 0x0, 0x0, 0x0, 0x3F01FF, 0x100⟩,
  ⟨0x100C, 0x10, 43, false, 0x7FFFFFF, 0x0, 0x0, 0x0, 0x0, 0x7FFFFFF, 0xFAC688⟩,
  ⟨0x1800, 0x20, 16, false, 0x3FFFFFFF, 0x0, 0x0, 0x0, 0x0, 0x3FFFFFFF, 0x3FFFFFFF⟩,
  ⟨0x1804, 0x20, 16, false, 0xFFFFFFFF, 0x0, 0x0, 0x0, 0x0, 0xFFFFFFFF, 0xFFFFFFFF⟩,
  ⟨0x1808, 0x20, 16, false, 0xFFFFFFFF, 0x0, 0x0, 0x0, 0x0, 0xFFFFFFFF, 0xFFFFFFFF⟩,
  ⟨0x180C, 0x20, 16, false, 0xFFFFFFFF, 0x0, 0x0, 0x0, 0x0, 0xFFFFFFFF, 0xFFFFFFFF⟩]
def regs_bur1 : List RegDef := [
  ⟨0x1810, 0x20, 16, false, 0xFFFFFFFF, 0x0, 0x0, 0x0, 0x0, 0xFFFFFFFF, 0xFFFFFFFF⟩,
  ⟨0x1814, 0x20, 16, false, 0xFFFFFFFF, 0x0, 0x0, 0x0, 0x0, 0xFFFFFFFF, 0xFFFFFFFF⟩,
  ⟨0x1818, 0x20, 16, false, 0xFFFFFFFF, 0x0, 0x0, 0x0, 0x0, 0xFFFFFFFF, 0xFFFFFFFF⟩,
  ⟨0x2000, 0x40, 64, false, 0x1F0000, 0x0, 0x0, 0x0, 0xFF, 0x1F0000, 0x0⟩,
  ⟨0x2004, 0x40, 64, false, 0xFFFFFFFF, 0x0, 0x0, 0x0, 0x0, 0xFFFFFFFF, 0x0⟩,
  ⟨0x2008, 0x40, 64, false, 0x3FFFFFFF, 0x0, 0x0, 0x0, 0x0, 0x3FFFFFFF, 0x3FFFFFFF⟩,
  ⟨0x200C, 0x40, 64, false, 0xFFFFFFFF, 0x0, 0x0, 0x0, 0x0, 0xFFFFFFFF, 0xFFFFFFFF⟩,
  ⟨0x2010, 0x40, 64, false, 0xFFFFFFFF, 0x0, 0x0, 0x0, 0x0, 0xFFFFFFFF, 0xFFFFFFFF⟩,
  ⟨0x2014, 0x40, 64, false, 0xFFFFFFFF, 0x0, 0x0, 0x0, 0x0, 0xFFFFFFFF, 0xFFFFFFFF⟩,
  ⟨0x2018, 0x40, 64, false, 0xFFFFFFFF, 0x0, 0x0, 0x0, 0x0, 0xFFFFFFFF, 0xFFFFFFFF⟩,
  ⟨0x201C, 0x40, 64, false, 0xFFFFFFFF, 0x0, 0x0, 0x0, 0x0, 0xFFFFFFFF, 0xFFFFFFFF⟩,
  ⟨0x2020, 0x40, 64, false, 0xFFFFFFFF, 0x0, 0x0, 0x0, 0x0, 0xFFFFFFFF, 0xFFFFFFFF⟩]
def regs_bur : List RegDef := regs_bur0 ++ regs_bur1

def regs_fwl0 : List RegDef := [
  ⟨0x80, 0x4, 1, false, 0x111, 0x0, 0x0, 0x0, 0x0, 0x111, 0x0⟩,
  ⟨0x84, 0x4, 1, false, 0x801F0110, 0x0, 0x0, 0x0, 0x0, 0x0, 0x160010⟩,
  ⟨0x88, 0x4, 1, false, 0x0, 0x0, 0x0, 0x0, 0xFFFF0001, 0x0, 0x0⟩,
  ⟨0x8C, 0x4, 1, false, 0x0, 0x0, 0x0, 0x0, 0x7FFFFF, 0x0, 0x0⟩,
  ⟨0x90, 0x4, 1, false, 0x0, 0x0, 0x0, 0x0, 0xFFFFFFFF, 0x0, 0x0⟩,
  ⟨0x94, 0x4, 1, false, 0x0, 0x0, 0x0, 0x0, 0xFFFFFFFF, 0x0, 0x0⟩,
  ⟨0x98, 0x4, 1, false, 0x0, 0x0, 0x0, 0x0, 0xFFFFFFFF, 0x0, 0x0⟩,
  ⟨0xA0, 0x4, 1, false, 0xFFFFFFFF, 0x0, 0x0, 0x0, 0x0, 0x0, 0xE10000A⟩,
  ⟨0xA4, 0x4, 1, false, 0xFFFFFFFF, 0x0, 0x0, 0x0, 0x0, 0x0, 0x5001E⟩,
  ⟨0xA8, 0x4, 1, false, 0xFFFFFFFF, 0x0, 0x0, 0x0, 0x0, 0x0, 0xB4001E⟩,
  ⟨0xAC, 0x4, 1, false, 0xFFFF, 0x0, 0x0, 0x0, 0x0, 0x0, 0xA⟩,
  ⟨0xB0, 0x4, 3, false, 0xFFFF, 0x0, 0x0, 0x60000000, 0x80000000, 0x0, 0x0⟩,
  ⟨0x100, 0x4, 32, false, 0x7FFFFF, 0x0, 0x0, 0x0, 0x0, 0x0, 0x0⟩,
  ⟨0x180, 0x4, 32, false, 0x0, 0x0, 0x0, 0x0, 0x7FFFFF, 0x0, 0x0⟩]
def regs_fwl : List RegDef := regs_fwl0

def regs_shl0 : List RegDef := [
  ⟨0x80, 0x4, 1, false, 0x0, 0x0, 0x0, 0x0, 0x1FFFF, 0x0, 0x18000⟩,
  ⟨0x84, 0x4, 1, false, 0x0, 0x0, 0x0, 0x0, 0x1FFFF, 0x0, 0x14A80⟩,
  ⟨0x88, 0x4, 1, false, 0x0, 0x0, 0x0, 0x0, 0x1FFFF, 0x0, 0x0⟩,
  ⟨0x8C, 0x4, 1, false, 0x0, 0x0, 0x0, 0x0, 0x1FFFF, 0x0, 0x0⟩,
  ⟨0x90, 0x4, 1, false, 0x1FFFF, 0x0, 0x0, 0x0, 0x0, 0x1FFFF, 0x2000⟩,
  ⟨0x94, 0x4, 1, false, 0x0, 0x0, 0x0, 0x0, 0x1FFFF, 0x0, 0x1580⟩,
  ⟨0x98, 0x4, 1, false, 0x0, 0x0, 0x0, 0x80000000, 0x1FFFF, 0x0, 0x14A80⟩,
  ⟨0xA0, 0x4, 1, false, 0xFF00007F, 0x0, 0x0, 0x0, 0x0, 0x7F000000, 0x64000010⟩,
  ⟨0xA4, 0x4, 1, false, 0x0, 0x0, 0x0, 0x0, 0xC07FFFFF, 0x0, 0x0⟩,
  ⟨0xA8, 0x4, 1, false, 0x0, 0x0, 0x0, 0x0, 0xFFFF, 0x0, 0x0⟩,
  ⟨0x100, 0x10, 5, false, 0x0, 0x0, 0x0, 0x0, 0xFFFFFFFF, 0x0, 0x0⟩,
  ⟨0x104, 0x10, 5, false, 0x0, 0x0, 0x0, 0x0, 0xFFFFFFFF, 0x0, 0x0⟩,
  ⟨0x108, 0x10, 5, false, 0x0, 0x0, 0x0, 0x0, 0xFFFFFFFF, 0x0, 0x0⟩,
  ⟨0x10C, 0x10, 5, false, 0x0, 0x0, 0x0, 0x0, 0xFFFFFFFF, 0x0, 0x0⟩,
  ⟨0x180, 0x4, 1, false, 0x0, 0xC0000000, 0x0, 0x0, 0x27FFFFFF, 0x0, 0x0⟩,
  ⟨0x184, 0x4, 1, false, 0x0, 0x0, 0x0, 0x0, 0xFFFFFFFF, 0x0, 0x0⟩,
  ⟨0x188, 0x4, 1, false, 0x0, 0x0, 0x0, 0x0, 0xFFFFFFFF, 0x0, 0x0⟩,
  ⟨0x190, 0x4, 1, true, 0x0, 0x0, 0x0, 0x0, 0xFFFFFFFF, 0x0, 0x0⟩,
  ⟨0x194, 0x4, 1, true, 0x0, 0x0, 0x0, 0x0, 0xFFFFFFFF, 0x0, 0x0⟩,
  ⟨0x200, 0x10, 16, false, 0xBF73F0FF, 0x0, 0x0, 0x0, 0x0, 0xBF73F0FF, 0x0⟩,
  ⟨0x204, 0x10, 16, false, 0xF, 0x0, 0x0, 0x0, 0x0, 0xF, 0x0⟩,
  ⟨0x1000, 0x20, 43, false, 0x1FFFF, 0x0, 0x0, 0x0, 0x0, 0x1FFFF, 0x8000⟩,
  ⟨0x1004, 0x20, 43, false, 0x1FFFF, 0x0, 0x0, 0x0, 0x0, 0x1FFFF, 0x8000⟩,
  ⟨0x1008, 0x20, 43, false, 0x8F8F, 0x0, 0x0, 0x0, 0x0, 0x8F8F, 0x0⟩,
  ⟨0x100C, 0x20, 43, false, 0x0, 0x0, 0x0, 0x0, 0x1FFFF, 0x0, 0x0⟩,
  ⟨0x1010, 0x20, 43, false, 0x0, 0x0, 0x0, 0x0, 0x1FFFF, 0x0, 0x0⟩,
  ⟨0x2000, 0x20, 344, false, 0x1FFF, 0x0, 0x0, 0x0, 0x0, 0x1FFF, 0x10⟩,
  ⟨0x2004, 0x20, 344, false, 0xE001FFFF, 0x0, 0x0, 0x0, 0x0, 0xE001FFFF, 0x40004000⟩,
  ⟨0x2008, 0x20, 344, false, 0xFFFF, 0x0, 0x0, 0x0, 0x0, 0xFFFF, 0xF424⟩,
  ⟨0x200C, 0x20, 344, false, 0x8001FFFF, 0x0, 0x0, 0x0, 0x0, 0x8001FFFF, 0x1000⟩]
def regs_shl1 : List RegDef := [
  ⟨0x2010, 0x20, 344, false, 0x8001FFFF, 0x0, 0x0, 0x0, 0x0, 0x8001FFFF, 0x800⟩,
  ⟨0x2014, 0x20, 344, false, 0x7FFFFF, 0x0, 0x0, 0x0, 0x0, 0x7FFFFF, 0x0⟩,
  ⟨0x2018, 0x20, 344, false, 0x0, 0x0, 0x0, 0x0, 0x8001FFFF, 0x0, 0x0⟩,
  ⟨0x201C, 0x20, 344, false, 0x0, 0x0, 0x0, 0x0, 0x7FFFFF, 0x0, 0x0⟩]
def regs_shl : List RegDef := regs_shl0 ++ regs_shl1

def regs_sch0 : List RegDef := [
  ⟨0x80, 0x4, 1, false, 0x380007FF, 0x0, 0x0, 0x0, 0x0, 0x0, 0x0⟩,
  ⟨0x88, 0x4, 1, true, 0xFFFFFFFF, 0x0, 0x0, 0x0, 0x0, 0x0, 0x0⟩,
  ⟨0x8C, 0x4, 1, true, 0xFFFFFFFF, 0x0, 0x0, 0x0, 0x0, 0x0, 0x0⟩,
  ⟨0x90, 0x4, 1, false, 0xFFFFFFFF, 0x0, 0x0, 0x0, 0x0, 0x0, 0xF4240⟩,
  ⟨0x94, 0x4, 1, false, 0xFFFFFFFF, 0x0, 0x0, 0x0, 0x0, 0x0, 0x0⟩,
  ⟨0xA0, 0x4, 1, false, 0x0, 0x0, 0x0, 0x0, 0x380007FF, 0x0, 0x0⟩,
  ⟨0xA8, 0x4, 1, true, 0x0, 0x0, 0x0, 0x0, 0xFFFFFFFF, 0x0, 0x0⟩,
  ⟨0xAC, 0x4, 1, true, 0x0, 0x0, 0x0, 0x0, 0xFFFFFFFF, 0x0, 0x0⟩,
  ⟨0xB0, 0x4, 1, false, 0x0, 0x0, 0x0, 0x0, 0xFFFFFFFF, 0x0, 0xF4240⟩,
  ⟨0xB4, 0x4, 1, false, 0x0, 0x0, 0x0, 0x0, 0xFFFFFFFF, 0x0, 0x0⟩,
  ⟨0xC0, 0x4, 1, false, 0x0, 0x0, 0x0, 0xC0000000, 0x0, 0x0, 0x0⟩,
  ⟨0xC4, 0x4, 1, false, 0x0, 0x0, 0x0, 0x0, 0xE3FFFF80, 0x0, 0xFF00⟩,
  ⟨0xC8, 0x4, 1, true, 0x0, 0x0, 0x0, 0x0, 0xFFFFFFFF, 0x0, 0x0⟩,
  ⟨0xCC, 0x4, 1, true, 0x0, 0x0, 0x0, 0x0, 0xFFFFFFFF, 0x0, 0x0⟩,
  ⟨0xD0, 0x4, 1, true, 0x0, 0x0, 0x0, 0x0, 0xFFFFFFFF, 0x0, 0x0⟩,
  ⟨0xD4, 0x4, 1, true, 0x0, 0x0, 0x0, 0x0, 0xFFFFFFFF, 0x0, 0x0⟩,
  ⟨0xD8, 0x4, 1, false, 0x800003FF, 0x0, 0x0, 0x0, 0x0, 0x0, 0x0⟩,
  ⟨0xE0, 0x4, 1, true, 0xFFFFFFFF, 0x0, 0x0, 0x0, 0x0, 0x0, 0x0⟩,
  ⟨0xE4, 0x4, 1, true, 0xFFFFFFFF, 0x0, 0x0, 0x0, 0x0, 0x0, 0x0⟩,
  ⟨0xE8, 0x4, 1, false, 0x8000FFFF, 0x0, 0x0, 0x0, 0x0, 0x0, 0xA⟩,
  ⟨0xEC, 0x4, 1, false, 0x0, 0x0, 0x0, 0x1, 0x0, 0x0, 0x0⟩,
  ⟨0x100, 0x20, 8, false, 0xC1FFFFFF, 0x0, 0x0, 0x0, 0x0, 0xC1FFFFFF, 0x0⟩,
  ⟨0x104, 0x20, 8, false, 0x7FFFFFFF, 0x0, 0x0, 0x0, 0x0, 0x7FFFFFFF, 0x7FFFFFFF⟩,
  ⟨0x108, 0x20, 8, false, 0x7FFFFFFF, 0x0, 0x0, 0x0, 0x0, 0x7FFFFFFF, 0x7FFFFFFF⟩,
  ⟨0x10C, 0x20, 8, false, 0x0, 0x0, 0x0, 0x0, 0xFFFFFFFF, 0x0, 0x0⟩,
  ⟨0x110, 0x20, 8, false, 0x1F1F0F, 0x0, 0x0, 0x0, 0x0, 0x0, 0xA0000⟩,
  ⟨0x114, 0x20, 8, false, 0x0, 0x0, 0x0, 0x0, 0xE0000000, 0x0, 0xC0000000⟩,
  ⟨0x118, 0x20, 8, false, 0x0, 0x0, 0x0, 0x0, 0x1FFFF, 0x0, 0x0⟩,
  ⟨0x11C, 0x20, 8, false, 0x0, 0x0, 0x0, 0x0, 0xFFFFFFFF, 0x0, 0x0⟩]
def regs_sch : List RegDef := regs_sch0

def regs_frk0 : List RegDef := [
  ⟨0x80, 0x4, 1, false, 0xF0000FFF, 0x0, 0x0, 0x0, 0x0, 0x0, 0x0⟩,
  ⟨0x84, 0x4, 1, false, 0x1, 0x0, 0x0, 0x80000000, 0x0, 0x0, 0x0⟩,
  ⟨0x88, 0x4, 1, false, 0x0, 0x40000000, 0x0, 0x0, 0x8000000F, 0x0, 0x0⟩,
  ⟨0xA0, 0x4, 8, false, 0xFFFFFFFF, 0x0, 0x0, 0x0, 0x0, 0x0, 0x0⟩,
  ⟨0xC0, 0x4, 1, false, 0xF0000FFF, 0x0, 0x0, 0x0, 0x0, 0x0, 0x0⟩,
  ⟨0xC8, 0x8, 6, true, 0x0, 0x0, 0x0, 0x0, 0xFFFFFFFF, 0x0, 0x0⟩,
  ⟨0xCC, 0x8, 6, true, 0x0, 0x0, 0x0, 0x0, 0xFFFFFFFF, 0x0, 0x0⟩,
  ⟨0x200, 0x4, 64, false, 0xFFFFFFFF, 0x0, 0x0, 0x0, 0x0, 0x0, 0x0⟩]
def regs_frk : List RegDef := regs_frk0

def regs_pmk0 : List RegDef := [
  ⟨0x60, 0x4, 1, false, 0x0, 0x0, 0x0, 0x1, 0x0, 0x0, 0x0⟩,
  ⟨0x64, 0x4, 1, false, 0x0, 0x0, 0x0, 0x0, 0xFFFFFFFF, 0x0, 0x0⟩,
  ⟨0x80, 0x40, 2, false, 0x807FFFFF, 0x0, 0x0, 0x0, 0x0, 0x807FFFFF, 0x1483⟩,
  ⟨0x84, 0x40, 2, false, 0xFFFFFFFF, 0x0, 0x0, 0x0, 0x0, 0xFFFFFFFF, 0x3E80064⟩,
  ⟨0x88, 0x40, 2, false, 0xFFFFFF, 0x0, 0x0, 0x0, 0x0, 0xFFFFFF, 0x30D40⟩,
  ⟨0x8C, 0x40, 2, false, 0x0, 0x0, 0x0, 0x0, 0xF800000F, 0x0, 0x0⟩,
  ⟨0x90, 0x40, 2, true, 0x0, 0x0, 0x0, 0x0, 0xFFFFFFFF, 0x0, 0x0⟩,
  ⟨0x94, 0x40, 2, true, 0x0, 0x0, 0x0, 0x0, 0xFFFFFFFF, 0x0, 0x0⟩,
  ⟨0x98, 0x40, 2, true, 0xFFFFFFFF, 0x0, 0x0, 0x0, 0x0, 0x0, 0x0⟩,
  ⟨0x9C, 0x40, 2, true, 0xFFFFFFFF, 0x0, 0x0, 0x0, 0x0, 0x0, 0x0⟩,
  ⟨0xA0, 0x40, 2, false, 0x0, 0x0, 0x0, 0x0, 0xFFFFFFFF, 0x0, 0x0⟩,
  ⟨0xA4, 0x40, 2, false, 0x0, 0x0, 0x0, 0x0, 0xFFFFFFFF, 0x0, 0x0⟩,
  ⟨0xA8, 0x40, 2, false, 0x0, 0x0, 0x0, 0xC0000000, 0x0, 0x0, 0x0⟩,
  ⟨0xAC, 0x40, 2, false, 0xFFFFFFFF, 0x0, 0x0, 0x0, 0x0, 0x0, 0x0⟩,
  ⟨0x100, 0x4, 1, false, 0x80000000, 0x0, 0x0, 0x0, 0x0, 0x80000000, 0x0⟩,
  ⟨0x108, 0x4, 1, true, 0x0, 0x0, 0x0, 0x0, 0xFFFFFFFF, 0x0, 0x0⟩,
  ⟨0x10C, 0x4, 1, true, 0x0, 0x0, 0x0, 0x0, 0xFFFFFFFF, 0x0, 0x0⟩,
  ⟨0x120, 0x4, 1, false, 0x80000FFF, 0x0, 0x0, 0x0, 0x0, 0x80000FFF, 0xDD0⟩,
  ⟨0x200, 0x20, 6, false, 0xFFFFFFFF, 0x0, 0x0, 0x0, 0x0, 0x0, 0x40186A0⟩,
  ⟨0x204, 0x20, 6, false, 0x0, 0x0, 0x0, 0x80000000, 0x0, 0x0, 0x0⟩,
  ⟨0x208, 0x20, 6, false, 0x0, 0x0, 0x0, 0x0, 0x80000000, 0x0, 0x0⟩,
  ⟨0x20C, 0x20, 6, false, 0x0, 0x0, 0x0, 0x0, 0xFFFFFFFF, 0x0, 0x0⟩,
  ⟨0x210, 0x20, 6, true, 0x0, 0x0, 0x0, 0x0, 0xFFFFFFFF, 0x0, 0x0⟩,
  ⟨0x214, 0x20, 6, true, 0x0, 0x0, 0x0, 0x0, 0xFFFFFFFF, 0x0, 0x0⟩,
  ⟨0x218, 0x20, 6, false, 0x0, 0x0, 0x0, 0x0, 0xFFFFFFFF, 0x0, 0x0⟩,
  ⟨0x300, 0x8, 8, true, 0x0, 0x0, 0x0, 0x0, 0xFFFFFFFF, 0x0, 0x0⟩,
  ⟨0x304, 0x8, 8, true, 0x0, 0x0, 0x0, 0x0, 0xFFFFFFFF, 0x0, 0x0⟩,
  ⟨0x340, 0x4, 1, false, 0x0, 0x0, 0x0, 0x0, 0xFFFF, 0x0, 0x0⟩,
  ⟨0x1000, 0x20, 40, false, 0xFF000000, 0x0, 0x0, 0x0, 0x0, 0xFF000000, 0x7000000⟩,
  ⟨0x1004, 0x20, 40, false, 0xFFFFFFFF, 0x0, 0x0, 0x0, 0x0, 0x0, 0x0⟩]
def regs_pmk1 : List RegDef := [
  ⟨0x1008, 0x20, 40, false, 0xFFFFFFFF, 0x0, 0x0, 0x0, 0x0, 0xFFFFFFFF, 0x3200000⟩,
  ⟨0x100C, 0x20, 40, false, 0x0, 0x0, 0x0, 0x0, 0x8000FFFF, 0x0, 0x0⟩,
  ⟨0x1010, 0x20, 40, false, 0x0, 0x0, 0x0, 0x0, 0xFFFFFFFF, 0x0, 0x0⟩]
def regs_pmk : List RegDef := regs_pmk0 ++ regs_pmk1

def regs_evo0 : List RegDef := [
  ⟨0x80, 0x4, 1, false, 0xFC000000, 0x0, 0x0, 0x0, 0x0, 0x0, 0x0⟩,
  ⟨0x88, 0x4, 1, true, 0xFFFFFFFF, 0x0, 0x0, 0x0, 0x0, 0x0, 0x0⟩,
  ⟨0x8C, 0x4, 1, true, 0xFFFFFFFF, 0x0, 0x0, 0x0, 0x0, 0x0, 0x0⟩,
  ⟨0x90, 0x4, 1, false, 0xFFFFFFFF, 0x0, 0x0, 0x0, 0x0, 0x0, 0x0⟩,
  ⟨0x94, 0x4, 1, false, 0xFFFFFFFF, 0x0, 0x0, 0x0, 0x0, 0x0, 0x64⟩,
  ⟨0x98, 0x4, 1, false, 0xFFFFFFFF, 0x0, 0x0, 0x0, 0x0, 0x0, 0x0⟩,
  ⟨0x9C, 0x4, 1, false, 0x0, 0x0, 0x0, 0x0, 0xC0000000, 0x0, 0x0⟩,
  ⟨0xA0, 0x4, 1, true, 0x0, 0x0, 0x0, 0x0, 0xFFFFFFFF, 0x0, 0x0⟩,
  ⟨0xA4, 0x4, 1, true, 0x0, 0x0, 0x0, 0x0, 0xFFFFFFFF, 0x0, 0x0⟩,
  ⟨0xA8, 0x4, 1, false, 0x80000000, 0x0, 0x0, 0x0, 0x40000000, 0x0, 0x0⟩]
def regs_evo : List RegDef := regs_evo0

def regs_cap0 : List RegDef := [
  ⟨0x80, 0x4, 1, false, 0xC0FFFFFF, 0x0, 0x0, 0x0, 0x0, 0x0, 0x40000000⟩]
def regs_cap : List RegDef := regs_cap0

def regs_can0 : List RegDef := [
  ⟨0x80, 0x4, 1, false, 0xFEF0E000, 0x0, 0x0, 0x0, 0x0, 0x0, 0x4004000⟩,
  ⟨0x84, 0x4, 1, false, 0xFFFFFFFF, 0x0, 0x0, 0x0, 0x0, 0x0, 0x20FC810⟩,
  ⟨0x88, 0x4, 1, false, 0xFFFFFFC0, 0x0, 0x0, 0x0, 0x0, 0x0, 0x11F10200⟩,
  ⟨0x8C, 0x4, 1, false, 0xFFFFFFC0, 0x0, 0x0, 0x0, 0x0, 0x0, 0x8C060C0⟩,
  ⟨0x90, 0x4, 1, false, 0x80FF0000, 0x0, 0x0, 0x0, 0xFF, 0x0, 0x80100000⟩,
  ⟨0x94, 0x4, 1, false, 0x30FF00FF, 0x0, 0x0, 0x0, 0xC0000000, 0x0, 0x8014001B⟩,
  ⟨0x98, 0x4, 1, false, 0x0, 0x0, 0x0, 0x0, 0xFC00FFFF, 0x0, 0x0⟩,
  ⟨0x9C, 0x4, 1, false, 0x0, 0x0, 0x0, 0xC0000000, 0x0, 0x0, 0x0⟩,
  ⟨0xA0, 0x4, 1, false, 0xFFFFFFFF, 0x0, 0x0, 0x0, 0x0, 0x0, 0xC350⟩,
  ⟨0x800, 0x4, 1, false, 0xC07F0000, 0x0, 0x0, 0x0, 0x0, 0x0, 0x7A0000⟩,
  ⟨0x808, 0x4, 1, true, 0xFFFFFFFF, 0x0, 0x0, 0x0, 0x0, 0x0, 0x0⟩,
  ⟨0x80C, 0x4, 1, true, 0xFFFF, 0x0, 0x0, 0x0, 0x0, 0x0, 0x0⟩,
  ⟨0x810, 0x4, 1, false, 0x7FF, 0x0, 0x0, 0x0, 0x0, 0x0, 0x0⟩,
  ⟨0x820, 0x4, 4, false, 0xFFFFFFFF, 0x0, 0x0, 0x0, 0x0, 0x0, 0x0⟩,
  ⟨0x830, 0x4, 1, false, 0x1, 0x0, 0x0, 0x80000000, 0x0, 0x0, 0x0⟩,
  ⟨0x834, 0x4, 1, false, 0x0, 0x40000000, 0x0, 0x0, 0x8000000F, 0x0, 0x0⟩]
def regs_can : List RegDef := regs_can0

def regs_lin0 : List RegDef := [
  ⟨0x80, 0x4, 1, false, 0x8F1F7FFF, 0x0, 0x0, 0x0, 0x0, 0x0, 0x800D4B00⟩,
  ⟨0x84, 0x4, 1, false, 0xFF00, 0x0, 0x0, 0x80000000, 0x600000FF, 0x0, 0x0⟩,
  ⟨0x88, 0x4, 1, true, 0xFFFFFFFF, 0x0, 0x0, 0x0, 0x0, 0x0, 0x0⟩,
  ⟨0x8C, 0x4, 1, true, 0xFFFFFFFF, 0x0, 0x0, 0x0, 0x0, 0x0, 0x0⟩,
  ⟨0x200, 0x4, 64, false, 0xFF00FFFF, 0x0, 0x0, 0x0, 0x0, 0x0, 0x0⟩,
  ⟨0x300, 0x4, 64, false, 0x0, 0x0, 0x0, 0x0, 0xFF00FFFF, 0x0, 0x0⟩,
  ⟨0x600, 0x10, 64, false, 0x6000000F, 0x0, 0x0, 0x0, 0x90000000, 0x0, 0x0⟩,
  ⟨0x604, 0x10, 64, true, 0x0, 0x0, 0x0, 0x0, 0xFFFFFFFF, 0x0, 0x0⟩,
  ⟨0x608, 0x10, 64, true, 0x0, 0x0, 0x0, 0x0, 0xFFFFFFFF, 0x0, 0x0⟩]
def regs_lin : List RegDef := regs_lin0

def regs_npt0 : List RegDef := [
  ⟨0x80, 0x4, 1, false, 0x9FFFFFFF, 0x0, 0x0, 0x0, 0x0, 0x0, 0x0⟩,
  ⟨0x84, 0x4, 1, false, 0xFFFFFFFF, 0x0, 0x0, 0x0, 0x0, 0x0, 0x8FC810⟩,
  ⟨0x88, 0x4, 1, false, 0xFFFFFFC0, 0x0, 0x0, 0x0, 0x0, 0x0, 0x8F08100⟩,
  ⟨0x8C, 0x4, 1, false, 0xFFFFFFFF, 0x0, 0x0, 0x0, 0x0, 0x0, 0x8FC810⟩,
  ⟨0x90, 0x4, 1, false, 0xFF00FFFF, 0x0, 0x0, 0x0, 0x0, 0x0, 0x14001B1B⟩,
  ⟨0x94, 0x4, 1, false, 0xFFFFFFFF, 0x0, 0x0, 0x0, 0x0, 0x0, 0x14140040⟩,
  ⟨0x98, 0x4, 1, false, 0xFFFF, 0x0, 0x0, 0x0, 0x0, 0x0, 0x1000⟩,
  ⟨0xA0, 0x4, 4, false, 0x800000FF, 0x0, 0x0, 0x0, 0x0, 0x0, 0x0⟩,
  ⟨0xB0, 0x4, 4, false, 0x0, 0x0, 0x0, 0x0, 0xFFFFFFFF, 0x0, 0x0⟩,
  ⟨0xC0, 0x4, 1, false, 0x0, 0x0, 0x0, 0x0, 0x8F3F00FF, 0x0, 0x0⟩,
  ⟨0x100, 0x4, 1, false, 0x0, 0x0, 0x0, 0xE0000003, 0x0, 0x0, 0x0⟩,
  ⟨0x104, 0x4, 1, false, 0xFFFFFFFF, 0x0, 0x0, 0x0, 0x0, 0x0, 0x7D03264⟩,
  ⟨0x108, 0x4, 1, false, 0x0, 0x0, 0x0, 0x0, 0xE300FF00, 0x0, 0xFF00⟩,
  ⟨0x10C, 0x4, 1, false, 0xFFFFFFFF, 0x0, 0x0, 0x0, 0x0, 0x0, 0x0⟩,
  ⟨0x110, 0x4, 1, false, 0x0, 0x0, 0xFFFFFFFF, 0x0, 0x0, 0x0, 0x0⟩,
  ⟨0x114, 0x4, 1, false, 0x7FF07FF, 0x0, 0x0, 0x0, 0x0, 0x0, 0x7E00700⟩,
  ⟨0x118, 0x4, 1, false, 0x7FF, 0x0, 0x0, 0x0, 0x0, 0x0, 0x720⟩,
  ⟨0x11C, 0x4, 1, false, 0xFFFFFF, 0x0, 0x0, 0x0, 0x0, 0x0, 0x0⟩,
  ⟨0x120, 0x4, 1, true, 0xFFFFFFFF, 0x0, 0x0, 0x0, 0x0, 0x0, 0x0⟩,
  ⟨0x124, 0x4, 1, true, 0xFF, 0x0, 0x0, 0x0, 0x0, 0x0, 0x0⟩,
  ⟨0x130, 0x4, 1, false, 0xFFFFFFFF, 0x0, 0x0, 0x0, 0x0, 0x0, 0x70803C2⟩,
  ⟨0x134, 0x4, 1, false, 0x0, 0x0, 0x0, 0x0, 0xFFFFFFFF, 0x0, 0x0⟩,
  ⟨0x140, 0x4, 2, false, 0x0, 0xFFFFFFFF, 0x0, 0x0, 0x0, 0x0, 0x0⟩,
  ⟨0x148, 0x4, 1, false, 0x0, 0x0, 0x0, 0x0, 0x80FF0000, 0x0, 0x0⟩,
  ⟨0x150, 0x4, 1, true, 0xFFFFFFFF, 0x0, 0x0, 0x0, 0x0, 0x0, 0x0⟩,
  ⟨0x154, 0x4, 1, true, 0xFFFFFFFF, 0x0, 0x0, 0x0, 0x0, 0x0, 0x0⟩,
  ⟨0x158, 0x4, 1, false, 0xFF, 0x0, 0x0, 0xC0000000, 0x0, 0x0, 0x0⟩,
  ⟨0x1C0, 0x4, 16, false, 0xFFFFFFFF, 0x0, 0x0, 0x0, 0x0, 0x0, 0x0⟩,
  ⟨0x200, 0x4, 48, false, 0xE0FFFFFF, 0x0, 0x0, 0x0, 0x0, 0x0, 0x3200⟩,
  ⟨0x2C0, 0x4, 48, false, 0x0, 0x0, 0x0, 0x0, 0xC0FFFFFF, 0x0, 0x0⟩]
def regs_npt1 : List RegDef := [
  ⟨0x380, 0x10, 8, false, 0xFFFFFFFF, 0x0, 0x0, 0x0, 0x0, 0x0, 0x0⟩,
  ⟨0x384, 0x10, 8, false, 0xFFFFFFFF, 0x0, 0x0, 0x0, 0x0, 0x0, 0x0⟩,
  ⟨0x388, 0x10, 8, false, 0xFF, 0x0, 0x0, 0x0, 0x0, 0x0, 0x0⟩,
  ⟨0x5F0, 0x4, 1, false, 0x0, 0x0, 0x0, 0x0, 0x7, 0x0, 0x0⟩,
  ⟨0x600, 0x10, 8, false, 0x0, 0x80000000, 0x0, 0x0, 0xFFFF1F, 0x0, 0x0⟩,
  ⟨0x604, 0x10, 8, false, 0x0, 0x0, 0x0, 0x0, 0xFFFFFFFF, 0x0, 0x0⟩,
  ⟨0x608, 0x10, 8, true, 0x0, 0x0, 0x0, 0x0, 0xFFFFFFFF, 0x0, 0x0⟩,
  ⟨0x60C, 0x10, 8, true, 0x0, 0x0, 0x0, 0x0, 0xFFFFFFFF, 0x0, 0x0⟩]
def regs_npt : List RegDef := regs_npt0 ++ regs_npt1

def regs_pwr0 : List RegDef := [
  ⟨0x80, 0x4, 1, false, 0x7, 0x0, 0x0, 0x80000000, 0x0, 0x0, 0x0⟩,
  ⟨0x84, 0x4, 1, false, 0x0, 0x0, 0x0, 0x0, 0xC7070007, 0x0, 0x0⟩,
  ⟨0x88, 0x4, 1, false, 0x3, 0x0, 0x0, 0x80000000, 0x0, 0x0, 0x0⟩,
  ⟨0x8C, 0x4, 1, false, 0x0, 0x0, 0x0, 0x0, 0xC3030F03, 0x0, 0xC00⟩,
  ⟨0x90, 0x4, 1, false, 0x0, 0x0, 0x0, 0x0, 0x3, 0x0, 0x0⟩,
  ⟨0x94, 0x4, 1, false, 0xFF0000FF, 0x0, 0x0, 0x0, 0x0, 0x0, 0x40000064⟩,
  ⟨0x98, 0x4, 1, false, 0x0, 0x80000000, 0x0, 0x0, 0xFFFF, 0x0, 0x0⟩,
  ⟨0x9C, 0x4, 1, false, 0x0, 0x0, 0x0, 0x0, 0x1FFFF, 0x0, 0x0⟩,
  ⟨0xA0, 0x4, 1, false, 0x0, 0x0, 0x0, 0x0, 0xFFFFFFFF, 0x0, 0x0⟩]
def regs_pwr : List RegDef := regs_pwr0

def regs_hbr0 : List RegDef := [
  ⟨0x80, 0x4, 1, false, 0x0, 0x0, 0x0, 0x0, 0x8000FF0F, 0x0, 0x0⟩,
  ⟨0x90, 0x4, 1, false, 0x0, 0xC0000000, 0x0, 0x0, 0x7FC0001, 0x0, 0x0⟩,
  ⟨0x98, 0x4, 1, true, 0x0, 0x0, 0x0, 0x0, 0xFFFFFFFF, 0x0, 0x0⟩,
  ⟨0x9C, 0x4, 1, true, 0x0, 0x0, 0x0, 0x0, 0xFFFFFFFF, 0x0, 0x0⟩,
  ⟨0xA0, 0x4, 1, true, 0x0, 0x0, 0x0, 0x0, 0xFFFFFFFF, 0x0, 0x0⟩,
  ⟨0xA4, 0x4, 1, true, 0x0, 0x0, 0x0, 0x0, 0xFFFFFFFF, 0x0, 0x0⟩,
  ⟨0xC0, 0x4, 1, false, 0xB000001F, 0x40000000, 0x0, 0x0, 0x0, 0x0, 0x0⟩,
  ⟨0xC4, 0x4, 1, false, 0x8000003F, 0x40000000, 0x0, 0x0, 0x0, 0x0, 0x0⟩,
  ⟨0xC8, 0x4, 1, false, 0x0, 0x0, 0x0, 0x0, 0xFFFFFFFF, 0x0, 0x0⟩,
  ⟨0xCC, 0x4, 1, false, 0xFFFF, 0x0, 0x0, 0x80000000, 0x0, 0x0, 0x0⟩,
  ⟨0xD0, 0x4, 1, false, 0x0, 0x40000000, 0x0, 0x0, 0x8000000F, 0x0, 0x0⟩,
  ⟨0x2000, 0x10, 128, true, 0xFFFFFFFF, 0x0, 0x0, 0x0, 0x0, 0x0, 0x0⟩,
  ⟨0x2004, 0x10, 128, true, 0xFFFFFFFF, 0x0, 0x0, 0x0, 0x0, 0x0, 0x0⟩,
  ⟨0x2008, 0x10, 128, false, 0xFFFFFFFF, 0x0, 0x0, 0x0, 0x0, 0x0, 0x0⟩,
  ⟨0x200C, 0x10, 128, false, 0x1, 0x0, 0x0, 0x0, 0x0, 0x0, 0x1⟩,
  ⟨0x3000, 0x4, 4, false, 0xFFFFFFFF, 0x0, 0x0, 0x0, 0x0, 0x0, 0x0⟩]
def regs_hbr : List RegDef := regs_hbr0

def regs_dma0 : List RegDef := [
  ⟨0x80, 0x4, 1, true, 0xFFFFFFFF, 0x0, 0x0, 0x0, 0x0, 0x0, 0x0⟩,
  ⟨0x84, 0x4, 1, true, 0xFFFFFFFF, 0x0, 0x0, 0x0, 0x0, 0x0, 0x0⟩,
  ⟨0x1000, 0x40, 64, false, 0x3, 0x0, 0x0, 0x0, 0x0, 0x0, 0x2⟩,
  ⟨0x1004, 0x40, 64, false, 0x0, 0x0, 0x0, 0x0, 0xF0F, 0x0, 0x0⟩,
  ⟨0x1008, 0x40, 64, true, 0xFFFFFFFF, 0x0, 0x0, 0x0, 0x0, 0x0, 0x0⟩,
  ⟨0x100C, 0x40, 64, true, 0xFFFFFFFF, 0x0, 0x0, 0x0, 0x0, 0x0, 0x0⟩,
  ⟨0x1010, 0x40, 64, false, 0x80FF1FFF, 0x0, 0x0, 0x0, 0x0, 0x0, 0x80080200⟩,
  ⟨0x1014, 0x40, 64, false, 0xFFF, 0x0, 0x0, 0x0, 0x0, 0x0, 0x0⟩,
  ⟨0x1018, 0x40, 64, false, 0x0, 0x0, 0x0, 0x0, 0xFFF, 0x0, 0x0⟩,
  ⟨0x101C, 0x40, 64, false, 0x807FFFFF, 0x0, 0x0, 0x0, 0x0, 0x0, 0x1⟩,
  ⟨0x1020, 0x40, 64, true, 0x0, 0x0, 0x0, 0x0, 0xFFFFFFFF, 0x0, 0x0⟩,
  ⟨0x1024, 0x40, 64, true, 0x0, 0x0, 0x0, 0x0, 0xFFFFFFFF, 0x0, 0x0⟩,
  ⟨0x2000, 0x40, 64, false, 0x3, 0x0, 0x0, 0x0, 0x0, 0x0, 0x2⟩,
  ⟨0x2004, 0x40, 64, false, 0x0, 0x0, 0x0, 0x0, 0xF0F, 0x0, 0x0⟩,
  ⟨0x2008, 0x40, 64, true, 0xFFFFFFFF, 0x0, 0x0, 0x0, 0x0, 0x0, 0x0⟩,
  ⟨0x200C, 0x40, 64, true, 0xFFFFFFFF, 0x0, 0x0, 0x0, 0x0, 0x0, 0x0⟩,
  ⟨0x2010, 0x40, 64, false, 0x80FF1FFF, 0x0, 0x0, 0x0, 0x0, 0x0, 0x80080200⟩,
  ⟨0x2014, 0x40, 64, false, 0xFFF, 0x0, 0x0, 0x0, 0x0, 0x0, 0x0⟩,
  ⟨0x2018, 0x40, 64, false, 0x0, 0x0, 0x0, 0x0, 0xFFF, 0x0, 0x0⟩,
  ⟨0x201C, 0x40, 64, false, 0x807FFFFF, 0x0, 0x0, 0x0, 0x0, 0x0, 0x1⟩,
  ⟨0x2020, 0x40, 64, true, 0x0, 0x0, 0x0, 0x0, 0xFFFFFFFF, 0x0, 0x0⟩,
  ⟨0x2024, 0x40, 64, true, 0x0, 0x0, 0x0, 0x0, 0xFFFFFFFF, 0x0, 0x0⟩]
def regs_dma : List RegDef := regs_dma0

def regs_lbx0 : List RegDef := [
  ⟨0x80, 0x10, 4, false, 0x0, 0x0, 0x0, 0x80000000, 0x0, 0x0, 0x0⟩,
  ⟨0x84, 0x10, 4, false, 0x0, 0x0, 0x0, 0x0, 0xC0000000, 0x0, 0x0⟩,
  ⟨0x800, 0x4, 64, false, 0xFFFFFFFF, 0x0, 0x0, 0x0, 0x0, 0x0, 0x0⟩,
  ⟨0x900, 0x4, 64, false, 0x0, 0x0, 0x0, 0x0, 0xFFFFFFFF, 0x0, 0x0⟩,
  ⟨0xA00, 0x4, 64, false, 0xFFFFFFFF, 0x0, 0x0, 0x0, 0x0, 0x0, 0x0⟩,
  ⟨0xB00, 0x4, 64, false, 0x0, 0x0, 0x0, 0x0, 0xFFFFFFFF, 0x0, 0x0⟩,
  ⟨0xC00, 0x4, 64, false, 0xFFFFFFFF, 0x0, 0x0, 0x0, 0x0, 0x0, 0x0⟩,
  ⟨0xD00, 0x4, 64, false, 0x0, 0x0, 0x0, 0x0, 0xFFFFFFFF, 0x0, 0x0⟩,
  ⟨0xE00, 0x4, 64, false, 0xFFFFFFFF, 0x0, 0x0, 0x0, 0x0, 0x0, 0x0⟩,
  ⟨0xF00, 0x4, 64, false, 0x0, 0x0, 0x0, 0x0, 0xFFFFFFFF, 0x0, 0x0⟩]
def regs_lbx : List RegDef := regs_lbx0

def regs_dst0 : List RegDef := [
  ⟨0x80, 0x4, 1, false, 0x0, 0x0, 0x0, 0x0, 0xF000FFFF, 0x0, 0x2155⟩,
  ⟨0x84, 0x4, 1, false, 0x0, 0x0, 0x0, 0x80000000, 0x7F00007F, 0x0, 0x0⟩,
  ⟨0x88, 0x4, 1, false, 0xFFFFFFFF, 0x0, 0x0, 0x0, 0x0, 0x0, 0x3E80FA0⟩,
  ⟨0x8C, 0x4, 1, false, 0x0, 0xC0000000, 0x0, 0x0, 0xFFFFFF, 0x0, 0x0⟩,
  ⟨0x90, 0x4, 3, false, 0x8000FFFF, 0x0, 0x0, 0x0, 0x0, 0x0, 0x0⟩,
  ⟨0xA0, 0x4, 1, false, 0x0, 0xC0000000, 0x0, 0x0, 0xFF0000, 0x0, 0x0⟩,
  ⟨0xA8, 0x4, 1, true, 0x0, 0x0, 0x0, 0x0, 0xFFFFFFFF, 0x0, 0x0⟩,
  ⟨0xAC, 0x4, 1, true, 0x0, 0x0, 0x0, 0x0, 0xFFFFFFFF, 0x0, 0x0⟩,
  ⟨0xB0, 0x4, 1, false, 0x800000FF, 0x0, 0x0, 0x0, 0x0, 0x0, 0x80000018⟩,
  ⟨0xB4, 0x4, 1, false, 0x0, 0x0, 0x0, 0x0, 0x80000007, 0x0, 0x0⟩,
  ⟨0x100, 0x8, 16, false, 0x1FFF, 0x0, 0x0, 0x0, 0x0, 0x0, 0x0⟩,
  ⟨0x104, 0x8, 16, false, 0x1FFF, 0x0, 0x0, 0x0, 0x0, 0x0, 0x0⟩]
def regs_dst : List RegDef := regs_dst0

def regs_dcap0 : List RegDef := [
  ⟨0x80, 0x4, 1, false, 0x80FF0000, 0x0, 0x0, 0x0, 0x0, 0x0, 0x80000000⟩,
  ⟨0x84, 0x4, 1, false, 0x0, 0x0, 0x0, 0x0, 0xFFFF0000, 0x0, 0x0⟩,
  ⟨0x88, 0x4, 1, false, 0x0, 0x0, 0x0, 0x0, 0xFFFFFFFF, 0x0, 0x0⟩]
def regs_dcap : List RegDef := regs_dcap0

def regs_mmu0 : List RegDef := [
  ⟨0x100, 0x8, 16, true, 0xFFFFF001, 0x0, 0x0, 0x0, 0x0, 0x0, 0x0⟩,
  ⟨0x104, 0x8, 16, true, 0xFFFFF, 0x0, 0x0, 0x0, 0x0, 0x0, 0x0⟩,
  ⟨0x180, 0x4, 1, false, 0x6000000F, 0x0, 0x0, 0x80000000, 0x0, 0x0, 0x0⟩,
  ⟨0x188, 0x4, 1, true, 0xFFFFFFFF, 0x0, 0x0, 0x0, 0x0, 0x0, 0x0⟩,
  ⟨0x18C, 0x4, 1, true, 0xFFFFFFFF, 0x0, 0x0, 0x0, 0x0, 0x0, 0x0⟩,
  ⟨0x1A0, 0x4, 1, false, 0x0, 0xC0000000, 0x0, 0x0, 0xFF3F1F, 0x0, 0x0⟩,
  ⟨0x1A8, 0x4, 1, true, 0x0, 0x0, 0x0, 0x0, 0xFFFFFFFF, 0x0, 0x0⟩,
  ⟨0x1AC, 0x4, 1, true, 0x0, 0x0, 0x0, 0x0, 0xFFFFFFFF, 0x0, 0x0⟩,
  ⟨0x1000, 0x40, 32, false, 0x300000F, 0x0, 0x0, 0xE0000000, 0x0, 0x0, 0x0⟩,
  ⟨0x1004, 0x40, 32, false, 0x0, 0x0, 0x0, 0x0, 0xEFFFFFFF, 0x0, 0x0⟩,
  ⟨0x1008, 0x40, 32, true, 0xFFFFFFFF, 0x0, 0x0, 0x0, 0x0, 0x0, 0x0⟩,
  ⟨0x100C, 0x40, 32, true, 0xFFFFFFFF, 0x0, 0x0, 0x0, 0x0, 0x0, 0x0⟩,
  ⟨0x1010, 0x40, 32, true, 0xFFFFFFFF, 0x0, 0x0, 0x0, 0x0, 0x0, 0x0⟩,
  ⟨0x1014, 0x40, 32, true, 0xFFFFFFFF, 0x0, 0x0, 0x0, 0x0, 0x0, 0x0⟩,
  ⟨0x1018, 0x40, 32, false, 0xFFFFFFFF, 0x0, 0x0, 0x0, 0x0, 0x0, 0x0⟩,
  ⟨0x1020, 0x40, 32, true, 0x0, 0x0, 0x0, 0x0, 0xFFFFFFFF, 0x0, 0x0⟩,
  ⟨0x1024, 0x40, 32, true, 0x0, 0x0, 0x0, 0x0, 0xFFFFFFFF, 0x0, 0x0⟩,
  ⟨0x1028, 0x40, 32, true, 0x0, 0x0, 0x0, 0x0, 0xFFFFFFFF, 0x0, 0x0⟩,
  ⟨0x102C, 0x40, 32, true, 0x0, 0x0, 0x0, 0x0, 0xFFFFFFFF, 0x0, 0x0⟩,
  ⟨0x1030, 0x40, 32, false, 0x0, 0x0, 0x0, 0x0, 0xFFFFFFFF, 0x0, 0x0⟩]
def regs_mmu : List RegDef := regs_mmu0

def regs_ccl0 : List RegDef := [
  ⟨0x80, 0x10, 4, false, 0x0, 0x0, 0x0, 0x0, 0xFE00FFFF, 0x0, 0x0⟩,
  ⟨0x84, 0x10, 4, false, 0x0, 0x0, 0x0, 0x0, 0x3FF, 0x0, 0x0⟩,
  ⟨0x88, 0x10, 4, true, 0x0, 0x0, 0x0, 0x0, 0xFFFFFFFF, 0x0, 0x0⟩,
  ⟨0x8C, 0x10, 4, true, 0x0, 0x0, 0x0, 0x0, 0xFFFFFFFF, 0x0, 0x0⟩,
  ⟨0xC0, 0x4, 1, false, 0xF000FFFF, 0x0, 0x0, 0x0, 0x0, 0x0, 0x300003E8⟩,
  ⟨0xC8, 0x4, 1, false, 0x0, 0xC0000000, 0x0, 0x0, 0x3FFFF00, 0x0, 0x0⟩,
  ⟨0xCC, 0x4, 1, false, 0x0, 0x0, 0x0, 0x0, 0xFFFFFFFF, 0x0, 0x0⟩,
  ⟨0xD0, 0x4, 1, false, 0xFFFF, 0x0, 0x0, 0x0, 0x0, 0x0, 0x0⟩,
  ⟨0x1000, 0x4, 1024, false, 0xFFFFFFFF, 0x0, 0x0, 0x0, 0x0, 0x0, 0x0⟩,
  ⟨0x3080, 0x4, 1, false, 0x0, 0x0, 0x0, 0x0, 0xF000F, 0x0, 0x0⟩,
  ⟨0x3084, 0x4, 1, false, 0x0, 0x0, 0x0, 0x0, 0x8F030001, 0x0, 0x0⟩]
def regs_ccl : List RegDef := regs_ccl0

def regs_key0 : List RegDef := [
  ⟨0x80, 0x4, 1, false, 0x0, 0x0, 0x0, 0x0, 0xF8003F00, 0x0, 0x0⟩,
  ⟨0x84, 0x4, 1, false, 0x800007FF, 0x0, 0x0, 0x0, 0x0, 0x0, 0x70A⟩,
  ⟨0x88, 0x4, 1, false, 0x0, 0xF, 0x0, 0x0, 0xC0000000, 0x0, 0x0⟩,
  ⟨0xC0, 0x4, 1, false, 0x4FFFFF01, 0x0, 0x0, 0x80000000, 0x0, 0x0, 0x0⟩,
  ⟨0xC4, 0x4, 1, false, 0xFFFFFFFF, 0x0, 0x0, 0x0, 0x0, 0x0, 0x0⟩,
  ⟨0xC8, 0x4, 1, false, 0xFFFFFFFF, 0x0, 0x0, 0x0, 0x0, 0x0, 0x0⟩,
  ⟨0xCC, 0x4, 1, false, 0x3F3FFF, 0x0, 0x0, 0x0, 0x0, 0x0, 0x0⟩,
  ⟨0xD0, 0x4, 1, false, 0x0, 0x40000000, 0x0, 0x0, 0x8000000F, 0x0, 0x0⟩,
  ⟨0x100, 0x4, 8, false, 0xFFFFFFFF, 0x0, 0x0, 0x0, 0x0, 0x0, 0x0⟩,
  ⟨0x120, 0x4, 8, false, 0xFFFFFFFF, 0x0, 0x0, 0x0, 0x0, 0x0, 0x0⟩,
  ⟨0x140, 0x4, 8, false, 0x0, 0x0, 0x0, 0xFFFFFFFF, 0x0, 0x0, 0x0⟩,
  ⟨0x180, 0x4, 16, false, 0xFFFFFFFF, 0x0, 0x0, 0x0, 0x0, 0x0, 0x0⟩,
  ⟨0x1000, 0x8, 256, false, 0x0, 0x0, 0x0, 0x0, 0xFFFFFFFF, 0x0, 0x0⟩,
  ⟨0x1004, 0x8, 256, false, 0x0, 0x0, 0x0, 0x0, 0xFFFFFFFF, 0x0, 0x0⟩]
def regs_key : List RegDef := regs_key0

def regs_wax0 : List RegDef := [
  ⟨0x80, 0x4, 1, false, 0x7, 0x0, 0x0, 0x0, 0x0, 0x0, 0x4⟩,
  ⟨0x84, 0x4, 1, false, 0x0, 0x0, 0x0, 0x0, 0xF0000000, 0x0, 0x0⟩,
  ⟨0x800, 0x80, 4, false, 0x1FFFFF00, 0x0, 0x0, 0xE0000000, 0x0, 0x0, 0x0⟩,
  ⟨0x804, 0x80, 4, false, 0x0, 0x0, 0x0, 0x0, 0xEFF0FFFF, 0x0, 0x0⟩,
  ⟨0x808, 0x80, 4, false, 0xFFFF0FFF, 0x0, 0x0, 0x0, 0x0, 0x0, 0x40000000⟩,
  ⟨0x810, 0x80, 4, false, 0xFFFFFFFF, 0x0, 0x0, 0x0, 0x0, 0x0, 0x0⟩,
  ⟨0x814, 0x80, 4, false, 0xFFFFFFFF, 0x0, 0x0, 0x0, 0x0, 0x0, 0x0⟩,
  ⟨0x818, 0x80, 4, false, 0xFFFFFFFF, 0x0, 0x0, 0x0, 0x0, 0x0, 0x0⟩,
  ⟨0x81C, 0x80, 4, false, 0xFFFFFFFF, 0x0, 0x0, 0x0, 0x0, 0x0, 0x0⟩,
  ⟨0x820, 0x80, 4, false, 0xFFFFFFFF, 0x0, 0x0, 0x0, 0x0, 0x0, 0x0⟩,
  ⟨0x824, 0x80, 4, false, 0xFFFFFFFF, 0x0, 0x0, 0x0, 0x0, 0x0, 0x0⟩,
  ⟨0x828, 0x80, 4, false, 0xFFFFFFFF, 0x0, 0x0, 0x0, 0x0, 0x0, 0x0⟩,
  ⟨0x82C, 0x80, 4, false, 0xFFFFFFFF, 0x0, 0x0, 0x0, 0x0, 0x0, 0x0⟩,
  ⟨0x840, 0x80, 4, false, 0x0, 0x0, 0x0, 0xFFFFFFFF, 0x0, 0x0, 0x0⟩,
  ⟨0x844, 0x80, 4, false, 0x0, 0x0, 0x0, 0xFFFFFFFF, 0x0, 0x0, 0x0⟩,
  ⟨0x848, 0x80, 4, false, 0x0, 0x0, 0x0, 0xFFFFFFFF, 0x0, 0x0, 0x0⟩,
  ⟨0x84C, 0x80, 4, false, 0x0, 0x0, 0x0, 0xFFFFFFFF, 0x0, 0x0, 0x0⟩,
  ⟨0x850, 0x80, 4, false, 0x0, 0x0, 0x0, 0xFFFFFFFF, 0x0, 0x0, 0x0⟩,
  ⟨0x854, 0x80, 4, false, 0x0, 0x0, 0x0, 0xFFFFFFFF, 0x0, 0x0, 0x0⟩,
  ⟨0x858, 0x80, 4, false, 0x0, 0x0, 0x0, 0xFFFFFFFF, 0x0, 0x0, 0x0⟩,
  ⟨0x85C, 0x80, 4, false, 0x0, 0x0, 0x0, 0xFFFFFFFF, 0x0, 0x0, 0x0⟩,
  ⟨0x2000, 0x4, 2048, false, 0xFFFFFFFF, 0x0, 0x0, 0x0, 0x0, 0x0, 0x0⟩]
def regs_wax : List RegDef := regs_wax0

def regs_msc0 : List RegDef := [
  ⟨0x80, 0x10, 4, false, 0xFFFFFFFF, 0x0, 0x0, 0x0, 0x0, 0xFE7FFFFF, 0x7A1E0001⟩,
  ⟨0x84, 0x10, 4, false, 0xFFFFFFFF, 0x0, 0x0, 0x0, 0x0, 0xFFFFFFFF, 0x0⟩,
  ⟨0x88, 0x10, 4, false, 0x0, 0x0, 0x0, 0x0, 0xF0000000, 0x0, 0x0⟩,
  ⟨0x100, 0x4, 1, false, 0x33F, 0x0, 0x0, 0x0, 0x0, 0x0, 0x0⟩,
  ⟨0x104, 0x4, 1, false, 0x1, 0x0, 0x0, 0x80000000, 0x0, 0x0, 0x0⟩,
  ⟨0x108, 0x4, 1, false, 0x0, 0x40000000, 0x0, 0x0, 0x8000000F, 0x0, 0x0⟩,
  ⟨0x120, 0x4, 12, false, 0xFFFFFFFF, 0x0, 0x0, 0x0, 0x0, 0x0, 0x0⟩]
def regs_msc : List RegDef := regs_msc0

def regs_flt0 : List RegDef := [
  ⟨0x80, 0x4, 1, false, 0x0, 0x0, 0x0, 0x0, 0xF0000FFF, 0x0, 0x0⟩,
  ⟨0x84, 0x4, 1, false, 0x7, 0x0, 0x0, 0x0, 0x0, 0x7, 0x3⟩,
  ⟨0x88, 0x4, 1, false, 0xFFFFFFFF, 0x0, 0x0, 0x0, 0x0, 0xFFFFFFFF, 0x0⟩,
  ⟨0x8C, 0x4, 1, false, 0xFF, 0x0, 0x0, 0x0, 0xFF0000, 0xFF, 0x7D⟩,
  ⟨0x90, 0x4, 1, false, 0x0, 0x40000000, 0x0, 0x0, 0x8000FFFF, 0x0, 0x0⟩,
  ⟨0x98, 0x4, 1, true, 0x0, 0x0, 0x0, 0x0, 0xFFFFFFFF, 0x0, 0x0⟩,
  ⟨0x9C, 0x4, 1, true, 0x0, 0x0, 0x0, 0x0, 0xFF, 0x0, 0x0⟩,
  ⟨0xA0, 0x4, 1, false, 0x0, 0x0, 0x0, 0x0, 0xFFFFFFFF, 0x0, 0x0⟩,
  ⟨0xA4, 0x4, 1, false, 0x0, 0x0, 0x0, 0x0, 0xFFFF, 0x0, 0x0⟩,
  ⟨0xC0, 0x4, 1, false, 0x0, 0x0, 0x0, 0x0, 0xFFFFFFFF, 0x0, 0x0⟩,
  ⟨0xC4, 0x4, 1, false, 0x0, 0x0, 0x0, 0x0, 0xFFFFFFFF, 0x0, 0x0⟩,
  ⟨0xC8, 0x4, 1, true, 0x0, 0x0, 0x0, 0x0, 0xFFFFFFFF, 0x0, 0x0⟩,
  ⟨0xCC, 0x4, 1, true, 0x0, 0x0, 0x0, 0x0, 0xFFFFFFFF, 0x0, 0x0⟩,
  ⟨0x100, 0x10, 12, false, 0x8077FFFF, 0x0, 0x0, 0x0, 0x0, 0x8077FFFF, 0x0⟩,
  ⟨0x104, 0x10, 12, false, 0x0, 0x0, 0x0, 0x0, 0xFF80FFFF, 0x0, 0x0⟩,
  ⟨0x108, 0x10, 12, false, 0x0, 0x0, 0x0, 0x1, 0x0, 0x0, 0x0⟩,
  ⟨0x10C, 0x10, 12, false, 0x0, 0x0, 0x0, 0x0, 0xFFFFFFFF, 0x0, 0x0⟩]
def regs_flt : List RegDef := regs_flt0

def regs_adj0 : List RegDef := [
  ⟨0x80, 0x4, 1, false, 0xC000000F, 0x0, 0x0, 0x0, 0x0, 0x0, 0x0⟩,
  ⟨0x84, 0x4, 1, false, 0xFFFF, 0x0, 0x0, 0x0, 0x0, 0x0, 0xC8⟩,
  ⟨0x88, 0x4, 1, false, 0x0, 0x0, 0x0, 0x0, 0xFFFF0000, 0x0, 0x0⟩,
  ⟨0x90, 0x4, 1, false, 0xFFFFFF, 0x0, 0x0, 0x0, 0x0, 0x0, 0x0⟩,
  ⟨0x94, 0x4, 1, false, 0xFF, 0x0, 0x0, 0x0, 0x0, 0x0, 0x0⟩,
  ⟨0x98, 0x4, 1, false, 0xFFFF, 0x0, 0x0, 0x0, 0x0, 0x0, 0x0⟩,
  ⟨0x9C, 0x4, 1, false, 0x0, 0x0, 0x0, 0xC0000000, 0x0, 0x0, 0x0⟩,
  ⟨0xA0, 0x4, 1, true, 0x0, 0x0, 0x0, 0x0, 0xFFFFFFFF, 0x0, 0x0⟩,
  ⟨0xA4, 0x4, 1, true, 0x0, 0x0, 0x0, 0x0, 0xFFFFFFFF, 0x0, 0x0⟩,
  ⟨0xA8, 0x4, 1, false, 0x0, 0x0, 0x0, 0x0, 0x1FFF, 0x0, 0x0⟩,
  ⟨0xAC, 0x4, 1, false, 0x0, 0x0, 0x0, 0x0, 0xFFFFFFFF, 0x0, 0x0⟩,
  ⟨0xB0, 0x4, 1, false, 0x0, 0x0, 0x0, 0x0, 0xFFFFFFFF, 0x0, 0x0⟩]
def regs_adj : List RegDef := regs_adj0

def regs_upd0 : List RegDef := [
  ⟨0x80, 0x10, 2, false, 0x0, 0x0, 0x0, 0x0, 0xF8FF003F, 0x0, 0x0⟩,
  ⟨0x84, 0x10, 2, false, 0x0, 0x0, 0x0, 0x0, 0xFFFFFFFF, 0x0, 0x0⟩,
  ⟨0x88, 0x10, 2, false, 0x0, 0x0, 0x0, 0x0, 0xFFFFFFFF, 0x0, 0x0⟩,
  ⟨0xA0, 0x4, 1, false, 0x0, 0x0, 0x0, 0x0, 0x7F, 0x0, 0x0⟩,
  ⟨0xA4, 0x4, 1, false, 0x0, 0x0, 0x0, 0x0, 0xFFF000FF, 0x0, 0x0⟩,
  ⟨0xA8, 0x4, 1, true, 0x0, 0x0, 0x0, 0x0, 0xFFFFFFFF, 0x0, 0x0⟩,
  ⟨0xAC, 0x4, 1, true, 0x0, 0x0, 0x0, 0x0, 0xFFFFFFFF, 0x0, 0x0⟩,
  ⟨0xB0, 0x4, 1, false, 0x0, 0x0, 0x0, 0x0, 0xC00000FF, 0x0, 0x0⟩]
def regs_upd : List RegDef := regs_upd0

end Sys2Proof.Machine
end

