-- ==== Sys2Proof/Machine/Ops.lean ====
section
/-! DEFINITION. The named operations on registers, counters, records and time that every meaning
is written over. -/

namespace Sys2Proof.Machine

/-- Apply `f` where `b` holds. -/
def Dev.when (d : Dev) (b : Bool) (f : Dev → Dev) : Dev := if b then f d else d

/-- Bits `hi` down to `lo` of `w`. -/
def bits (w hi lo : Nat) : Nat := (w / 2 ^ lo) % 2 ^ (hi + 1 - lo)

/-- Bit `i` of `w`. -/
def bitAt (w i : Nat) : Bool := (w / 2 ^ i) % 2 == 1

/-- `w` with bits `hi` down to `lo` replaced by `v`. -/
def putBits (w hi lo v : Nat) : Nat :=
  w - bits w hi lo * 2 ^ lo + (v % 2 ^ (hi + 1 - lo)) * 2 ^ lo

/-- The indexes below `n` whose bit of `w` is 1. -/
def onesOf (w n : Nat) : List Nat := (List.range n).filter (bitAt w)

/-- 1 for true. -/
def b2n (b : Bool) : Nat := if b then 1 else 0

/-- The value of a two's complement number of `n` bits. -/
def signed (n w : Nat) : Int := if bitAt w (n - 1) then (w : Int) - 2 ^ n else w

/-- The two's complement number of `n` bits of a value, wrapped. -/
def wrapTo (n : Nat) (v : Int) : Nat := (v % (2 ^ n : Int)).toNat

/-- The two's complement number of `n` bits of a value, saturated. -/
def satTo (n : Nat) (v : Int) : Nat :=
  wrapTo n (max (-(2 ^ (n - 1) : Int)) (min v (2 ^ (n - 1) - 1 : Int)))

/-- The number the bytes of a list make, most significant byte first. -/
def beNat (bs : List Byte) : Nat := bs.foldl (fun a b => a * 256 + b.toNat) 0

/-- The number the bytes of a list make, least significant byte first (R7). -/
def leNat (bs : List Byte) : Nat := bs.foldr (fun b a => b.toNat + 256 * a) 0

/-- The `n` bytes of a number, most significant first. -/
def beBytes (n v : Nat) : List Byte :=
  (List.range n).map (fun i => BitVec.ofNat 8 (v / 256 ^ (n - 1 - i)))

/-- The `n` bytes of a number, least significant first. -/
def leBytes (n v : Nat) : List Byte :=
  (List.range n).map (fun i => BitVec.ofNat 8 (v / 256 ^ i))

/-- `n` bytes from place `i`. -/
def slice (bs : List Byte) (i n : Nat) : List Byte := (bs.drop i).take n

-- ==== pages ====

end Sys2Proof.Machine

namespace Sys2Proof

open Sys2Proof.Machine

/-- The number that keys the state of a page: its set and its instance. -/
def Page.idx (p : Page) : Nat :=
  match p.kind with
  | .trc => 0 | .sys => 1 | .boot => 2 | .pwr => 3 | .flt => 4 | .key => 5 | .wax => 6
  | .npt => 7 | .hbr => 8 | .dma => 9 | .dst => 10 | .mmu => 11 | .ccl => 12 | .adj => 13
  | .upd => 14 | .lbx => 15 | .bur => 16 | .fwl => 17 | .shl => 18 | .frk => 19 | .pmk => 20
  | .prt => 32 + p.inst | .sch => 80 + p.inst | .evo => 128 + p.inst | .cap => 144 + p.inst
  | .can => 160 + p.inst | .lin => 192 + p.inst | .msc => 200 + p.inst | .dcap => 208 + p.inst

/-- The bytes of key space one page takes. -/
def pageSpan : Nat := 0x20000

/-- The key of a register word. -/
def Page.key (p : Page) (off : Nat) : Nat := p.idx * pageSpan + off

/-- The page a page number names. -/
def Page.ofIdx (i : Nat) : Page :=
  if i = 0 then ⟨.trc, 0⟩ else if i = 1 then ⟨.sys, 0⟩ else if i = 2 then ⟨.boot, 0⟩
  else if i = 3 then ⟨.pwr, 0⟩ else if i = 4 then ⟨.flt, 0⟩ else if i = 5 then ⟨.key, 0⟩
  else if i = 6 then ⟨.wax, 0⟩ else if i = 7 then ⟨.npt, 0⟩ else if i = 8 then ⟨.hbr, 0⟩
  else if i = 9 then ⟨.dma, 0⟩ else if i = 10 then ⟨.dst, 0⟩ else if i = 11 then ⟨.mmu, 0⟩
  else if i = 12 then ⟨.ccl, 0⟩ else if i = 13 then ⟨.adj, 0⟩ else if i = 14 then ⟨.upd, 0⟩
  else if i = 15 then ⟨.lbx, 0⟩ else if i = 16 then ⟨.bur, 0⟩ else if i = 17 then ⟨.fwl, 0⟩
  else if i = 18 then ⟨.shl, 0⟩ else if i = 19 then ⟨.frk, 0⟩ else if i = 20 then ⟨.pmk, 0⟩
  else if i < 80 then ⟨.prt, i - 32⟩ else if i < 128 then ⟨.sch, i - 80⟩
  else if i < 144 then ⟨.evo, i - 128⟩ else if i < 160 then ⟨.cap, i - 144⟩
  else if i < 192 then ⟨.can, i - 160⟩ else if i < 200 then ⟨.lin, i - 192⟩
  else if i < 208 then ⟨.msc, i - 200⟩ else ⟨.dcap, i - 208⟩

/-- The number of instances of each page set. -/
def PageKind.count : PageKind → Nat
  | .prt => 40 | .sch => 43 | .evo => 16 | .cap => 8 | .can => 24 | .lin => 8 | .msc => 6
  | .dcap => 16 | _ => 1

/-- A page that exists. -/
def Page.exists (p : Page) : Bool := decide (p.inst < p.kind.count)

/-- PAGE_ID.TYPE (R41). -/
def PageKind.type : PageKind → Nat
  | .trc => 0x01 | .sys => 0x02 | .boot => 0x03 | .pwr => 0x04 | .flt => 0x05 | .key => 0x06
  | .wax => 0x07 | .msc => 0x08 | .pmk | .evo | .cap => 0x09 | .prt => 0x0A | .bur => 0x0B
  | .fwl => 0x0C | .shl => 0x0D | .sch => 0x0E | .frk => 0x0F | .can => 0x10 | .lin => 0x11
  | .npt => 0x12 | .hbr => 0x13 | .dma => 0x14 | .dst | .dcap => 0x15 | .mmu => 0x16
  | .ccl => 0x17 | .adj => 0x18 | .upd => 0x19 | .lbx => 0x1A

/-- PAGE_ID.INSTANCE (R43, R262, R413). -/
def Page.instance_ (p : Page) : Nat :=
  match p.kind with
  | .evo | .dcap => 0x10 + p.inst
  | .cap => 0x20 + p.inst
  | _ => p.inst

/-- The power domain of a page (R349). -/
def Page.domain (p : Page) : Nat :=
  match p.kind with
  | .pwr | .npt | .key | .wax => 0
  | .trc | .sys | .boot | .flt | .hbr | .dma | .lbx | .adj | .upd => 1
  | .shl | .sch | .frk => 2
  | .bur | .fwl => 3
  | .ccl => 4
  | .dst | .mmu | .dcap => 5
  | .pmk | .evo | .cap | .can | .lin => 6
  | .prt => 7 + p.inst / 4
  | .msc => 7 + p.inst

/-- The register map of a page set. -/
def PageKind.regs : PageKind → List RegDef
  | .trc => regs_trc | .sys => regs_sys | .boot => regs_boot | .pwr => regs_pwr
  | .flt => regs_flt | .key => regs_key | .wax => regs_wax | .msc => regs_msc
  | .pmk => regs_pmk | .evo => regs_evo | .cap => regs_cap | .prt => regs_prt
  | .bur => regs_bur | .fwl => regs_fwl | .shl => regs_shl | .sch => regs_sch
  | .frk => regs_frk | .can => regs_can | .lin => regs_lin | .npt => regs_npt
  | .hbr => regs_hbr | .dma => regs_dma | .dst => regs_dst | .dcap => regs_dcap
  | .mmu => regs_mmu | .ccl => regs_ccl | .adj => regs_adj | .upd => regs_upd
  | .lbx => regs_lbx

/-- Where the counters of a page set lie: base and bytes (R58 and the counter maps). -/
def PageKind.counterAreas : PageKind → List (Nat × Nat)
  | .prt => [(0x400, 0xC0)]
  | .bur => [(0xE0, 0x20), (0x3000, 0x200), (0x4000, 0x1000)]
  | .fwl => [(0x400, 0x100), (0x1000, 0x1000)]
  | .shl => [(0x8000, 0x5600), (0xE000, 0x100)]
  | .sch => [(0x300, 0x30), (0x800, 0x800)]
  | .frk => [(0x400, 0x80)]
  | .pmk => [(0x2000, 0x200)]
  | .evo => [(0x100, 0x28)]
  | .cap => [(0x100, 0x10)]
  | .can | .lin => [(0x400, 0x100)]
  | .npt => [(0x700, 0x68)]
  | .pwr => [(0x400, 0x28)]
  | .hbr => [(0x400, 0x38)]
  | .dma => [(0x3000, 0x1000)]
  | .dst => [(0x400, 0x40)]
  | .dcap => [(0x100, 0x18)]
  | .ccl => [(0x400, 0x130)]
  | .key => [(0x400, 0x30)]
  | .wax => [(0x400, 0x28)]
  | .msc => [(0x800, 0x400)]
  | .flt => [(0x400, 0x88)]
  | .adj => [(0x400, 0x60)]
  | .upd => [(0x400, 0x28)]
  | .trc | .sys | .boot | .lbx | .mmu => []

/-- The offset lies among the counters of the page. -/
def Page.isCounter (p : Page) (off : Nat) : Bool :=
  p.kind.counterAreas.any (fun a => decide (a.1 ≤ off) && decide (off < a.1 + a.2))

/-- The row of a register map an offset lies in. -/
def findReg (off : Nat) : List RegDef → Option RegDef
  | [] => none
  | r :: rs =>
    if decide (r.off ≤ off) && (off - r.off) % r.stride == 0
        && decide ((off - r.off) / r.stride < r.count)
    then some r else findReg off rs

/-- The snapshot registers of a page that holds counters (R57). -/
def snapRegs : List RegDef :=
  [⟨0x40, 4, 1, false, 0, 0, 0, 1, 0, 0, 0⟩, ⟨0x44, 4, 1, false, 0, 0, 0, 0, 0xFFFFFFFF, 0, 0⟩,
   ⟨0x48, 4, 1, true, 0, 0, 0, 0, 0xFFFFFFFF, 0, 0⟩, ⟨0x4C, 4, 1, true, 0, 0, 0, 0, 0xFFFFFFFF, 0, 0⟩]

/-- The common header (R43). -/
def headerRegs : List RegDef := regs_hdr

/-- The register word at an offset of a page, `none` where no register lies. -/
def Page.reg (p : Page) (off : Nat) : Option RegDef :=
  if off < 0x40 then findReg off headerRegs
  else if off < 0x50 && !p.kind.counterAreas.isEmpty then findReg off snapRegs
  else findReg off p.kind.regs

/-- PRT_MODE at reset, by port class (R88). -/
def prtModeReset (n : Nat) : Nat :=
  if n < 8 then 0x61 else if n < 24 then 0x52 else if n < 32 then 0x1024 else 0x06

/-- FLT_CLS_CFG at reset, by class (R469). -/
def clsCfgReset (c : Nat) : Nat :=
  let row (lvl mx quiet auto : Nat) := auto * 2 ^ 31 + mx * 2 ^ 20 + lvl * 2 ^ 16 + quiet
  if c = 0 then row 1 2 1000 1 else if c = 1 then row 1 1 1000 1
  else if c = 2 then row 1 2 1000 1 else if c = 3 then row 3 4 1000 0
  else if c = 4 then row 3 4 1000 0 else if c = 5 then row 2 3 1000 0
  else if c = 6 then row 1 2 10000 1 else if c = 7 then row 1 2 100 1
  else if c = 8 then row 1 2 100 1 else if c = 9 then row 1 1 60000 1
  else if c = 10 then row 1 1 60000 0 else row 2 3 1000 0

/-- The floor of a fault class (R469). -/
def clsFloor (c : Nat) : Nat :=
  if c = 1 then 1 else if c = 2 then 1 else if c = 3 then 3 else if c = 10 then 1 else 0

/-- The words whose reset value depends on the instance. -/
def Page.resetSpecial (p : Page) (off : Nat) : Option Nat :=
  if off = 0 then some (p.kind.type * 2 ^ 16 + p.instance_)
  else match p.kind with
    | .prt => if off = 0x80 then some (prtModeReset p.inst) else none
    | .pmk => if off = 0x80 then some 0x1483 else if off = 0xC0 then some 0x11483 else none
    | .sys => if off = 0x100 then some 0x3FFF else if off = 0x1040 then some 0x80000004 else if off = 0x1044 then some 0x80010004 else none
    | .npt => if off = 0x134 then some 0x708 else if decide (0x280 ≤ off) && decide (off < 0x2A0) then some 0x9600 else none
    | .upd => if off = 0x80 then some 0x78000000 else none
    | .shl => if off = 0xA8 then some 0x3232 else if off = 0x100 then some 98304
        else if off = 0x110 then some 0x100000 else if off = 0x120 then some 2624 else none
    | .ccl => if off = 0x80 then some 0x2000000 else if off = 0x90 then some 0xA000000
        else if off = 0xA0 then some 0x10000000 else if off = 0xB0 then some 0x18000000 else none
    | .flt =>
      if decide (0x100 ≤ off) && decide (off < 0x1C0) then
        if off % 16 = 0 then some (clsCfgReset ((off - 0x100) / 16))
        else if off % 16 = 4 then some (clsFloor ((off - 0x100) / 16) * 2 ^ 24)
        else none
      else none
    | _ => none

/-- What a register word holds at reset. -/
def Page.resetNat (p : Page) (off : Nat) : Nat :=
  match p.resetSpecial off with
  | some v => v
  | none => match p.reg off with
    | some r => r.reset
    | none => 0

/-- What a register word that is not listed holds. -/
def resetWord (key : Nat) : Word :=
  BitVec.ofNat 32 ((Page.ofIdx (key / pageSpan)).resetNat (key % pageSpan))

end Sys2Proof

namespace Sys2Proof.Machine

-- ==== register words and fields ====

/-- The word a register holds. -/
def Dev.word (d : Dev) (p : Page) (off : Nat) : Nat :=
  match d.regs.get? (p.key off) with
  | some w => w.toNat
  | none => p.resetNat off

/-- Make a register hold a word. -/
def Dev.setWord (d : Dev) (p : Page) (off v : Nat) : Dev :=
  { d with regs := d.regs.set (p.key off) (BitVec.ofNat 32 v) }

/-- Both words of a register mapped [63:0], low half first (R36). -/
def Dev.wide (d : Dev) (p : Page) (off : Nat) : Nat := d.word p off + 2 ^ 32 * d.word p (off + 4)

/-- Set both words of a register mapped [63:0]. -/
def Dev.setWide (d : Dev) (p : Page) (off v : Nat) : Dev :=
  (d.setWord p off (v % 2 ^ 32)).setWord p (off + 4) (v / 2 ^ 32 % 2 ^ 32)

/-- Element `i` of a register that repeats. -/
def Fld.at (f : Fld) (i : Nat) : Fld := { f with off := f.off + i * f.stride }

/-- The same field `n` bytes further on. -/
def Fld.plus (f : Fld) (n : Nat) : Fld := { f with off := f.off + n }

/-- The value of a field. -/
def Dev.fld (d : Dev) (p : Page) (f : Fld) : Nat :=
  if f.hi < 32 then bits (d.word p f.off) f.hi f.lo else bits (d.wide p f.off) f.hi f.lo

/-- Set a field. -/
def Dev.setFld (d : Dev) (p : Page) (f : Fld) (v : Nat) : Dev :=
  if f.hi < 32 then d.setWord p f.off (putBits (d.word p f.off) f.hi f.lo v)
  else d.setWide p f.off (putBits (d.wide p f.off) f.hi f.lo v)

/-- A field of one bit reads 1. -/
def Dev.flag (d : Dev) (p : Page) (f : Fld) : Bool := d.fld p f == 1

/-- Set a field of one bit. -/
def Dev.setFlag (d : Dev) (p : Page) (f : Fld) (b : Bool) : Dev := d.setFld p f (b2n b)

/-- The page of one instance of a set. -/
def pg (k : PageKind) : Page := ⟨k, 0⟩

abbrev trcPg : Page := ⟨.trc, 0⟩
abbrev sysPg : Page := ⟨.sys, 0⟩
abbrev bootPg : Page := ⟨.boot, 0⟩
abbrev pwrPg : Page := ⟨.pwr, 0⟩
abbrev fltPg : Page := ⟨.flt, 0⟩
abbrev keyPg : Page := ⟨.key, 0⟩
abbrev waxPg : Page := ⟨.wax, 0⟩
abbrev hbrPg : Page := ⟨.hbr, 0⟩
abbrev dmaPg : Page := ⟨.dma, 0⟩
abbrev dstPg : Page := ⟨.dst, 0⟩
abbrev mmuPg : Page := ⟨.mmu, 0⟩
abbrev cclPg : Page := ⟨.ccl, 0⟩
abbrev adjPg : Page := ⟨.adj, 0⟩
abbrev updPg : Page := ⟨.upd, 0⟩
abbrev lbxPg : Page := ⟨.lbx, 0⟩
abbrev burPg : Page := ⟨.bur, 0⟩
abbrev fwlPg : Page := ⟨.fwl, 0⟩
abbrev shlPg : Page := ⟨.shl, 0⟩
abbrev frkPg : Page := ⟨.frk, 0⟩
abbrev pmkPg : Page := ⟨.pmk, 0⟩

/-- The page of CAN `n`. -/
def canPg (n : Nat) : Page := ⟨.can, n⟩

/-- The page of LIN `m`. -/
def linPg (m : Nat) : Page := ⟨.lin, m⟩

/-- The page of port `n`. -/
def prtPg (n : Nat) : Page := ⟨.prt, n⟩

/-- The page of event output `n`. -/
def evoPg (n : Nat) : Page := ⟨.evo, n⟩

/-- The SCH page of port `n`. -/
def schPg (n : Nat) : Page := ⟨.sch, n⟩

-- ==== counters (R57, R58) ====

/-- The live count at an offset. -/
def Dev.count (d : Dev) (p : Page) (off : Nat) : Nat := d.counts.getD (p.key off) 0

/-- Add `n` to the counter at an offset; counters wrap modulo 2^64. -/
def Dev.addCount (d : Dev) (p : Page) (off n : Nat) : Dev :=
  { d with counts := d.counts.set (p.key off) ((d.count p off + n) % 2 ^ 64) }

/-- Count once in counter `i` of a page whose counters begin at `base`. -/
def Dev.bump (d : Dev) (p : Page) (base i : Nat) : Dev := d.addCount p (base + 8 * i) 1

/-- Where the counters lie that a chapter numbers by an index: NPT + 0x700, and 0x400 elsewhere (R107, R198, R313,
R337). -/
def cntBase : PageKind → Nat
  | .npt => 0x700
  | _ => 0x400

/-- Count `n` times in counter `i` of the counters a page numbers by an index. -/
def Dev.cnt (d : Dev) (p : Page) (i : Nat) (n : Nat := 1) : Dev := d.addCount p (cntBase p.kind + 8 * i) n

/-- A 32-bit count held in a register field that saturates. -/
def Dev.incSat (d : Dev) (p : Page) (f : Fld) (n : Nat := 1) : Dev :=
  d.setFld p f (min (d.fld p f + n) (2 ^ (f.hi + 1 - f.lo) - 1))

/-- A count held in a register field that wraps. -/
def Dev.incWrap (d : Dev) (p : Page) (f : Fld) : Dev := d.setFld p f (d.fld p f + 1)

-- ==== output and free values ====

/-- Send something out. -/
def Dev.emit (d : Dev) (o : Output) : Dev := { d with out := d.out ++ [o] }

/-- Draw the next free value: its number, and the device with that number spent. -/
def Dev.draw (d : Dev) : Nat × Dev := (d.drawn, { d with drawn := d.drawn + 1 })

-- ==== time ====

/-- Sub-cycles of 250 ps in one microsecond. -/
def usTicks : Nat := 4000

/-- Sub-cycles of 250 ps in one millisecond. -/
def msTicks : Nat := 4000000

-- ==== records with VALID and OVERRUN ====

/-- Fill a record that keeps its first content: where VALID is 1 only OVERRUN is set; otherwise
`fill` runs and VALID is set. -/
def Dev.record (d : Dev) (p : Page) (valid overrun : Fld) (fill : Dev → Dev) : Dev :=
  if d.flag p valid then d.setFlag p overrun true else (fill d).setFlag p valid true

-- ==== lists ====

/-- Change the element at place `i`. -/
def listSet {α : Type} (l : List α) (i : Nat) (a : α) : List α := l.set i a

/-- The elements of a list, each with its place. -/
def enum {α : Type} (l : List α) : List (Nat × α) := (List.range l.length).zip l

end Sys2Proof.Machine
end

