-- ==== Sys2Proof/Machine/Flags.lean ====
section
/-! DEFINITION. The status and interrupt flags of the page header (R43, R44), MSI-X delivery,
pop windows (R59 to R62), and time as registers show it. -/

namespace Sys2Proof.Machine

-- ==== time as seen ====

/-- Sub-units of an anchor in one nanosecond. -/
def subPerNs : Nat := 1024000000000

/-- An anchor. -/
def Dev.anchor (d : Dev) (n : Nat) : Anchor := d.pmk.anchors.getD n {}

/-- Change an anchor. -/
def Dev.setAnchor (d : Dev) (n : Nat) (a : Anchor) : Dev :=
  { d with pmk := { d.pmk with anchors := d.pmk.anchors.set n a } }

/-- The time of an anchor in whole nanoseconds (R271). -/
def Dev.anchorNs (d : Dev) (n : Nat) : Nat := (d.anchor n).sub / subPerNs

/-- Anchor 0 time in whole nanoseconds, the time of records. -/
def Dev.time (d : Dev) : Nat := d.anchorNs 0

-- ==== pop windows ====

/-- The entries a pop window holds at most; 0 for a window that is not mapped (R62). -/
def popDepth (n : Nat) : Nat :=
  if n = 0 then 256 else if n = 1 then 64 else if n < 18 then 1024 else if n = 18 then 16 else 0

/-- A pop window. -/
def Dev.pop (d : Dev) (n : Nat) : PopWin := d.pops.getD n {}

/-- Change a pop window. -/
def Dev.setPop (d : Dev) (n : Nat) (w : PopWin) : Dev := { d with pops := d.pops.set n w }

/-- Make an entry in a pop window, numbered in order of arrival, or count it lost where the window
is full (R61). -/
def Dev.popPush (d : Dev) (n : Nat) (body : List Nat) : Dev :=
  let w := d.pop n
  if w.entries.length < popDepth n then
    d.setPop n { w with entries := w.entries ++ [⟨w.nextSeq, body⟩], nextSeq := (w.nextSeq + 1) % 65536 }
  else d.setPop n { w with lost := min (w.lost + 1) 0xFFFFFFFF }

/-- Acknowledge the head of a pop window by its SEQ (R60). -/
def Dev.popAck (d : Dev) (n seq : Nat) : Dev :=
  let w := d.pop n
  match w.entries with
  | e :: es => if e.seq = seq then d.setPop n { w with entries := es }
               else d.setPop n { w with stale := true }
  | [] => d.setPop n { w with stale := true }

/-- Empty a pop window; the numbering goes on (R61). -/
def Dev.popEmpty (d : Dev) (n : Nat) : Dev := d.setPop n { d.pop n with entries := [] }

/-- A word of a pop window (R59). -/
def Dev.popWord (d : Dev) (n off : Nat) : Nat :=
  let w := d.pop n
  let head := w.entries.head?
  if off = 0 then (head.map (·.seq)).getD 0
  else if off = 4 then
    match head with
    | some e => 2 ^ 31 + e.body.length
    | none => 0
  else if off = 0x10 then b2n w.stale * 2 ^ 31 + w.entries.length
  else if off = 0x18 then w.lost
  else if 0x100 ≤ off then ((head.map (·.body)).getD []).getD ((off - 0x100) / 4) 0
  else 0

-- ==== the Adjor link (R488) ====

/-- Change what the pair logic keeps. -/
def Dev.withAdj (d : Dev) (f : Adj → Adj) : Dev := { d with adj := f d.adj }

/-- Carry a digest over INDEX, ADDR, DATA and the outcome of an order (R499). The outcome is one word: bit 0 is 1 where
the write was refused, bits [15:8] are the RESULT of a command it started. DESIGN CHOICE: assumption 8. -/
def digestOf (c : Nat) (o : Order) (outcome : Nat) : Nat :=
  crc32cWords c [o.index % 2 ^ 32, o.index / 2 ^ 32, o.addr, o.data % 2 ^ 32, o.data / 2 ^ 32, outcome]

/-- The digest takes in the orders whose outcome is known, in their order. -/
def Dev.digestFlow (d : Dev) : Dev :=
  d.withAdj (fun a => { a with
    digest := (a.awaited.takeWhile (fun w => w.cmd == 0)).foldl (fun c w => digestOf c w.order w.outcome) a.digest
    awaited := a.awaited.dropWhile (fun w => w.cmd == 0) })

/-- An order has been issued or applied: `cmd` is the command it started, 0 for none. -/
def Dev.digestStep (d : Dev) (o : Order) (cmd outcome : Nat) : Dev :=
  let r := if cmd = 0 then d.adj.early.getD 0 else 0
  (d.withAdj (fun a => { a with awaited := a.awaited ++ [⟨o, cmd, outcome + 256 * r⟩], early := none })).digestFlow

/-- A command ends with a RESULT: 1 of an edition, 2 exact match, 3 franking table, 4 route table. -/
def Dev.digestResult (d : Dev) (cmd r : Nat) : Dev :=
  if d.adj.awaited.any (fun w => w.cmd == cmd) then
    (d.withAdj (fun a => { a with awaited := a.awaited.map (fun w =>
      if w.cmd = cmd then { w with cmd := 0, outcome := w.outcome + 256 * r } else w) })).digestFlow
  else d.withAdj (fun a => { a with early := some r })

/-- Send a frame on the Adjor link: numbered per TYPE, kept for its ACK where R488 asks one; with no lane up
nothing leaves (R487). -/
def Dev.adjSend (d : Dev) (type : Nat) (ws : List Nat) : Dev :=
  let seq := d.adj.seqs.getD type 0
  let acked := type == 3 || type == 4 || type == 6 || type == 7 || type == 9
  let u : List Unacked := if acked then [{ type := type, seq := seq, words := ws }] else []
  let lanes := d.fld (pg .adj) R.ADJ_STAT_LANES
  let u := u.map (fun x => { x with lane := if lanes % 2 = 1 then 0 else 1 })
  (d.withAdj (fun a => { a with seqs := a.seqs.set type ((seq + 1) % 2 ^ 32), unacked := a.unacked ++ u })).when
    (lanes != 0) (fun d => d.emit (.adjor type seq false ws))

-- ==== MSI-X ====

/-- IRQ_STAT: IRQ_RAW AND IRQ_MASK (R43). -/
def Dev.irqStat (d : Dev) (p : Page) : Nat := d.word p 0x18 &&& d.word p 0x1C

/-- The entry of a posted write that failed (R381): SOURCE, REQUESTER, CAUSE, UNIT, address, data and
whether it was of 64 bits. -/
def Dev.pwEntry (d : Dev) (src req cause unit addr data : Nat) (wide : Bool) : Dev :=
  (d.popPush 18 ([src * 2 ^ 28 + req * 2 ^ 24 + cause * 2 ^ 16 + unit, addr % 2 ^ 32, addr / 2 ^ 32 % 2 ^ 32,
    data % 2 ^ 32, data / 2 ^ 32 % 2 ^ 32, b2n wide, d.time % 2 ^ 32, d.time / 2 ^ 32 % 2 ^ 32])).cnt (pg .hbr) 2

/-- Mark the message of a vector pending. -/
def Dev.pendMsix (d : Dev) (v : Nat) : Dev :=
  let f := R.HBR_MSIX_PBA_PEND.at (v / 32)
  d.setFld (pg .hbr) f (d.fld (pg .hbr) f ||| 2 ^ (v % 32))

/-- Routes of a page interrupt that do not lead to the host (R43). -/
def Dev.deliverAside (d : Dev) (p : Page) : Dev :=
  let d := d.when (d.flag p R.IRQ_ROUTE_SPI) (fun d => d.emit (.spiIrq p.idx))
  let d := d.when (d.flag p R.IRQ_ROUTE_CLUSTER) (fun d => d.emit (.clusterIrq p.idx))
  d.when (d.flag p R.IRQ_ROUTE_PEER && d.fld (pg .adj) R.ADJ_STAT_LANES != 0) (fun d =>
    d.adjSend 9 [p.kind.type * 2 ^ 16 + p.instance_, d.irqStat p])

/-- A message that cannot be sent stays pending and is logged (R381); PW_ERR is raised, and its own
message to the host, which would fail too, is pending. -/
def Dev.failMsix (d : Dev) (v cause : Nat) : Dev :=
  let h := pg .hbr
  let d := d.pwEntry 3 0 cause v (d.fld h (R.HBR_MSIX_ADDR_ADDR.at v)) (d.fld h (R.HBR_MSIX_DATA_DATA.at v)) false
  let d := d.pendMsix v
  let was := d.irqStat h
  let d := d.setWord h 0x18 (d.word h 0x18 ||| 1)
  if bitAt was 0 || !bitAt (d.irqStat h) 0 then d
  else (d.deliverAside h).when (d.flag h R.IRQ_ROUTE_HOST) (fun d => d.pendMsix (d.fld h R.IRQ_ROUTE_VECTOR))

/-- Send the MSI-X message of a vector; it is pending while its entry is masked or the function is in
D3hot, and fails while Bus Master Enable is 0 or the link is down (R370, R381, R383). -/
def Dev.sendMsix (d : Dev) (v : Nat) : Dev :=
  let h := pg .hbr
  if d.flag h (R.HBR_MSIX_CTRL_MASK.at v) || d.pcie.d3hot then d.pendMsix v
  else if !d.pcie.busMaster then d.failMsix v 0x20
  else if !d.pcie.linkUp then d.failMsix v 0x21
  else (d.emit (.msix v (d.fld h (R.HBR_MSIX_ADDR_ADDR.at v)) (d.fld h (R.HBR_MSIX_DATA_DATA.at v)))).cnt h 6

/-- The vectors whose pending bit is 1. -/
def Dev.msixPending (d : Dev) : List Nat :=
  (List.range 128).filter (fun v => bitAt (d.fld (pg .hbr) (R.HBR_MSIX_PBA_PEND.at (v / 32))) (v % 32))

/-- Send the pending messages whose reason to wait has gone. -/
def Dev.releaseMsix (d : Dev) : Dev :=
  d.msixPending.foldl (fun d v =>
    let f := R.HBR_MSIX_PBA_PEND.at (v / 32)
    (d.setFld (pg .hbr) f (d.fld (pg .hbr) f &&& (0xFFFFFFFF - 2 ^ (v % 32)))).sendMsix v) d

-- ==== IRQ_RAW, IRQ_STAT and delivery ====

/-- One delivery on the routes set in IRQ_ROUTE (R43). -/
def Dev.deliver (d : Dev) (p : Page) : Dev :=
  (d.when (d.flag p R.IRQ_ROUTE_HOST) (fun d => d.sendMsix (d.fld p R.IRQ_ROUTE_VECTOR))).deliverAside p

/-- Make a change of IRQ_RAW or IRQ_MASK: one delivery for each bit of IRQ_STAT that goes from 0
to 1 (R44). -/
def Dev.irqEdge (d : Dev) (p : Page) (f : Dev → Dev) : Dev :=
  let d' := f d
  let rise := d'.irqStat p &&& (0xFFFFFFFF - d.irqStat p)
  (onesOf rise 32).foldl (fun d _ => d.deliver p) d'

/-- Set bit `b` of IRQ_RAW. -/
def Dev.raise (d : Dev) (p : Page) (b : Nat) : Dev :=
  if bitAt (d.word p 0x18) b then d
  else d.irqEdge p (fun d => d.setWord p 0x18 (d.word p 0x18 ||| 2 ^ b))

/-- Refuse a write: WRITE_REFUSED is set, and REFUSED raised where it was 0 (R43, R51). -/
def Dev.refuse (d : Dev) (p : Page) : Dev :=
  let d := { d with refusals := d.refusals + 1 }
  if d.flag p R.PAGE_STAT_WRITE_REFUSED then d
  else (d.setFlag p R.PAGE_STAT_WRITE_REFUSED true).raise p 30

/-- The STATE of a page (R46): 0 OFF, 1 STARTING, 2 ON, 3 STOPPING. -/
def Dev.state (d : Dev) (p : Page) : Nat := d.fld p R.PAGE_STAT_STATE

/-- The page is ON. -/
def Dev.isOn (d : Dev) (p : Page) : Bool := d.state p == 2

/-- Move a page to a STATE; STATE_CHANGE is raised where it differs. -/
def Dev.setState (d : Dev) (p : Page) (st : Nat) : Dev :=
  if d.state p = st then d else (d.setFld p R.PAGE_STAT_STATE st).raise p 29

/-- A feature bit is in force (R64). -/
def Dev.feature (d : Dev) (n : Nat) : Bool := bitAt d.features n

-- ==== armed checkers (R143) ====

/-- A checker is armed for its next use. -/
def Dev.isArmed (d : Dev) (p : Page) (c : Nat) : Bool := d.armed.contains (p.idx, c)

/-- The armed checker has fired. -/
def Dev.disarm (d : Dev) (p : Page) (c : Nat) : Dev :=
  { d with armed := d.armed.filter (· != (p.idx, c)) }

/-- Count a frame, message or read that an injection discarded (R480). -/
def Dev.injected (d : Dev) : Dev := d.cnt (pg .flt) 12

/-- `n` draws as bytes. -/
def Dev.drawBytes (d : Dev) (n : Nat) : List Byte × Dev :=
  ((List.range n).map (fun i => BitVec.ofNat 8 (Config.free (d.drawn + i))), { d with drawn := d.drawn + n })

/-- A flash program or erase that began at `since` is held: it came after a PFAIL warning that still stands (R481). -/
def Dev.flashHeld (d : Dev) (since : Nat) : Bool := d.flag (pg .flt) R.FLT_PFAIL_ASSERTED && decide (d.flt.warnAt ≤ since)

end Sys2Proof.Machine
end

