-- ==== Sys2Proof/Machine/Operands.lean ====
section
/-! DEFINITION. What an access names: address decode of the three BARs (R35 to R38), permitted
sizes (R36), register reads, and the masks a register write goes through (R8, R50). -/

namespace Sys2Proof.Machine

/-- A block of equal page instances in BAR0: base, stride, instances, bytes of one. -/
structure Region where
  base : Nat
  stride : Nat
  count : Nat
  size : Nat
  kind : PageKind
  deriving DecidableEq, Repr

/-- The page sets whose BAR0 base the manual states (R40, R41, R71 and the page rules). -/
def bar0Stated : List Region :=
  [⟨0x000000, 0x4000, 1, 0x4000, .trc⟩, ⟨0x008000, 0x1000, 1, 0x1000, .boot⟩,
   ⟨0x010000, 0x1000, 1, 0x1000, .pwr⟩, ⟨0x020000, 0x1000, 1, 0x1000, .flt⟩,
   ⟨0x030000, 0x2000, 1, 0x2000, .key⟩, ⟨0x034000, 0x4000, 1, 0x4000, .wax⟩,
   ⟨0x080000, 0x1000, 40, 0x1000, .prt⟩, ⟨0x100000, 0x5000, 1, 0x5000, .bur⟩,
   ⟨0x180000, 0x2000, 1, 0x2000, .fwl⟩, ⟨0x200000, 0x10000, 1, 0x10000, .shl⟩,
   ⟨0x280000, 0x1000, 43, 0x1000, .sch⟩, ⟨0x300000, 0x10000, 1, 0x10000, .frk⟩,
   ⟨0x380000, 0x1000, 24, 0x1000, .can⟩, ⟨0x3A0000, 0x1000, 8, 0x1000, .lin⟩,
   ⟨0x3C0000, 0x1000, 1, 0x1000, .npt⟩, ⟨0x400000, 0x4000, 1, 0x4000, .hbr⟩,
   ⟨0x410000, 0x4000, 1, 0x4000, .dma⟩, ⟨0x480000, 0x1000, 1, 0x1000, .dst⟩,
   ⟨0x490000, 0x1000, 16, 0x1000, .dcap⟩, ⟨0x4C0000, 0x4000, 1, 0x4000, .mmu⟩,
   ⟨0x500000, 0x4000, 1, 0x4000, .ccl⟩, ⟨0x580000, 0x1000, 1, 0x1000, .adj⟩,
   ⟨0x5C0000, 0x1000, 1, 0x1000, .upd⟩, ⟨0x600000, 0x1000, 1, 0x1000, .lbx⟩]

/-- The page sets whose BAR0 base is a constant of Config. -/
def bar0Unstated : List Region :=
  [⟨Config.sysBase, 0x2000, 1, 0x2000, .sys⟩, ⟨Config.pmkBase, 0x4000, 1, 0x4000, .pmk⟩,
   ⟨Config.pmkBase + 0x10000, 0x1000, 16, 0x1000, .evo⟩,
   ⟨Config.pmkBase + 0x20000, 0x1000, 8, 0x1000, .cap⟩,
   ⟨Config.mscBase, 0x1000, 6, 0x1000, .msc⟩]

/-- The page and offset an address of a region names. -/
def Region.find (a : Nat) (r : Region) : Option (Page × Nat) :=
  if decide (r.base ≤ a) && decide ((a - r.base) / r.stride < r.count)
      && decide ((a - r.base) % r.stride < r.size)
  then some (⟨r.kind, (a - r.base) / r.stride⟩, (a - r.base) % r.stride) else none

/-- What an access reaches (R38, R377). -/
inductive Where where
  | reg (p : Page) (off : Nat)
  | pop (n off : Nat)
  | table (off : Nat)
  | peerWin (off : Nat)
  | flashWin (off : Nat)
  | unmapped
  deriving DecidableEq, Repr

/-- The first answer of a list of regions. -/
def findRegion (a : Nat) : List Region → Option (Page × Nat)
  | [] => none
  | r :: rs => match r.find a with
    | some x => some x
    | none => findRegion a rs


/-- The BAR0 base of a page. -/
def pageBase (p : Page) : Nat :=
  match (bar0Stated ++ bar0Unstated).find? (fun r => r.kind == p.kind) with
  | some r => r.base + p.inst * r.stride
  | none => 0

/-- Address decode of the three spaces (R35, R38, R62, R377). -/
def resolve : Target → Where
  | .reg p off => if p.exists then .reg p off else .unmapped
  | .addr .bar0 a =>
    if 0x1000000 ≤ a then
      if a < 0x1800000 then .peerWin (a - 0x1000000)
      else if a < 0x2000000 then .flashWin (a - 0x1800000) else .unmapped
    else match findRegion a bar0Stated with
      | some (p, o) => .reg p o
      | none => match findRegion a bar0Unstated with
        | some (p, o) => .reg p o
        | none => .unmapped
  | .addr .bar2 a => if popDepth (a / 0x400) = 0 then .unmapped else .pop (a / 0x400) (a % 0x400)
  | .addr .bar4 a => .table a

/-- The size rules of R36: `true` where the access is permitted. -/
def sizeOk (w : Where) (write : Bool) (size addr : Nat) : Bool :=
  if size = 4 then
    decide (addr % 4 = 0) &&
    match w with
    | .pop _ off => !write || off = 0x8 || off = 0x10
    | .table _ => !write
    | _ => true
  else if size = 8 then
    decide (addr % 8 = 0) &&
    match w with
    | .reg p off => match p.reg off with
      | some r => r.wide
      | none => p.isCounter off
    | .pop _ off => !write && off = 0
    | _ => true
  else false

/-- A register map is the same for every instance of a set; these instances lack the word at an offset (R88,
R104, R300). -/
def absent (p : Page) (off : Nat) : Bool :=
  match p.kind with
  | .prt =>
    (off == 0xB0 && decide (32 ≤ p.inst))
      || ((off == 0x100 || off == 0x104) && decide (24 ≤ p.inst))
      || ((off == 0x120 || off == 0x124 || off == 0x128) && decide (p.inst < 32))
      || (decide (0x800 ≤ off) && p.inst != 0) || (off == 0x200 && p.inst != 0)
  | .can => decide (0x800 ≤ off) && p.inst != 0
  | _ => false

/-- The register word at an offset of this instance. -/
def regOf (p : Page) (off : Nat) : Option RegDef := if absent p off then none else p.reg off

/-- The bits of a word that any access type covers. -/
def RegDef.seen (r : RegDef) : Nat := r.rw ||| r.w1c ||| r.w1s ||| r.ro

/-- The bits of a word that a write can act on (R8). -/
def RegDef.writable (r : RegDef) : Nat := r.rw ||| r.w1c ||| r.w1s ||| r.wo

/-- What one write of a plain register leaves in it (R8): RW and WO bits take the value, a 1 clears W1C
bits and sets W1S bits, other bits stay. Staged bits are left out. -/
def RegDef.write (r : RegDef) (old v : Nat) : Nat :=
  let rw := (r.rw &&& (0xFFFFFFFF - r.staged)) ||| r.wo
  let kept := old &&& (0xFFFFFFFF - rw)
  let cleared := kept &&& (0xFFFFFFFF - (r.w1c &&& v))
  ((cleared ||| (rw &&& v)) ||| (r.w1s &&& v)) &&& 0xFFFFFFFF

/-- Parties of a lock: nobody, or an owner code (R45). -/
def Dev.lockOwner (d : Dev) (p : Page) : Nat := d.fld p R.PAGE_LOCK_OWNER

/-- The party holds the lock of the page. -/
def Dev.holds (d : Dev) (p : Page) (who : Owner) : Bool :=
  d.flag p R.PAGE_LOCK_HELD && d.lockOwner p == who.code

/-- The party may write the fields of the page that are not staged (R51). -/
def Dev.mayWrite (d : Dev) (p : Page) (who : Owner) : Bool :=
  !d.flag p R.PAGE_LOCK_HELD || d.lockOwner p == who.code

/-- The flash meets R506: at least 64 MiB, with program suspend and erase suspend. -/
def flashFit : Bool := decide (0x4000000 ≤ Config.flashBytes) && Config.flashSuspend

/-- The size of the image flash in bytes, at least 64 MiB: with less no start passes step 0x04 (R506). -/
def flashSize : Nat := max 0x4000000 Config.flashBytes

/-- The MSI-X table and PBA, which the host alone reaches for writing (R383). -/
def msixArea (p : Page) (off : Nat) : Bool :=
  p.kind == .hbr && (decide (0x2000 ≤ off) && decide (off < 0x2800) || decide (0x3000 ≤ off) && decide (off < 0x3010))

/-- Offsets every party may write at all times (R51): IRQ_RAW, IRQ_MASK, IRQ_ROUTE, FLT_INJ, the
SNAP register of a page with counters, PMK_LATCH (R279), FLT_CLS_ACK (R479) and the MSI-X table
(R383). PAGE_CTRL and PAGE_STAT check their fields one by one (R49, R51, R56). -/
def openOffset (p : Page) (off : Nat) : Bool :=
  off == 0x08 || off == 0x0C || off == 0x18 || off == 0x1C || off == 0x24 || off == 0x28
    || (off == 0x40 && !p.kind.counterAreas.isEmpty) || (p.kind == .pmk && off == 0x60) || msixArea p off
    || (p.kind == .flt && decide (0x100 ≤ off) && decide (off < 0x1C0) && off % 16 == 8)

/-- A write of the word changes nothing, whoever sends it: no register lies there, or no bit of it can be written
(R8, R9). -/
def inertWord (p : Page) (off : Nat) : Bool :=
  match regOf p off with
  | none => true
  | some r => r.writable == 0

/-- A write of `size` bytes at an offset is ignored (R8, R9). -/
def inert (p : Page) (off size : Nat) : Bool := inertWord p off && (size != 8 || inertWord p (off + 4))

/-- The staged copy of a word: what a COMMIT would leave in it (R50). -/
def Dev.stagedWord (d : Dev) (p : Page) (off : Nat) : Nat :=
  d.staged.foldl (fun w s =>
    if s.key = p.key off then (w &&& (0xFFFFFFFF - s.mask)) ||| s.value else w) (d.word p off)

/-- A field as it would read after a COMMIT. -/
def Dev.stagedFld (d : Dev) (p : Page) (f : Fld) : Nat := bits (d.stagedWord p f.off) f.hi f.lo

/-- Put a write to staged bits into the staging copy (R50). -/
def Dev.stage (d : Dev) (p : Page) (off mask v : Nat) : Dev :=
  { d with staged := d.staged ++ [⟨p.key off, mask, v &&& mask⟩] }

/-- The staged writes of a page. -/
def Dev.stagedOf (d : Dev) (p : Page) : List Staged := d.staged.filter (fun s => s.key / pageSpan == p.idx)

/-- Empty the staging copy of a page. -/
def Dev.unstage (d : Dev) (p : Page) : Dev :=
  { d with staged := d.staged.filter (fun s => s.key / pageSpan != p.idx) }

/-- Apply every staged write of a page (R52). -/
def Dev.applyStaged (d : Dev) (p : Page) : Dev :=
  (d.stagedOf p).foldl (fun d s =>
    let off := s.key % pageSpan
    d.setWord p off ((d.word p off &&& (0xFFFFFFFF - s.mask)) ||| s.value)) (d.unstage p)

end Sys2Proof.Machine
end

