-- ==== Sys2Proof/Machine/StoreOps.lean ====
section
/-! DEFINITION. The deep store (15): its bytes, and the requests that wait, are granted, return and are
withdrawn (R402, R405, R407). -/

namespace Sys2Proof.Machine

-- ==== addressed bytes (R401, R403) ====

/-- The byte at a device address; a byte nothing has written reads zero, as a granule that is not yet
initialised does (R403). -/
def Memory.read (m : NMap Byte) (a : Nat) : Byte := m.getD a 0

/-- Write a byte; a zero is not listed. -/
def Memory.write (m : NMap Byte) (a : Nat) (b : Byte) : NMap Byte := if b = 0 then m.erase a else m.set a b

/-- Write bytes from an address on. -/
def Memory.writeAll (m : NMap Byte) (a : Nat) : List Byte → NMap Byte
  | [] => m
  | b :: bs => Memory.writeAll (Memory.write m a b) (a + 1) bs

/-- The canonical form: addresses rising, no zero listed. -/
def Memory.wf (m : NMap Byte) : Bool := NMap.wf (fun _ => 0) m

/-- Change the deep store. -/
def Dev.withDst (d : Dev) (f : Dst → Dst) : Dev := { d with dst := f d.dst }

/-- `n` bytes of the deep store from an address on. -/
def Dev.memRead (d : Dev) (a n : Nat) : List Byte := (List.range n).map (fun i => Memory.read d.dst.mem (a + i))

/-- Write bytes into the deep store. -/
def Dev.memWrite (d : Dev) (a : Nat) (bs : List Byte) : Dev :=
  d.withDst (fun s => { s with mem := Memory.writeAll s.mem a bs })

/-- Usable size in bytes (R402). -/
def Dev.dstSize (d : Dev) : Nat := (if d.fld dstPg R.DST_CFG_SIZE = 1 then 7680 else 3840) * 2 ^ 20

-- ==== requests (R405, R407) ====

/-- Requests of one requester that are outstanding at most (R405). -/
def dsMost (who : Nat) : Nat :=
  if who < 2 then 32 else if who < 4 then 64 else if who = 4 then 4 else if who = 5 then 2
  else if who < 0x20 then 16 else 4

/-- The requester may have one more request outstanding. -/
def Dev.dsRoom (d : Dev) (who : Nat) : Bool :=
  decide (((d.dst.waiting ++ d.dst.reads).filter (fun r => r.who == who)).length < dsMost who)

/-- A request is made: it arrives now, or its requester holds it back until it may have one more outstanding (R405). -/
def Dev.dsAsk (d : Dev) (r : DsReq) : Dev :=
  if d.dsRoom r.who && !d.dst.held.any (fun x => x.who == r.who) then
    d.withDst (fun s => { s with waiting := s.waiting ++ [{ r with at0 := d.now }] })
  else d.withDst (fun s => { s with held := s.held ++ [r] })

/-- Requests held back arrive where there is room. -/
def Dev.dsMore (d : Dev) : Dev := d.dst.held.foldl Dev.dsAsk (d.withDst (fun s => { s with held := [] }))

/-- The undo log takes the former content of the 64-byte block at `a`, once between checkpoints, where pair
`n` writes to cluster memory (R427). -/
def Dev.undoBlock (d : Dev) (n a : Nat) : Dev :=
  let p := d.ccl.pairs.getD n {}
  if 0x10000000 ≤ a || p.undo.any (fun u => u.1 == a) then d
  else
    let log := (a, d.memRead a 64) :: p.undo
    let d := d.setFld cclPg (R.CCL_PAIR_UNDO_KIB.at n) ((log.length + 15) / 16)
    { d with ccl := { d.ccl with pairs := d.ccl.pairs.set n { p with undo := log } } }

/-- A pair's write is logged block by block before it is done. -/
def Dev.undoLog (d : Dev) (r : DsReq) (a : Nat) : Dev :=
  if r.who < 8 || 12 ≤ r.who then d
  else (List.range ((a % 64 + r.data.length + 63) / 64)).foldl (fun d i => d.undoBlock (r.who - 8) (a / 64 * 64 + 64 * i)) d

/-- Account for a granted request (R412), and do its write. -/
def Dev.dsServe (d : Dev) (r : DsReq) : Dev :=
  let d := (d.cnt dstPg 2).cnt dstPg (if r.write then 7 else 6) r.bytes
  match r.write, r.addr with
  | true, some a => (d.undoLog r a).memWrite a r.data
  | _, _ => d

/-- Requests of a requester for one purpose that are not granted yet are served at once, limits apart. -/
def Dev.dsFlush (d : Dev) (who tag : Nat) : Dev :=
  let mine (r : DsReq) : Bool := r.who == who && r.tag == tag
  let now := (d.dst.waiting ++ d.dst.held).filter mine
  (now.foldl Dev.dsServe (d.withDst (fun s => { s with waiting := s.waiting.filter (fun r => !mine r),
                                                       held := s.held.filter (fun r => !mine r),
                                                       reads := s.reads.filter (fun r => !mine r) }))).dsMore

/-- A requester withdraws its requests for one purpose (R407): a granted slot goes unused and is
counted. -/
def Dev.dsWithdraw (d : Dev) (who tag : Nat) : Dev :=
  let mine (r : DsReq) : Bool := r.who == who && r.tag == tag
  let n := (d.dst.reads.filter mine).length
  let d := d.withDst (fun s => { s with waiting := s.waiting.filter (fun r => !mine r),
                                        held := s.held.filter (fun r => !mine r),
                                        reads := s.reads.filter (fun r => !mine r) })
  (d.when (n != 0) (fun d => d.cnt dstPg 3 n)).dsMore

/-- The data a requester read for one purpose is poisoned, and whether by injection; it is used up. -/
def Dev.dsPoison (d : Dev) (who tag : Nat) : Option Bool × Dev :=
  match d.dst.poison.find? (fun p => p.who == who && p.tag == tag) with
  | none => (none, d)
  | some x => (some x.injected, d.withDst (fun s => { s with poison := s.poison.filter (· != x) }))

end Sys2Proof.Machine
end

