-- ==== Sys2Proof/Machine/HallOps.lean ====
section
/-! DEFINITION. The Sorting Hall's accounts (R201 to R203) and the shared operations that put
copies into queues and take them out. -/

namespace Sys2Proof.Machine

/-- The stored length L of a frame (R201). -/
def Frm.len (f : Frm) : Nat := f.data.length + (if f.fcs then 4 else 0)

/-- The cells a length takes (R201). -/
def cellsFor (len : Nat) : Nat := (len + 255) / 256

/-- The index of queue `q` of port `p` (R219). -/
def qIdx (p q : Nat) : Nat := 8 * p + q

/-- A queue. -/
def Dev.queue (d : Dev) (i : Nat) : Queue := d.hall.queues.getD i {}

/-- Change a queue. -/
def Dev.setQueue (d : Dev) (i : Nat) (q : Queue) : Dev :=
  { d with hall := { d.hall with queues := d.hall.queues.set i q } }

/-- Cells of a list of copies. -/
def cellSum (cs : List Copy) : Nat := (cs.map (·.cells)).sum

/-- The depth of a queue: on-chip cells not yet released (R203). -/
def Dev.depth (d : Dev) (i : Nat) : Nat := cellSum (d.queue i).chip

/-- Spilled blocks of a queue, those of the frame being read back with them. -/
def Dev.spillBlocks (d : Dev) (i : Nat) : Nat :=
  let q := d.queue i
  ((q.spill ++ q.refill.toList).map (·.blocks)).sum

/-- SPILLING: the queue has a spilled part (R212, R214). -/
def Dev.spilling (d : Dev) (i : Nat) : Bool :=
  !(d.queue i).spill.isEmpty || (d.queue i).refill.isSome

/-- Cells held by frames, in reception or admitted. -/
def Dev.heldCells (d : Dev) : Nat := (d.hall.held.map (·.2.cells)).sum

/-- Cells being refilled (the refill staging account of R224). -/
def Dev.refillCells (d : Dev) : Nat :=
  (d.hall.queues.map (fun e => match e.2.refill with | some c => c.cells | none => 0)).sum

/-- SHL_CELL_FREE: cells on the free list; cells the auditor found missing stay lost (R226). -/
def Dev.cellFree (d : Dev) : Nat :=
  (98304 + d.hall.drift.getD 0 0 - d.heldCells - d.refillCells : Int).toNat

/-- SHL_RECV_CELLS: cells in receive accounts (R202). -/
def Dev.recvCells (d : Dev) : Nat :=
  (d.hall.held.map (fun e => if e.2.copies = 0 then e.2.cells else 0)).sum

/-- The number under which a copy's cells are held. -/
def Copy.cellKey (c : Copy) : Nat := c.hold.getD c.frm.id

/-- A copy that holds the cells numbered `k` stands on chip in some queue. -/
def Dev.onChip (d : Dev) (k : Nat) : Bool := d.hall.queues.any (fun e => e.2.chip.any (·.cellKey == k))

/-- SHL_MULTI_CELLS: cells in the multi-copy account (R207). -/
def Dev.multiCells (d : Dev) : Nat :=
  (d.hall.held.map (fun e => if e.2.multi && d.onChip e.1 then e.2.cells else 0)).sum

/-- Egress cells of a port: the depths of its eight queues (R203). -/
def Dev.egressCells (d : Dev) (p : Nat) : Nat :=
  ((List.range 8).map (fun q => d.depth (qIdx p q))).sum

/-- Ingress cells of a port: cells of its frames held on chip in any queue (R203). -/
def Dev.ingressCells (d : Dev) (n : Nat) : Nat :=
  (d.hall.held.map (fun e => if e.2.inPort == n && d.onChip e.1 then e.2.cells else 0)).sum

/-- SHL_RESERVED: the sum of MIN over the 344 queues (R217), each 16 where its register is not listed. -/
def Dev.reserved (d : Dev) : Nat :=
  (5504 + ((d.regs.map (fun e =>
    let off := e.1 % pageSpan
    if e.1 / pageSpan = (pg .shl).idx && decide (0x2000 ≤ off) && decide (off < 0x4B00) && off % 0x20 == 0
    then (bits e.2.toNat 12 0 : Int) - 16 else 0)).sum)).toNat

/-- The reserve still owed over all queues (R203): the sum of MIN less what queues hold of it. -/
def Dev.owedSum (d : Dev) : Nat :=
  d.reserved
    - (d.hall.queues.map (fun e =>
        min (d.fld (pg .shl) (R.SHL_Q_MIN_MIN.at e.1)) (cellSum e.2.chip))).sum

/-- SHL_SHARED_FREE (R203). -/
def Dev.sharedFree (d : Dev) : Nat :=
  d.cellFree - d.fld (pg .shl) R.SHL_HEADROOM_CELLS - d.owedSum

/-- Keep SHL_LOW_WATER.LOW the lowest SHL_SHARED_FREE (R217). -/
def Dev.lowWater (d : Dev) : Dev :=
  if d.sharedFree < d.fld (pg .shl) R.SHL_LOW_WATER_LOW then
    d.setFld (pg .shl) R.SHL_LOW_WATER_LOW d.sharedFree else d

/-- Spill blocks in use. -/
def Dev.spillUsed (d : Dev) : Nat :=
  (d.hall.queues.map (fun e => d.spillBlocks e.1)).sum

/-- Take cells for a frame in reception. -/
def Dev.takeCells (d : Dev) (id inPort cells : Nat) : Dev :=
  Dev.lowWater { d with hall := { d.hall with held := d.hall.held.set id ⟨inPort, cells, 0, false⟩ } }

/-- Return the cells of a frame to the free list. -/
def Dev.freeCells (d : Dev) (id : Nat) : Dev :=
  { d with hall := { d.hall with held := d.hall.held.erase id } }

/-- Several copies of a frame ask for admission: its cells belong to the multi-copy account from the first one on
(R207). -/
def Dev.severalCopies (d : Dev) (id : Nat) : Dev :=
  match d.hall.held.get? id with
  | none => d
  | some h => { d with hall := { d.hall with held := d.hall.held.set id { h with multi := true } } }

/-- One more on-chip copy of a frame (R207). -/
def Dev.addCopy (d : Dev) (id : Nat) : Dev :=
  match d.hall.held.get? id with
  | none => d
  | some h =>
    let h' : Held := { h with copies := h.copies + 1, multi := h.multi || decide (1 ≤ h.copies) }
    { d with hall := { d.hall with held := d.hall.held.set id h' } }

/-- One on-chip copy fewer; the last one frees the cells (R207). -/
def Dev.endCopy (d : Dev) (id : Nat) : Dev :=
  match d.hall.held.get? id with
  | none => d
  | some h =>
    if h.copies ≤ 1 then d.freeCells id
    else { d with hall := { d.hall with held := d.hall.held.set id { h with copies := h.copies - 1 } } }

/-- End a copy wherever it stands: on chip it gives up its share of the cells; spilled it gives up
its blocks by leaving the queue. -/
def Dev.endOf (d : Dev) (c : Copy) : Dev := if c.blocks = 0 then d.endCopy c.cellKey else d

/-- A counter of an Ethernet port (R107). Ports 40 to 42 have no port page. -/
def Dev.prtCnt (d : Dev) (p i : Nat) (n : Nat := 1) : Dev :=
  if p < 40 then d.cnt ⟨.prt, p⟩ i n else d

/-- A queue counter of the SHL page (R223). -/
def Dev.qCnt (d : Dev) (i k : Nat) (n : Nat := 1) : Dev :=
  d.addCount (pg .shl) (0x8000 + 0x40 * i + 8 * k) n

/-- A global counter of the SHL page (R223). -/
def Dev.shlCnt (d : Dev) (k : Nat) (n : Nat := 1) : Dev := d.addCount (pg .shl) (0xE000 + 8 * k) n

/-- Every copy that waits in a queue, on chip and spilled. -/
def Queue.all (q : Queue) : List Copy := q.chip ++ q.spill ++ q.refill.toList

/-- Free every copy queued for a port, each counted once in PRT counter `k` of that port (R95,
R98, R472). -/
def Dev.flushPort (d : Dev) (p k : Nat) : Dev :=
  (List.range 8).foldl (fun d q =>
    let i := qIdx p q
    let cs := (d.queue i).all
    let d := (d.queue i).refill.toList.foldl (fun d c => d.dsWithdraw 1 c.frm.id) d
    let d := d.setQueue i {}
    cs.foldl (fun d c => (d.endOf c).prtCnt p k) d) d

/-- Copies released by a port and not yet finished. -/
def Dev.txOf (d : Dev) (p : Nat) : List TxCopy := d.hall.tx.getD p []

/-- Change them. -/
def Dev.setTx (d : Dev) (p : Nat) (l : List TxCopy) : Dev :=
  { d with hall := { d.hall with tx := d.hall.tx.set p l } }

/-- Sub-cycles from release to the first symbol at the MAC (R17, R356): 192 ns at OP0. -/
def Dev.egressDelay (d : Dev) : Nat :=
  let op := d.fld (pg .pwr) R.PWR_OP_STAT_CUR
  4 * (128 + (if op = 0 then 64 else if op = 1 then 80 else if op = 2 then 128 else 256))

/-- The first symbol of the copy at the head of a port's list has left the MAC. -/
def Dev.due (d : Dev) (t : TxCopy) : Bool := decide (t.releasedAt + d.egressDelay ≤ d.now)

/-- The copies of a port's list whose transmission has begun (R98, R473), pre-empted ones with them; of those that have
not begun only the head can be due. -/
def Dev.begun (d : Dev) (l : List TxCopy) : List TxCopy :=
  match l with
  | [] => []
  | t :: ts => (if t.sof.isSome || d.due t then [t] else []) ++ ts.filter (·.sof.isSome)

/-- Cut the frame on the wire of a port, and one that it pre-empted, with an error, counted in TX_ABORT (13); a frame
released and not begun is handled by `early`, the latest first. -/
def Dev.abortTx (d : Dev) (p : Nat) (early : Dev → TxCopy → Dev) : Dev :=
  let l := d.txOf p
  let wire := d.begun l
  let d := wire.foldl (fun d t => ((d.emit (.frame p t.bytes true)).endOf t.copy).prtCnt p 13) (d.setTx p [])
  (l.filter (fun t => !wire.contains t)).reverse.foldl early d

/-- Put a released copy back at the head of its queue (R98: treated as still queued). -/
def Dev.requeue (d : Dev) (p : Nat) (t : TxCopy) : Dev :=
  let i := qIdx p t.queue
  let q := d.queue i
  d.setQueue i { q with chip := t.copy :: q.chip }

/-- Bits per microsecond of a SPEED code (R88). -/
def speedRate (c : Nat) : Nat :=
  if c = 0 then 10 else if c = 1 then 100 else if c = 2 then 1000 else if c = 3 then 2500
  else if c = 4 then 5000 else if c = 5 then 10000 else 25000

/-- The rate in force of a port, bits per microsecond (R13, R96). -/
def Dev.portRate (d : Dev) (n : Nat) : Nat :=
  if n = 40 then 10000 else if n = 41 then 64000 else if n = 42 then 5000
  else if d.flag (prtPg n) R.PRT_LINK_STAT_UP then speedRate (d.fld (prtPg n) R.PRT_LINK_STAT_RES_SPEED)
  else speedRate (d.fld (prtPg n) R.PRT_MODE_SPEED)

/-- Link state UP of a port; ports 40 to 42 have no link. -/
def Dev.portUp (d : Dev) (p : Nat) : Bool := if p < 40 then d.flag ⟨.prt, p⟩ R.PRT_LINK_STAT_UP else true

/-- The island of a port of the hall (R12), as R227 encodes it. -/
def portIsland (p : Nat) : Nat := if p < 40 then 2 + p / 4 else if p = 40 then 0x0C else if p = 41 then 0x0D else 0x0F

/-- A crossing from one island to another has lost a credit and is stalled (R226). -/
def Dev.stalled (d : Dev) (src dst : Nat) : Bool :=
  d.hall.lostCredits.any (fun c => c.1 == dst && Config.crossingFrom c.1 c.2 == src)

/-- What a port keeps beside its page. -/
def Dev.port (d : Dev) (p : Nat) : Port := d.ports.getD p {}

/-- Change it. -/
def Dev.setPort (d : Dev) (p : Nat) (x : Port) : Dev := { d with ports := d.ports.set p x }

end Sys2Proof.Machine
end

