-- ==== Sys2Proof/Machine/EdgeOps.lean ====
section
/-! DEFINITION. Shared operations of the edge controllers: the acceptance tests of R306, the
transmit buffer of R307, transceiver control (R296), kept-asleep members (R329) and shared
controllers without the claim (R484). -/

namespace Sys2Proof.Machine

/-- What a CAN controller keeps beside its page. -/
def Dev.can (d : Dev) (n : Nat) : Can := d.cans.getD n {}

/-- Change it. -/
def Dev.setCan (d : Dev) (n : Nat) (c : Can) : Dev := { d with cans := d.cans.set n c }

/-- What a LIN controller keeps beside its page. -/
def Dev.lin (d : Dev) (m : Nat) : Lin := d.lins.getD m {}

/-- Change it. -/
def Dev.setLin (d : Dev) (m : Nat) (l : Lin) : Dev := { d with lins := d.lins.set m l }

-- ==== safe state and isolation as seen by the outputs ====

/-- Safe state is in force (R473). -/
def Dev.safe (d : Dev) : Bool := d.flag (pg .flt) R.FLT_SUMMARY_SAFE

/-- The level FLT_SAFE_EVO gives pin `n`: 0 low, 1 high, 2 high impedance. -/
def Dev.safeLevel (d : Dev) (n : Nat) : Nat :=
  bits (d.fld (pg .flt) R.FLT_SAFE_EVO_LEVELS) (2 * n + 1) (2 * n)

/-- Port `p` is isolated (R472). -/
def Dev.isoPort (d : Dev) (p : Nat) : Bool := bitAt (d.fld (pg .flt) R.FLT_ISO_PORT_PORTS) p

/-- CAN `n` is isolated. -/
def Dev.isoCan (d : Dev) (n : Nat) : Bool := bitAt (d.fld (pg .flt) R.FLT_ISO_EDGE_CAN) n

/-- LIN `m` is isolated. -/
def Dev.isoLin (d : Dev) (m : Nat) : Bool := bitAt (d.fld (pg .flt) R.FLT_ISO_EDGE_LIN) m

-- ==== partial networks (R327 to R329) ====

/-- Members of the partial network groups. -/
inductive Member where
  | can (n : Nat)
  | lin (m : Nat)
  | port (p : Nat)
  deriving DecidableEq, Repr

/-- The member belongs to group `g` (R327). -/
def Dev.inGroup (d : Dev) (m : Member) (g : Nat) : Bool :=
  match m with
  | .can n => bitAt (d.fld (pg .npt) (R.NPT_PN_CAN_CAN.at g)) n
  | .lin m => bitAt (d.fld (pg .npt) (R.NPT_PN_CAN_LIN.at g)) m
  | .port p => if p < 32 then bitAt (d.fld (pg .npt) (R.NPT_PN_PORT_PORT.at g)) p
               else bitAt (d.fld (pg .npt) (R.NPT_PN_PORT_HI_PORT.at g)) (p - 32)

/-- The member is kept asleep: it belongs to groups and none of them is awake (R328, R329). -/
def Dev.keptAsleep (d : Dev) (m : Member) : Bool :=
  let gs := (List.range 8).filter (d.inGroup m)
  !gs.isEmpty && gs.all (fun g => !bitAt (d.fld (pg .npt) R.NPT_SLEEP_STAT_GROUPS_AWAKE) g)

-- ==== the claim (R484) ====

/-- The unit holds the claim. -/
def Dev.hasClaim (d : Dev) : Bool := d.flag (pg .adj) R.ADJ_STAT_HOLD

/-- CAN `n` is shared with a peer and this unit does not hold the claim. -/
def Dev.canMuted (d : Dev) (n : Nat) : Bool :=
  d.isOn (pg .adj) && bitAt (d.fld (pg .adj) R.ADJ_SHARED_CAN_CAN) n && !d.hasClaim

/-- LIN `m` is shared with a peer and this unit does not hold the claim. -/
def Dev.linMuted (d : Dev) (m : Nat) : Bool :=
  d.isOn (pg .adj) && bitAt (d.fld (pg .adj) R.ADJ_SHARED_LIN_LIN) m && !d.hasClaim

-- ==== transceivers (R296) ====

/-- Drive the mode pins of CAN `n` for a transceiver state (EDG_CAN_TRX.PIN_MAP). -/
def Dev.modePins (d : Dev) (n st : Nat) : Dev :=
  let map := d.fld (canPg n) R.EDG_CAN_TRX_PIN_MAP
  d.emit (.pin (0x140 + n) (bits map (7 - 2 * st) (6 - 2 * st)))

/-- The transceiver state the controller asks for now: LISTEN for a shared controller without the
claim, STANDBY while kept asleep, REQ otherwise. -/
def Dev.trxWanted (d : Dev) (n : Nat) : Nat :=
  if d.keptAsleep (.can n) then 2
  else if d.canMuted n then 1
  else d.fld (canPg n) R.EDG_CAN_TRX_REQ

/-- Begin a transceiver change, or keep it for the end of the frame on the wire or of the change
in progress; a later request replaces one that waits (R296). -/
def Dev.trxGo (d : Dev) (n st : Nat) : Dev :=
  let c := d.can n
  match c.trxGoing with
  | some g => d.setCan n { c with trxPend := if g = st then none else some st }
  | none =>
    if c.wire.isSome then d.setCan n { c with trxPend := some st }
    else if d.fld (canPg n) R.EDG_CAN_TRX_STATE = st then d.setCan n { c with trxPend := none }
    else (d.setCan n { c with trxPend := none, trxGoing := some st }).modePins n st

/-- Ask for the state the controller wants now. -/
def Dev.trxUpdate (d : Dev) (n : Nat) : Dev := d.trxGo n (d.trxWanted n)

/-- The frame on the wire or the change in progress has ended: a waiting request begins. -/
def Dev.trxNext (d : Dev) (n : Nat) : Dev :=
  match (d.can n).trxPend with
  | none => d
  | some st => d.trxGo n st

-- ==== the unit state of the pair (R484, R496, R497) ====

/-- STATE of the pair page changes. Where the unit leaves COPYING and STANDBY, anchor 0 leaves FOLLOW for
HOLDOVER with its rate kept (R492, R498). -/
def Dev.adjPut (d : Dev) (st : Nat) : Dev :=
  let a := pg .adj
  let old := d.fld a R.ADJ_STAT_STATE
  let d := d.setFld a R.ADJ_STAT_STATE st
  let f := R.PMK_ANCHOR_STAT_STATE.at 0
  d.when ((old == 3 || old == 4) && !(st == 3 || st == 4) && d.fld (pg .pmk) f == 4) (fun d =>
    (d.setFld (pg .pmk) f 3).raise (pg .pmk) 0)

/-- The shared controllers that are ON. -/
def Dev.sharedCans (d : Dev) : List Nat :=
  (onesOf (d.fld (pg .adj) R.ADJ_SHARED_CAN_CAN) 24).filter (fun n => d.isOn (canPg n))

/-- The shared outputs of a unit without the claim (R484): transceivers go to LISTEN, event outputs to high
impedance under their keepers, which are on while the ADJ page is (R485). -/
def Dev.shareMute (d : Dev) : Dev :=
  let d := d.sharedCans.foldl Dev.trxUpdate d
  (onesOf (d.fld (pg .adj) R.ADJ_SHARED_EVO_EVO) 16).foldl (fun d n => d.emit (.pin n 3)) d

/-- Release the claim: the pin is recessive, the shared outputs follow. -/
def Dev.claimDrop (d : Dev) : Dev :=
  if !d.hasClaim then d
  else
    let d := (d.setFlag (pg .adj) R.ADJ_STAT_HOLD false).emit (.pin 0x21 1)
    Dev.shareMute (d.withAdj (fun a => { a with gapFrom := none }))

/-- Transmit enabled (R497): once no shared transceiver changes any more, ADJ_LAST_GAP shows the time since
`gapFrom`, `extra` µs from now included, and a switch-over is counted. -/
def Dev.gapCheck (d : Dev) (extra : Nat) : Dev :=
  match d.adj.gapFrom with
  | none => d
  | some t =>
    if d.sharedCans.any (fun n => (d.can n).trxGoing.isSome || (d.can n).trxPend.isSome) then d
    else
      let d := d.setFld (pg .adj) R.ADJ_LAST_GAP_US (min ((d.now - t) / usTicks + extra) 0xFFFFFFFF)
      (d.withAdj (fun a => { a with gapFrom := none })).cnt (pg .adj) 4

-- ==== working clocks as the edge reads them ====

/-- A working clock. -/
def Dev.wclock (d : Dev) (n : Nat) : WClock := d.pmk.wcs.getD n {}

/-- The time of a working clock in whole ns (R276); clocks 0 and 1 are the anchors. -/
def Dev.clockNs (d : Dev) (n : Nat) : Nat :=
  if n < 2 then d.anchorNs n else (d.wclock n).sub / subPerNs

-- ==== transmit buffer (R306 to R308) ====

/-- A controller cannot send now (R306 test 1). -/
def Dev.canBlocked (d : Dev) (n : Nat) : Bool :=
  let p := canPg n
  let st := d.fld p R.EDG_CAN_TRX_STATE
  !d.isOn p || !d.flag p R.EDG_CAN_STAT_PINS || d.flag p R.EDG_CAN_CFG_LISTEN_ONLY
    || st == 2 || st == 3 || d.keptAsleep (.can n) || d.isoCan n

/-- The controller is in bus-off. -/
def Dev.busOff (d : Dev) (n : Nat) : Bool := d.fld (canPg n) R.EDG_CAN_STAT_ERR_STATE == 2

/-- The format a CAN controller sends a message in, `none` where it cannot (R306). -/
def Dev.canForm (d : Dev) (n : Nat) (m : CanMsg) : Option CanMsg :=
  let p := canPg n
  if m.fmt = 0 then if m.data.length ≤ 8 then some m else none
  else if m.fmt = 1 then if d.flag p R.EDG_CAN_CFG_FD_EN && m.data.length ≤ 64 then some m else none
  else if m.fmt = 2 then if d.flag p R.EDG_CAN_CFG_XL_EN then some m else none
  else some { fmt := 0, id := m.id, data := m.data, ts := m.ts }

/-- Put a message into the transmit buffer, or count TX_FULL (R307). -/
def Dev.txPlace (d : Dev) (n : Nat) (t : TxMsg) : Dev :=
  let c := d.can n
  if c.tx.length + c.wire.toList.length < 64 then d.setCan n { c with tx := c.tx ++ [{ t with since := d.now }] }
  else d.cnt (canPg n) 5

/-- Insert a held message in time order (R308). -/
def holdInsert (m : CanMsg) : List CanMsg → List CanMsg
  | [] => [m]
  | x :: xs => if m.ts.getD 0 < x.ts.getD 0 then m :: x :: xs else x :: holdInsert m xs

/-- Timed transmission (R308): hold, place or refuse a message with a time stamp. -/
def Dev.txTimed (d : Dev) (n t : Nat) (m : TxMsg) : Dev :=
  let p := canPg n
  let w := d.clockNs (d.fld p R.EDG_CAN_CFG_TX_WC)
  let c := d.can n
  if t + d.fld p R.EDG_CAN_LATE_NS < w || w + 1000000000 < t || 32 ≤ c.held.length then
    (d.cnt p 6).raise p 3
  else if t ≤ w then d.txPlace n m
  else d.setCan n { c with held := holdInsert m.msg c.held }

/-- Deliver a message to a CAN controller; the first failing test of R306 counts it. -/
def Dev.canDeliver (d : Dev) (n : Nat) (t : TxMsg) : Dev :=
  let p := canPg n
  if d.canBlocked n then d.cnt p 7
  else if d.busOff n then d.cnt p 10
  else match d.canForm n t.msg with
    | none => d.cnt p 8
    | some m =>
      match d.flag p R.EDG_CAN_CFG_TX_TIME_EN, m.ts with
      | true, some w => d.txTimed n w { t with msg := m }
      | _, _ => d.txPlace n { t with msg := m }

/-- Bytes put over the first places of a list. -/
def overlay : List Byte → List Byte → List Byte
  | b :: bs, _ :: xs => b :: overlay bs xs
  | [], xs => xs
  | _, [] => []

/-- Deliver a message to a LIN controller: the publish buffer entry takes its data (R306, R312).
A message the controller cannot take now is discarded; no LIN counter names it. DEDUCED:
assumption 5. -/
def Dev.linDeliver (d : Dev) (m : Nat) (msg : CanMsg) : Dev :=
  let p := linPg m
  let n := msg.data.length
  if !d.isOn p || d.isoLin m || d.keptAsleep (.lin m) then d
  else if msg.fmt = 2 || msg.rtr || msg.ext || 63 < msg.id || n = 0 || 8 < n
      || n < d.fld p (R.EDG_LIN_PUB_W0_LEN.at msg.id) then d.cnt p 9
  else
    let old := leBytes 8 (d.fld p (R.EDG_LIN_PUB_DATA_DATA.at msg.id))
    let d := d.setFld p (R.EDG_LIN_PUB_DATA_DATA.at msg.id) (leNat (overlay msg.data old))
    (d.setFlag p (R.EDG_LIN_PUB_W0_VALID.at msg.id) true).setFlag p
      (R.EDG_LIN_PUB_W0_FRESH.at msg.id) true

/-- The tables of a LIN schedule change places (R311). -/
def Dev.linTables (d : Dev) (m : Nat) : Dev :=
  let p := linPg m
  let d' := (List.range 64).foldl (fun d i =>
    let a := d.word p (0x300 + 4 * i)
    (d.setWord p (0x300 + 4 * i) (d.word p (0x200 + 4 * i))).setWord p (0x200 + 4 * i) a) d
  let n := d.fld p R.EDG_LIN_SCHED_LEN
  let l := d.lin m
  let d := (d'.setFld p R.EDG_LIN_SCHED_LEN l.len).setLin m { l with len := n }
  let d := (d.setFlag p R.EDG_LIN_SCHED_ACTIVE (!d.flag p R.EDG_LIN_SCHED_ACTIVE)).setFlag p R.EDG_LIN_SCHED_PENDING false
  (d.cnt p 8).raise p 0

/-- The stop of a LIN page ends the current slot, at which a switch that waits for it takes effect, and the schedule
(R295, R311). -/
def Dev.linStop (d : Dev) (m : Nat) : Dev :=
  let d := d.when ((d.lin m).running && d.flag (linPg m) R.EDG_LIN_SCHED_PENDING) (fun d => d.linTables m)
  (d.setLin m { d.lin m with running := false, first := false }).setFlag (linPg m) R.EDG_LIN_SCHED_PENDING false

/-- Deliver a message to a controller numbered as ACF_BUS (R306): CAN 0 to 23, LIN 0 to 7 as 24
to 31. -/
def Dev.edgeDeliver (d : Dev) (dst : Nat) (m : CanMsg) : Dev :=
  if dst < 24 then d.canDeliver dst { msg := m } else d.linDeliver (dst - 24) m

/-- Keep the waiting messages that `keep` names, and no held one where `all`; the message on the wire stays. A relay
copy that is discarded returns to NP-CAN B (R340). -/
def Dev.canKeep (d : Dev) (n : Nat) (keep : TxMsg → Bool) (all : Bool) : Dev :=
  let c := d.can n
  let back := c.tx.any (fun t => t.np && !keep t)
  let d := d.setCan n { c with tx := c.tx.filter keep, held := if all then [] else c.held }
  match back, d.npt.relay with
  | true, some r => { d with npt := { d.npt with relay := some { r with viaCan1 := false } } }
  | _, _ => d

/-- Discard every message that waits or is held. -/
def Dev.canDrop (d : Dev) (n : Nat) : Dev := d.canKeep n (fun _ => false) true

/-- Discard them, each counted in CAN counter `k`. -/
def Dev.canDiscard (d : Dev) (n k : Nat) : Dev :=
  let c := d.can n
  (d.canDrop n).cnt (canPg n) k (c.tx.length + c.held.length)

/-- Cut off the frame on the wire of a CAN controller; the message is again the first of its
buffer. -/
def Dev.canCut (d : Dev) (n : Nat) : Dev :=
  let c := d.can n
  (d.setCan n { c with wire := none, tx := c.wire.toList ++ c.tx }).setFlag (canPg n)
    R.EDG_CAN_STAT_TX_ACTIVE false

/-- The instances of a page set that are ON. -/
def Dev.onPages (d : Dev) (k : PageKind) : List Nat :=
  (List.range k.count).filter (fun n => d.isOn ⟨k, n⟩)

/-- Place a phase message on every sleep bus (R321). -/
def Dev.phaseMsg (d : Dev) (phase : Nat) : Dev :=
  let n := pg .npt
  let m : CanMsg := { id := d.fld n R.NPT_SLEEP_ID_PHASE_ID,
                      data := [BitVec.ofNat 8 phase, BitVec.ofNat 8 (d.fld n R.NPT_SLEEP_STAT_TARGET)] }
  (onesOf (d.fld n R.NPT_SLEEP_BUSES_CAN) 24).foldl
    (fun d c => d.canDeliver c { msg := m, phase := true }) d

end Sys2Proof.Machine
end

