-- ==== Sys2Proof/Machine/Reset.lean ====
section
/-! DEFINITION. The start of a step (R73 to R80) and the device reset: what it returns to its reset
state and what it leaves standing (R67). -/

namespace Sys2Proof.Machine

/-- Every page of the device. -/
def allPages : List Page :=
  [PageKind.trc, .sys, .boot, .pwr, .flt, .key, .wax, .npt, .hbr, .dma, .dst, .mmu, .ccl, .adj, .upd,
   .lbx, .bur, .fwl, .shl, .frk, .pmk, .prt, .sch, .evo, .cap, .can, .lin, .msc, .dcap].flatMap
    (fun k => (List.range k.count).map (fun n => ⟨k, n⟩))

/-- The pages of the always-on island (R349). -/
def aoPages : List Page := [pg .pwr, pg .key, pg .wax, pg .npt]

/-- Microseconds since t0 of this start. -/
def Dev.startUs (d : Dev) : Nat := (d.now - d.start.t0) / usTicks

/-- Write word 0 of the docket entry of a step (R79). -/
def Dev.docket (d : Dev) (step result variant attempts detail : Nat) : Dev :=
  d.setWord (pg .boot) (0x100 + 0x10 * step)
    (step * 2 ^ 24 + result * 2 ^ 20 + variant * 2 ^ 16 + attempts * 2 ^ 8 + detail)

/-- The variant at which a step begins in this start (R75). -/
def Dev.firstVariantOf (d : Dev) (step : Nat) : Nat :=
  if d.start.top || d.start.number % 64 == 0 then 0 else d.start.firstVariant.getD step 0

/-- Begin a step at a variant: its entry reads running, one more try is counted (R74, R79). -/
def Dev.beginStep (d : Dev) (step variant : Nat) : Dev :=
  let tries := min (d.start.attempts.getD step 0 + 1) 0xFF
  let d := { d with start := { d.start with
    step := step, variant := variant, began := d.now, attempts := d.start.attempts.set step tries } }
  let d := (d.docket step 7 variant tries 0).setWord (pg .boot) (0x104 + 0x10 * step) d.startUs
  (d.setWord (pg .boot) (0x108 + 0x10 * step) 0).setWord (pg .boot) (0x10C + 0x10 * step) (d.start.prev.getD step 0 * 2 ^ 8)

/-- RESULT and VARIANT of every entry as the next start finds them: an entry still running counts
as TIMEOUT (R80). Both in one number, RESULT × 16 + VARIANT. -/
def Dev.docketNow (d : Dev) : NMap Nat :=
  (List.range 0xF).filterMap (fun s =>
    let w := d.word (pg .boot) (0x100 + 0x10 * s)
    let r := bits w 23 20
    if r = 0 then none else some (s, (if r = 7 then 4 else r) * 16 + bits w 19 16))

/-- The step succeeded in this start. -/
def Dev.stepGood (d : Dev) (step : Nat) : Bool :=
  let r := bits (d.word (pg .boot) (0x100 + 0x10 * step)) 23 20
  r == 1 || r == 2

/-- The state of the start sequence after a reset: t0 is now, step 0x01 runs, what retention and flash keep is kept
(R67, R75, R79, R80). An image that started and left step 0x0E unreached has failed step 0x05, which begins at its
next variant (R74). -/
def Dev.restart (d : Dev) : Start :=
  let image := d.stepGood 8 && !d.stepGood 0xE
  let w := d.word (pg .boot) 0x150
  { step := 1, t0 := d.now, began := d.now, released := true,
    top := d.flag (pg .boot) R.BOOT_RETRY_TOP, number := (d.start.number + 1) % 2 ^ 32,
    firstVariant := if image then d.start.firstVariant.set 5 (bits w 19 16 + 1) else d.start.firstVariant,
    attempts := if image then d.start.attempts.set 5 (bits w 15 8) else d.start.attempts,
    prev := if d.start.retention then d.docketNow else d.start.flash.entries,
    flash := d.start.flash, flashOld := d.start.flashOld, retention := true, trimStored := d.start.trimStored }

/-- The words of the main domains that a device reset leaves as they are: SYS_RESET_CAUSE,
SYS_CHAIN (R67, R82), RECOVERIES and FLT_LAST_L4 (R479), the slot record and the rollback fuses (R511, R512), and
the docket until the next start begins (R80). Of the Wax page the contexts go with their owners (R454). -/
def keptWord (k : Nat) : Bool :=
  aoPages.any (fun p => k / pageSpan == p.idx && !(p.kind == .wax && decide (0x800 ≤ k % pageSpan)))
    || k / pageSpan == (pg .boot).idx
    || k == (pg .sys).key 0x200 || k == (pg .sys).key 0x300
    || (k / pageSpan == (pg .upd).idx && decide (0x80 ≤ k % pageSpan) && decide (k % pageSpan ≤ 0xA0))
    || (k / pageSpan == (pg .flt).idx &&
        (let o := k % pageSpan
         (0xC0 ≤ o && o < 0xD0) || (0x100 ≤ o && o < 0x1C0 && o % 16 == 12)))

/-- The always-on pages after a device reset: locks are free, PWR, KEY and WAX are OFF (R46), the
operating point, the power state and the round are those of a start, VID drives code 12 (R358), the
stall record is cleared and the awake timer is loaded (R331). DEDUCED: assumption 6. -/
def Dev.aoReset (d : Dev) : Dev :=
  let d := aoPages.foldl (fun d p =>
    (d.setFld p R.PAGE_LOCK_HELD 0).setFld p R.PAGE_LOCK_OWNER 0) d
  let d := [pg .pwr, pg .key, pg .wax].foldl (fun d p =>
    ((d.setFld p R.PAGE_STAT_STATE 0).setFld p R.PAGE_STAT_PENDING 0).setFld p R.PAGE_CTRL_EN 2) d
  let w := pg .pwr
  let d := (d.setWord w 0x84 0).setWord w 0x8C 0xC00
  let d := d.setFld w R.PWR_STALL_MAX_US 0
  let n := pg .npt
  let d := (d.setFld n R.NPT_SLEEP_STAT_STATE 0).setFld n R.NPT_SLEEP_STAT_GROUPS_AWAKE 0xFF
  d.setFld n R.NPT_AWAKE_LEFT_S (d.fld n R.NPT_MAX_AWAKE_MAX_AWAKE_S)

/-- Counters and their snapshots that a device reset leaves: those of the always-on pages. -/
def keptCount (k : Nat) : Bool := aoPages.any (fun p => k / pageSpan == p.idx)

/-- The device with every main domain at its reset state: what the always-on island, retention and
flash keep is kept (R67, R482). `mainLost` says that the main supplies were lost, which also clears
the event staging (R478). -/
def Dev.mainClear (d : Dev) (mainLost : Bool) : Dev :=
  { now := d.now
    regs := d.regs.filter (fun e => keptWord e.1)
    counts := d.counts.filter (fun e => keptCount e.1)
    snaps := d.snaps.filter (fun e => keptCount e.1)
    out := d.out
    refusals := d.refusals
    drawn := d.drawn
    start := d.start
    supply := d.supply
    pmk := { carried := d.pmk.carried, carriedAt := d.pmk.carriedAt,
             carriedDelta := d.pmk.carriedDelta }
    flt := { staging := if mainLost then [] else d.flt.staging, archive := d.flt.archive,
             archiveSeq := d.flt.archiveSeq, retained := d.flt.retained }
    dst := if mainLost then {} else { mem := d.dst.mem, granules := d.dst.granules, scrubAt := d.dst.scrubAt }
    keys := d.keys
    wax := { d.wax with msgs := [], cur := if d.wax.npWork != 0 then some 7 else if d.wax.keyWork then some 6 else none }
    ccl := { history := d.ccl.history }
    flash := { mem := d.flash.mem, spoiled := d.flash.spoiled }
    cfg := { d.cfg with meanwhile := 0 }
    upd := { d.upd with todo := [], failed := 0 }
    npt := { d.npt with prepMinPassed := false, canceller := none, awakeAt := d.now,
                        relay := d.npt.relay.map (fun r => { r with viaCan1 := false }) }
    armed := d.armed.filter (fun a => aoPages.any (fun p => a.1 == p.idx)) }

/-- Drive a WAKE_EN output (R362). -/
def Dev.wakeEn (d : Dev) (k : Nat) (on : Bool) : Dev :=
  let m := d.supply.enabled
  let m' := if on then m ||| 2 ^ k else m &&& (0xF - 2 ^ k)
  let d := { d with supply := { d.supply with enabled := m' } }
  d.emit (.pin (0x30 + k) (b2n on))

/-- Begin supply sequencing at a group: its enable is asserted and its monitor awaited (R364). -/
def Dev.supplyFrom (d : Dev) (k : Nat) : Dev :=
  let d := d.wakeEn k true
  { d with supply := { d.supply with wait := some k } }

/-- Some group that Slumber and Off switch off is not enabled. -/
def Dev.mainOff (d : Dev) : Bool := d.supply.enabled % 8 != 7

/-- The levels that the always-on island drives while the main domains are not in Run (R526): the mode pins of CAN 0
and CAN 1 by the Night Post (R335) and of every other CAN at STANDBY, the event outputs that no peer shares at their
safe level, CLAIM released. -/
def Dev.pinsDown (d : Dev) : Dev :=
  let t := R.NPT_TRX_MAP_A
  let u := R.NPT_TRX_MAP_B
  let lvl (map st : Nat) : Nat := bits map (7 - 2 * st) (6 - 2 * st)
  let d := d.emit (.pin 0x140 (lvl (d.fld (pg .npt) t) (if d.isOn (pg .npt) then 0 else 2)))
  let d := d.emit (.pin 0x141 (lvl (d.fld (pg .npt) u) (if d.npt.verify.isSome || d.npt.relay.isSome then 0 else 2)))
  let d := (List.range 22).foldl (fun d n => d.modePins (n + 2) 2) d
  let d := (List.range 16).foldl (fun d n =>
    if bitAt (d.fld (pg .adj) R.ADJ_SHARED_EVO_EVO) n then d else d.emit (.pin n (d.safeLevel n))) d
  d.when d.hasClaim (fun d => d.emit (.pin 0x21 1))

/-- What a device reset does to the key store (R439, R442): slots of LIFE RESET are destroyed; where the level of
DBG_EN opens or closes debug, every slot is, and the next step 0x09 after a closing reads the key record. -/
def Dev.keysReset (d : Dev) : Dev :=
  let k := d.keys
  let base := (pg .key).key 0x1000
  let gone (s : Nat) : Bool := k.debug != k.dbgPin || bits (d.word (pg .key) (0x1000 + 8 * s)) 28 27 == 2
  { d with
    regs := d.regs.drop (fun a => decide (base ≤ a) && decide (a < base + 0x800) && gone ((a - base) / 8))
    keys := { k with debug := k.dbgPin, mats := k.mats.drop gone, readRecord := k.readRecord || (k.debug && !k.dbgPin) } }

/-- A device reset with its cause (R67, R68): every main domain is at its reset state and the start sequence begins.
With main supplies switched off they are enabled first, and the start follows their power-on (R364). -/
def Dev.deviceReset (d : Dev) (cause : Fld) (mainLost : Bool := false) : Dev :=
  let d := (d.setFlag (pg .sys) cause true).pinsDown
  let start := d.restart
  let d : Dev := d.mainClear mainLost
  if d.mainOff then
    Dev.supplyFrom { d with start := { d.start with released := false, step := 0 } }
      (if bitAt d.supply.enabled 3 then 0 else 3)
  else
    let flashed := d.start.retention || start.prev.isEmpty
    let d : Dev := { d with start := start, regs := d.regs.drop (fun k => k / pageSpan == (pg .boot).idx) }
    let (n, d) := d.aoReset.keysReset.draw
    let d := d.setFld (pg .fwl) R.FWL_CT_STAT_EPOCH (Config.free n % 65536)
    let d := d.setFld (pg .boot) R.BOOT_START_NUMBER_NUMBER start.number
    let d := d.setFlag (pg .boot) R.BOOT_STATUS_FROM_FLASH (!flashed)
    d.beginStep 1 (d.firstVariantOf 1)

end Sys2Proof.Machine
end

