-- ==== Sys2Proof/Machine/Faults.lean ====
section
/-! DEFINITION. The fault collector (18): raising a fault, its level, isolation, safe state, the
level 4 reset, the records, and leaving a class. -/

namespace Sys2Proof.Machine

/-- A fault as a checker or an event reports it: class, page, checker index (0xFF for an event),
DETAIL, the level S of the raising rule (0 when none is stated), and whether FLT_INJ caused it. -/
structure Raise where
  cls : Nat
  page : Page
  checker : Nat := 0xFF
  detail : Nat := 0
  level : Nat := 0
  injected : Bool := false
  deriving DecidableEq, Repr

/-- The current level L of a class. -/
def Dev.clsLevel (d : Dev) (c : Nat) : Nat := d.fld (pg .flt) (R.FLT_CLS_STAT_LEVEL.at c)

/-- The highest L of all classes. -/
def Dev.topLevel (d : Dev) : Nat := (List.range 12).foldl (fun m c => max m (d.clsLevel c)) 0

/-- The level a fault acts at (R470). -/
def Dev.newLevel (d : Dev) (c s : Nat) : Nat :=
  let f := pg .flt
  let l := d.clsLevel c
  let st := d.fld f (R.FLT_CLS_STAT_STATE.at c)
  if st = 0 then max (d.fld f (R.FLT_CLS_CFG_LEVEL.at c)) s
  else if st = 1 then max (max (min (l + 1) (d.fld f (R.FLT_CLS_CFG_MAX.at c))) l) s
  else max l s

-- ==== records (R476, R477) ====

/-- Anchor 0 time as two words. -/
def Dev.timeWords (d : Dev) : List Nat := [d.time % 2 ^ 32, d.time / 2 ^ 32 % 2 ^ 32]

/-- The chain address (R84). -/
def Dev.addr (d : Dev) : Nat := d.fld (pg .sys) R.SYS_CHAIN_ADDR

/-- Put a record into the archive staging of 256; a full one loses its oldest (R478). -/
def Dev.stageRecord (d : Dev) (r : List Nat) : Dev :=
  if d.flt.staging.length < 256 then { d with flt := { d.flt with staging := d.flt.staging ++ [r] } }
  else ({ d with flt := { d.flt with staging := d.flt.staging.drop 1 ++ [r] } }).cnt (pg .flt) 16

/-- An event record of eight words (R477). -/
def Dev.eventWords (d : Dev) (kind : Nat) (p : Page) (body : List Nat) : List Nat :=
  (kind * 2 ^ 24 + d.addr * 2 ^ 16 + p.kind.type) :: d.timeWords
    ++ (List.range 5).map (fun i => body.getD i 0)

/-- Make an event record: it enters pop window 0 and the staging (R477). -/
def Dev.event (d : Dev) (kind : Nat) (p : Page) (body : List Nat) : Dev :=
  let r := d.eventWords kind p body
  (d.popPush 0 r).stageRecord r

-- ==== FLT_STAT and FLT_SUMMARY ====

/-- FLT_STAT of a page follows the open faults of the page (R471). -/
def Dev.fltStat (d : Dev) (i : Nat) : Dev :=
  let cs := (d.flt.opened.filter (fun o => o.2 == i)).map (·.1)
  let p := Page.ofIdx i
  (d.setFlag p R.FLT_STAT_OPEN (!cs.isEmpty)).setFld p R.FLT_STAT_LEVEL
    (cs.foldl (fun m c => max m (d.clsLevel c)) 0)

/-- FLT_SUMMARY.LEVEL and ACTIVE. -/
def Dev.summary (d : Dev) : Dev :=
  let f := pg .flt
  let act := ((List.range 12).map (fun c =>
    if d.fld f (R.FLT_CLS_STAT_STATE.at c) = 0 then 0 else 2 ^ c)).sum
  (d.setFld f R.FLT_SUMMARY_LEVEL d.topLevel).setFld f R.FLT_SUMMARY_ACTIVE act

/-- FAULT_N is asserted: a class stands at PIN_LEVEL or above, or safe state is in force (R468,
R473). -/
def Dev.faultPin (d : Dev) : Bool :=
  decide (d.fld (pg .flt) R.FLT_OUT_CFG_PIN_LEVEL ≤ d.topLevel) || d.safe

/-- Make a change and show it on the FAULT_N pin, which is low when asserted. -/
def Dev.showPin (d : Dev) (f : Dev → Dev) : Dev :=
  let d' := f d
  if d'.faultPin = d.faultPin then d' else d'.emit (.pin 0x20 (if d'.faultPin then 0 else 1))

-- ==== event output pins (R282 to R284) ====

/-- Change what the Postmark keeps. -/
def Dev.withPmk (d : Dev) (f : Pmk → Pmk) : Dev := { d with pmk := f d.pmk }

/-- What an event output keeps. -/
def Dev.evo (d : Dev) (n : Nat) : Evo := d.pmk.evos.getD n {}

/-- Change it. -/
def Dev.setEvo (d : Dev) (n : Nat) (e : Evo) : Dev := d.withPmk (fun p => { p with evos := p.evos.set n e })

/-- The pin is forced to its safe level (R32, R472). -/
def Dev.evoForced (d : Dev) (n : Nat) : Bool := d.safe || bitAt (d.fld fltPg R.FLT_ISO_PIN_EVO) n

/-- The pin is shared and this unit does not hold the claim (R484): high impedance. -/
def Dev.evoShared (d : Dev) (n : Nat) : Bool :=
  d.isOn adjPg && bitAt (d.fld adjPg R.ADJ_SHARED_EVO_EVO) n && !d.hasClaim

/-- Drive a pin at its pulse level or its idle level, unless something else holds it. -/
def Dev.evoDrive (d : Dev) (n : Nat) (high : Bool) : Dev :=
  let d := d.setEvo n { d.evo n with high := high }
  if d.evoForced n || d.evoShared n then d
  else d.emit (.pin n (b2n (high != d.flag (evoPg n) R.PMK_EVO_CFG_POLARITY)))

/-- An event output whose page is not OFF drives its pin as its configuration directs (R32, R474). -/
def Dev.evoAgain (d : Dev) (n : Nat) : Dev := if d.state (evoPg n) = 0 then d else d.evoDrive n (d.evo n).high

-- ==== isolation (R472) ====

/-- Level 2 isolates the instance of this page. -/
def isolatable (p : Page) : Bool :=
  match p.kind with
  | .prt => true
  | .sch => decide (p.inst ≤ 39)
  | .msc | .can | .lin | .evo => true
  | _ => false

/-- The ports a page's isolation stops. -/
def isoPortsOf (p : Page) : List Nat :=
  match p.kind with
  | .prt => [p.inst]
  | .sch => if p.inst ≤ 39 then [p.inst] else []
  | .msc => (List.range 4).map (· + 4 * p.inst)
  | _ => []

/-- The mask of the isolated instances of one kind. -/
def isoMask (iso : List (Nat × Nat)) (f : Page → List Nat) : Nat :=
  ((iso.flatMap (fun e => f (Page.ofIdx e.2))).eraseDups.map (2 ^ ·)).sum

/-- FLT_ISO_PORT, FLT_ISO_EDGE and FLT_ISO_PIN show what is isolated. -/
def Dev.isoRegs (d : Dev) : Dev :=
  let f := pg .flt
  let i := d.flt.iso
  let d := d.setFld f R.FLT_ISO_PORT_PORTS (isoMask i isoPortsOf)
  let d := d.setFld f R.FLT_ISO_EDGE_CAN (isoMask i (fun p => if p.kind = .can then [p.inst] else []))
  let d := d.setFld f R.FLT_ISO_EDGE_LIN (isoMask i (fun p => if p.kind = .lin then [p.inst] else []))
  d.setFld f R.FLT_ISO_PIN_EVO (isoMask i (fun p => if p.kind = .evo then [p.inst] else []))

/-- Free every copy for a port whose transmitter is forced idle (R472). -/
def Dev.isolatePort (d : Dev) (p : Nat) : Dev :=
  let d := d.abortTx p (fun d t => (d.endOf t.copy).prtCnt p 11)
  d.flushPort p 11

/-- What isolation does at once to the instance of a page. -/
def Dev.isolate (d : Dev) (p : Page) : Dev :=
  match p.kind with
  | .prt | .sch | .msc => (isoPortsOf p).foldl Dev.isolatePort d
  | .can => d.canCut p.inst
  | .evo => d.emit (.pin p.inst (d.safeLevel p.inst))
  | _ => d

/-- What release from isolation does: a controller integrates again, an event output drives its pin. -/
def Dev.unisolate (d : Dev) (i : Nat) : Dev :=
  let p := Page.ofIdx i
  if p.kind = .can then d.setFlag p R.EDG_CAN_STAT_SYNC false else if p.kind = .evo then d.evoAgain p.inst else d

-- ==== safe state (R473, R474) ====

/-- Cut off the frame a CAN controller is sending, counted in TX_SAFE_ABORT. -/
def Dev.safeCan (d : Dev) (n : Nat) : Dev :=
  if (d.can n).wire.isSome then (d.canCut n).cnt (canPg n) 11 else d

/-- End the frame on the wire of a port with an error; a frame released and not begun is held. -/
def Dev.safePort (d : Dev) (p : Nat) : Dev :=
  d.abortTx p (fun d t => d.setTx p (t :: d.txOf p))

/-- Enter safe state: every output is forced (R473). -/
def Dev.safeEnter (d : Dev) : Dev :=
  let d := (List.range 24).foldl Dev.safeCan d
  let d := (List.range 16).foldl (fun d n => d.emit (.pin n (d.safeLevel n))) d
  let d := (List.range 40).foldl Dev.safePort d
  let d := if d.hasClaim then
    ({ d with adj := { d.adj with barred := true } } : Dev).claimDrop else d
  ((d.setFlag (pg .flt) R.FLT_SUMMARY_SAFE true).cnt (pg .flt) 13).raise (pg .flt) 3

/-- Leave safe state: controllers integrate again, frames released before it go first, event outputs drive their pins
(R32, R474). -/
def Dev.safeLeave (d : Dev) : Dev :=
  let d := d.setFlag (pg .flt) R.FLT_SUMMARY_SAFE false
  let d := (d.onPages .can).foldl (fun d n => d.setFlag (canPg n) R.EDG_CAN_STAT_SYNC false) d
  let d := (List.range 40).foldl (fun d p =>
    d.setTx p ((d.txOf p).map (fun t => { t with releasedAt := d.now }))) d
  ((List.range 16).foldl Dev.evoAgain d).raise (pg .flt) 4

-- ==== raising a fault (R470, R475) ====

/-- Word 0 of a fault record (R476). -/
def Raise.word0 (r : Raise) (l : Nat) (esc iso safe : Bool) : Nat :=
  r.cls * 2 ^ 28 + l * 2 ^ 25 + b2n esc * 2 ^ 24 + b2n r.injected * 2 ^ 23 + b2n iso * 2 ^ 22
    + b2n safe * 2 ^ 21 + r.page.kind.type

/-- Word 1 of a fault record. -/
def Raise.word1 (r : Raise) : Nat := r.page.instance_ * 2 ^ 16 + r.checker * 2 ^ 8

/-- Set the class to ACTIVE at a level, count the fault and the episode (R470). -/
def Dev.clsActive (d : Dev) (c l : Nat) : Dev :=
  let f := pg .flt
  let ep := if d.fld f (R.FLT_CLS_STAT_STATE.at c) = 0 then 1
    else min (d.fld f (R.FLT_CLS_STAT_EPISODE.at c) + 1) 0xFFFF
  let d := (d.setFld f (R.FLT_CLS_STAT_STATE.at c) 1).setFld f (R.FLT_CLS_STAT_LEVEL.at c) l
  let d := (d.setFld f (R.FLT_CLS_STAT_EPISODE.at c) ep).setFld f (R.FLT_CLS_STAT_QUIET_DONE.at c) 0
  { d with flt := { d.flt with quiet := d.flt.quiet.set c d.now } }.cnt f c

/-- A fault is raised (R468, R470): class state, page status, interrupt, isolation, safe state,
records, and the device reset of level 4. -/
def Dev.fault (d : Dev) (r : Raise) : Dev :=
  let f := pg .flt
  let l := d.newLevel r.cls r.level
  let esc := d.fld f (R.FLT_CLS_STAT_STATE.at r.cls) == 1 && decide (d.clsLevel r.cls < l)
  let iso := decide (2 ≤ l) && isolatable r.page
  let safe := decide (3 ≤ l) && !d.safe
  let d := d.showPin (fun d =>
    let d := d.clsActive r.cls l
    let d := { d with flt := { d.flt with
      opened := (d.flt.opened.filter (· != (r.cls, r.page.idx))) ++ [(r.cls, r.page.idx)] } }
    let d := d.setFld r.page R.FLT_STAT_CHECKER r.checker
    let d := ((d.flt.opened.map (·.2)).eraseDups).foldl Dev.fltStat d
    let d := d.when safe Dev.safeEnter
    d.summary)
  let d := d.when (decide (1 ≤ l)) (fun d => d.raise f 0)
  let d := d.when esc (fun d => (d.cnt f 14).raise f 1)
  let d := d.when iso (fun d =>
    let d := d.isolate r.page
    let d := { d with flt := { d.flt with
      iso := (d.flt.iso.filter (· != (r.cls, r.page.idx))) ++ [(r.cls, r.page.idx)] } }
    d.isoRegs)
  let w0 := r.word0 l esc iso safe
  let ep := d.fld f (R.FLT_CLS_STAT_EPISODE.at r.cls)
  let d' := d.popPush 1 ([w0, r.word1, r.detail % 2 ^ 32, ep] ++ d.timeWords
    ++ [d.fld (pg .boot) R.BOOT_START_NUMBER_NUMBER, d.addr])
  let d := d'.event 1 r.page [w0, r.word1, r.detail % 2 ^ 32, ep]
  if l = 4 then
    let d := ((d.setFld f R.FLT_LAST_L4_REC0 w0).setFld f R.FLT_LAST_L4_REC1 r.word1).setFld f
      R.FLT_LAST_L4_TIME_NS d.time
    d.deviceReset R.SYS_RESET_CAUSE_FAULT_L4
  else d

/-- A fault whose checker may be armed by FLT_INJ (R143, R480): the injection is used up and marked
in the record. -/
def Dev.check (d : Dev) (p : Page) (c : Nat) : Bool × Dev := (d.isArmed p c, d.disarm p c)

-- ==== leaving a class (R471) ====

/-- The class leaves to NORMAL: its instances are released unless another class holds them, safe
state ends when no class stands at level 3. -/
def Dev.clsLeave (d : Dev) (c : Nat) : Dev :=
  let f := pg .flt
  let d := d.showPin (fun d =>
    let d := ((d.setFld f (R.FLT_CLS_STAT_STATE.at c) 0).setFld f (R.FLT_CLS_STAT_LEVEL.at c) 0).setFld f
      (R.FLT_CLS_STAT_QUIET_DONE.at c) 0
    let d := d.incSat f (R.FLT_CLS_RECOV_RECOVERIES.at c)
    let pages := ((d.flt.opened.filter (fun o => o.1 == c)).map (·.2)).eraseDups
    let held := ((d.flt.iso.filter (fun o => o.1 == c)).map (·.2)).eraseDups
    let d := { d with flt := { d.flt with
      opened := d.flt.opened.filter (fun o => o.1 != c), iso := d.flt.iso.filter (fun o => o.1 != c),
      quiet := d.flt.quiet.erase c } }
    let d := pages.foldl Dev.fltStat d
    let freed := held.filter (fun i => !(d.flt.iso.any (fun o => o.2 == i)))
    let d := freed.foldl Dev.unisolate d.isoRegs
    let d := d.when (d.safe && decide (d.topLevel < 3)) Dev.safeLeave
    d.summary)
  (d.raise f 2).event 7 f [c, d.fld f (R.FLT_CLS_RECOV_RECOVERIES.at c)]

end Sys2Proof.Machine
end

