-- ==== Sys2Proof/Machine/DmaOps.lean ====
section
/-! DEFINITION. DMA queues (R384 to R393): rings, writebacks, interrupt moderation, failures. -/

namespace Sys2Proof.Machine

/-- Queue `i`: receive queues are 0 to 63, transmit queues 64 to 127. -/
def Dev.dmaQ (d : Dev) (i : Nat) : DmaQ := d.dma.qs.getD i {}

/-- Change it. -/
def Dev.setDmaQ (d : Dev) (i : Nat) (q : DmaQ) : Dev := { d with dma := { d.dma with qs := d.dma.qs.set i q } }

/-- A field of a queue's registers. -/
def Dev.qf (d : Dev) (i : Nat) (f : Fld) : Nat := d.fld dmaPg (f.at i)

/-- STATE of a queue. -/
def Dev.qState (d : Dev) (i : Nat) : Nat := d.qf i R.DMA_Q_STAT_STATE

/-- Descriptors the device owns (R386). -/
def Dev.qOwned (d : Dev) (i : Nat) : Nat :=
  let n := d.qf i R.DMA_Q_CFG_SIZE
  (d.qf i R.DMA_Q_TAIL_TAIL + n - d.qf i R.DMA_Q_HEAD_HEAD) % n

/-- Those it can use: a lost descriptor reduces its ring (R226). -/
def Dev.qUsable (d : Dev) (i : Nat) : Nat := d.qOwned i - (d.dmaQ i).lost

/-- The IOVA of the descriptor `k` places after HEAD. -/
def Dev.descAt (d : Dev) (i k : Nat) : Nat :=
  let n := d.qf i R.DMA_Q_CFG_SIZE
  d.qf i R.DMA_Q_BASE_IOVA + (if i < 64 then 64 else 32) * ((d.qf i R.DMA_Q_HEAD_HEAD + k) % n)

/-- HEAD advances by `k` descriptors. -/
def Dev.qAdvance (d : Dev) (i k : Nat) : Dev :=
  d.setFld dmaPg (R.DMA_Q_HEAD_HEAD.at i) ((d.qf i R.DMA_Q_HEAD_HEAD + k) % d.qf i R.DMA_Q_CFG_SIZE)

/-- Counter `k` of a queue (R393). -/
def Dev.qCount (d : Dev) (i k : Nat) (n : Nat := 1) : Dev := d.addCount dmaPg (0x3000 + 0x20 * i + 8 * k) n

/-- A queue changes its STATE (R385). -/
def Dev.setQState (d : Dev) (i st : Nat) : Dev :=
  if d.qState i = st then d else (d.setFld dmaPg (R.DMA_Q_STAT_STATE.at i) st).raise dmaPg 1

/-- Request OFF of a queue as its enable state machine takes it (R46): ON goes to STOPPING. -/
def Dev.qStop (d : Dev) (i : Nat) : Dev :=
  if d.qState i = 2 then d.setQState i 3
  else if d.qState i = 1 then d.setFld dmaPg (R.DMA_Q_STAT_PENDING.at i) 2 else d

/-- Why the device cannot send a write to the host now (R381), as CAUSE and as ERR (R390). -/
def Dev.hostBarred (d : Dev) : Option (Nat × Nat) :=
  if !d.pcie.busMaster then some (0x20, 1) else if !d.pcie.linkUp then some (0x21, 2) else none

/-- One access of a queue fails (R390): ERR is set, the queue stops; a failed write is logged. -/
def Dev.qFail (d : Dev) (i err addr : Nat) (logged : Option Nat) : Dev :=
  let d := (d.setFld dmaPg (R.DMA_Q_STAT_ERR.at i) err).setFld dmaPg (R.DMA_Q_ERR_ADDR_IOVA.at i) addr
  let d := d.raise dmaPg 0
  let d := match logged with
    | some cause => (d.pwEntry (if i < 64 then 4 else 5) 0 cause (i % 64) addr 0 false).raise (pg .hbr) 0
    | none => d
  d.qStop i

/-- An EOP writeback is issued: it is announced now, or the timer announces it (R392). -/
def Dev.qAnnounce (d : Dev) (i : Nat) : Dev :=
  let q := d.dmaQ i
  let n := q.unann + 1
  let at0 := if q.unann = 0 then d.now else q.timerAt
  if d.qf i R.DMA_Q_IRQ_EN = 1 && (d.qf i R.DMA_Q_IRQ_ITR_US = 0 || d.qf i R.DMA_Q_IRQ_COUNT ≤ n) then
    (d.setDmaQ i { q with unann := 0 }).sendMsix (d.qf i R.DMA_Q_IRQ_VECTOR)
  else d.setDmaQ i { q with unann := n, timerAt := at0 }

/-- The moderation timer of a queue expires, ITR_US µs after it started (R392). -/
def Dev.qTimer (d : Dev) (i : Nat) : Dev :=
  let q := d.dmaQ i
  let due := decide (q.timerAt + d.qf i R.DMA_Q_IRQ_ITR_US * usTicks ≤ d.now)
  if q.unann ≠ 0 && d.qf i R.DMA_Q_IRQ_EN = 1 && due then
    (d.setDmaQ i { q with unann := 0 }).sendMsix (d.qf i R.DMA_Q_IRQ_VECTOR)
  else d

-- ==== reception (R387, R388) ====

/-- Four bytes of a word. -/
def w4 (w : Nat) : List Byte := leBytes 4 w

/-- The result of R138, words 0 to 3. -/
def Res.words (r : Res) : List Nat :=
  [r.destType * 2 ^ 28 + r.dest * 2 ^ 16 + r.queue * 2 ^ 13 + b2n r.revocable * 2 ^ 12 + r.edition * 2 ^ 4
      + r.source,
   r.meter,
   r.zoneSrc * 2 ^ 27 + r.zoneDst * 2 ^ 22 + r.fwVerdict * 2 ^ 19 + b2n r.mirrorEn * 2 ^ 18
      + r.mirrorSession * 2 ^ 14 + b2n r.patHit * 2 ^ 13 + b2n r.deep * 2 ^ 12 + r.patId,
   r.rule * 2 ^ 16 + r.fwReason * 2 ^ 8 + r.parseErr]

/-- Bytes of one buffer of a receive queue. -/
def Dev.bufLen (d : Dev) (i : Nat) : Nat := 256 * d.qf i R.DMA_Q_CFG_UNITS

/-- Descriptors a frame of `len` bytes needs. -/
def Dev.descsFor (d : Dev) (i len : Nat) : Nat := (len + d.bufLen i - 1) / d.bufLen i

/-- A frame for receive queue `i` stays at the head of its egress queue (R388). -/
def Dev.rxHolds (d : Dev) (i len : Nat) : Bool :=
  d.qState i == 2 && d.qf i R.DMA_Q_CFG_DROP_FULL == 0 && decide (d.qUsable i < d.descsFor i len)

/-- The 64 bytes of a receive descriptor: place `k` of `n`, bytes in this buffer (R387). -/
def rxDesc (f : Frm) (k n len : Nat) : List Byte :=
  let eop := k + 1 = n
  let w0 := 2 ^ 31 + b2n eop * 2 ^ 30 + b2n (k == 0) * 2 ^ 29 + len
  let (s0, s1) := if f.inPort < 40 then (f.stamp0, f.stamp1) else (0, 0)
  let ws := if eop then
      [w0, f.inPort * 2 ^ 16 + f.data.length, 0, 0] ++ f.res.words
        ++ [s0 / 4 % 2 ^ 32, s0 / 2 ^ 34 % 2 ^ 32, s1 / 4 % 2 ^ 32, s1 / 2 ^ 34 % 2 ^ 32, s0 % 4 * 4 + s1 % 4, 0, 0, 0]
    else w0 :: List.replicate 15 0
  ws.flatMap w4

/-- A frame released to port 41 goes to receive queue `i` (R387, R388). -/
def Dev.dmaRx (d : Dev) (i : Nat) (f : Frm) (h : HostSide) : Dev :=
  let len := f.data.length
  let n := d.descsFor i len
  if d.qState i ≠ 2 then d.qCount i 3
  else if d.qUsable i < n then d.qCount i 2
  else match d.hostBarred, h.fail with
    | some (cause, err), _ => d.qFail i err (h.bufs.getD 0 0) (some cause)
    | none, some (err, addr, cause) => d.qFail i err addr cause
    | none, none =>
      let b := d.bufLen i
      let iova (k : Nat) : Nat := h.bufs.getD k 0 / 64 * 64
      let d' := (List.range n).foldl (fun d k => d.emit (.hostWrite (iova k) (slice f.data (k * b) b))) d
      let d' := (List.range n).foldl (fun x k =>
        x.emit (.hostWrite (d.descAt i k) (rxDesc f k n (slice f.data (k * b) b).length))) d'
      (((d'.qAdvance i n).qCount i 0).qCount i 1 len).qAnnounce i

-- ==== transmission (R389, R390) ====

/-- The queue is ON, or finishes, and has descriptors that no read has taken. -/
def Dev.txHas (d : Dev) (q : Nat) : Bool :=
  d.qState (64 + q) == 2 && decide ((d.dmaQ (64 + q)).fetched < d.qUsable (64 + q))

/-- One visit of the round of R390 after another: the queue that is served, with its deficit paid. A
queue gains its quantum as the round comes to it. -/
def Dev.drr (d : Dev) (next : List TxNext) : Nat → Option TxNext × Dev
  | 0 => (none, d)
  | fuel + 1 =>
    let q := d.dma.ptr
    let step (d : Dev) : Dev := { d with dma := { d.dma with ptr := (q + 1) % 64 } }
    match next.find? (fun n => n.q == q && d.txHas q) with
    | none => Dev.drr (step (d.setDmaQ (64 + q) { d.dmaQ (64 + q) with deficit := 0 })) next fuel
    | some n =>
      let len := (n.descs.map (·.len)).sum
      let st := d.dmaQ (64 + q)
      if len ≤ st.deficit then (some n, d.setDmaQ (64 + q) { st with deficit := st.deficit - len })
      else
        let d := d.setDmaQ (64 + q) { st with deficit := st.deficit + 256 * d.qf (64 + q) R.DMA_Q_CFG_UNITS }
        Dev.drr (step d) next fuel

/-- Port 41 takes a frame of `len` bytes from the host: at 64 Gbit/s, 16 bits in a sub-cycle, with 20 bytes of preamble
and gap it has credit for the next one that much later (R14). -/
def Dev.hostCredit (d : Dev) (len : Nat) : Dev :=
  { d with dma := { d.dma with freeAt := d.now + (8 * (len + 20) + 15) / 16 } }

/-- A queue's next frame is read (R389, R390), once port 41 has credit for it (R14). -/
def Dev.dmaFetch (d : Dev) (next : List TxNext) : Dev :=
  if d.state dmaPg ≠ 2 || decide (d.now < d.dma.freeAt) || d.stalled 0x0D 0 then d
  else
    let (pick, d) := d.drr next (64 * 128)
    match pick with
    | none => d
    | some n =>
      let i := 64 + n.q
      match n.fail with
      | some (err, addr) => d.qFail i err addr none
      | none =>
        match d.hostBarred with
        | some (_, err) => d.qFail i err (d.descAt i (d.dmaQ i).fetched) none
        | none =>
          let data := n.descs.flatMap (fun x => x.bytes.take x.len)
          let bad := decide (9212 < data.length) || decide (16 < n.descs.length) || n.descs.any (fun x => x.len == 0)
          let r : TxRead :=
            { data := data ++ List.replicate (60 - data.length) 0, descs := n.descs.length,
              ts := (n.descs.getLast?.map (·.ts)).getD false, bad := bad }
          let q := d.dmaQ i
          (d.setDmaQ i { q with fetched := q.fetched + r.descs, reads := q.reads ++ [r] }).hostCredit r.data.length

/-- The 32 bytes of an EOP descriptor written back (R389). -/
def txDesc (w : TxWb) : List Byte :=
  let st := w.status.getD 0
  let (t, p) := w.stamp.getD (0, 0)
  let ws := [2 ^ 31 + st * 2 ^ 28, 0, 0, 0] ++
    (if w.stamp.isSome then [t / 4 % 2 ^ 32, t / 2 ^ 34 % 2 ^ 32, p * 2 ^ 8 + t % 4] else [0, 0, 0]) ++ [0]
  ws.flatMap w4

/-- Issue the writebacks at the head of a transmit ring whose STATUS is known, in ring order. -/
def Dev.txFlush (d : Dev) (i : Nat) : Nat → Dev
  | 0 => d
  | fuel + 1 =>
    let q := d.dmaQ i
    match q.wbs with
    | [] => d
    | w :: ws =>
      if w.status.isNone then d
      else
        let addr := d.descAt i (w.descs - 1)
        let d := d.setDmaQ i { q with wbs := ws, fetched := q.fetched - w.descs }
        match d.hostBarred with
        | some (cause, err) => Dev.txFlush ((d.qFail i err addr (some cause)).qAdvance i w.descs) i fuel
        | none =>
          Dev.txFlush (((d.emit (.hostWrite addr (txDesc w))).qAdvance i w.descs).qAnnounce i) i fuel

/-- Append a writeback and issue what can be issued. -/
def Dev.txWrite (d : Dev) (i : Nat) (w : TxWb) : Dev :=
  let q := d.dmaQ i
  (d.setDmaQ i { q with wbs := q.wbs ++ [{ w with since := d.now }] }).txFlush i (q.wbs.length + 1)

/-- Settle the writebacks that await frame `id` with a STATUS. -/
def Dev.txSettle (d : Dev) (id status : Nat) (stamp : Option (Nat × Nat)) : Dev :=
  (d.dma.qs.filter (fun e => e.2.wbs.any (fun w => w.frm == some id))).foldl (fun d e =>
    let q := d.dmaQ e.1
    let ws := q.wbs.map (fun w => if w.frm == some id && w.status.isNone then
      { w with status := some status, stamp := stamp } else w)
    (d.setDmaQ e.1 { q with wbs := ws }).txFlush e.1 ws.length) d

/-- A frame is still inside the device. -/
def Dev.inside (d : Dev) (id : Nat) : Bool :=
  (d.hall.held.get? id).isSome || (d.hall.stored.get? id).isSome
    || d.bur.flights.any (fun f => f.frm.id == id)
    || d.hall.queues.any (fun e => e.2.all.any (fun c => c.frm.id == id))
    || d.hall.tx.any (fun e => e.2.any (fun t => t.copy.frm.id == id))

/-- Writebacks whose frame has lost every copy end with DISCARDED (R389). -/
def Dev.dmaSettle (d : Dev) : Dev :=
  let ids := d.dma.qs.flatMap (fun e => e.2.wbs.filterMap (fun w => if w.status.isNone then w.frm else none))
  (ids.filter (fun id => !d.inside id)).foldl (fun d id => d.txSettle id 1 none) d

end Sys2Proof.Machine
end

