-- ==== Sys2Proof/Machine/PortOps.lean ====
section
/-! DEFINITION. Shared operations of the Ethernet ports (04): link state, MAC merge verification and
TC10. -/

namespace Sys2Proof.Machine

/-- Every condition of UP holds (R96). -/
def Dev.linkGood (d : Dev) (n : Nat) : Bool :=
  let p := prtPg n
  d.flag p R.PRT_LINK_STAT_PCS_LOCK && d.flag p R.PRT_LINK_STAT_PHY_UP
    && !d.flag p R.PRT_LINK_STAT_LOCAL_FAULT && !d.flag p R.PRT_LINK_STAT_REMOTE_FAULT
    && (!d.flag p R.PRT_MODE_AN || d.flag p R.PRT_LINK_STAT_AN_DONE)

/-- The port runs an interface with link fault signalling (R87, R97). -/
def Dev.hasFaultSignal (d : Dev) (n : Nat) : Bool :=
  let i := d.fld (prtPg n) R.PRT_MODE_IF
  i == 1 || i == 2 || i == 3

/-- MAC merge ACTIVE follows EN, UP and verification (R101). -/
def Dev.mmActive (d : Dev) (n : Nat) : Dev :=
  let p := prtPg n
  let on := d.flag p R.PRT_MM_EN && d.flag p R.PRT_LINK_STAT_UP
    && (d.flag p R.PRT_MM_VERIFY_DIS || d.fld p R.PRT_MM_STAT_VERIFY == 3)
  d.setFlag p R.PRT_MM_STAT_ACTIVE on

/-- Verification begins again (R100, R101): initial, or disabled. -/
def Dev.mmRestart (d : Dev) (n : Nat) : Dev :=
  let p := prtPg n
  let v := if d.flag p R.PRT_MM_EN && !d.flag p R.PRT_MM_VERIFY_DIS then 1 else 0
  ((d.setFld p R.PRT_MM_STAT_VERIFY v).setPort n { d.port n with verifyTries := 0 }).mmActive n

/-- DETAIL of a LINK fault (R476): PHY down, PCS lock lost, remote fault, local fault. -/
def Dev.linkDetail (d : Dev) (n : Nat) : Nat :=
  let p := prtPg n
  8 * b2n (!d.flag p R.PRT_LINK_STAT_PHY_UP) + 4 * b2n (!d.flag p R.PRT_LINK_STAT_PCS_LOCK)
    + 2 * b2n (d.flag p R.PRT_LINK_STAT_REMOTE_FAULT) + b2n (d.flag p R.PRT_LINK_STAT_LOCAL_FAULT)

/-- The TC10 state of a port (R105): 0 AWAKE, 1 SLEEP_PENDING, 2 ASLEEP, 3 WAKING. -/
def Dev.tc10 (d : Dev) (n : Nat) : Nat := d.fld (prtPg n) R.PRT_LINK_STAT_TC10

/-- Cut the frame on the wire and free what is queued, counted in TX_STOP_DISCARD: link down while
draining (R95). -/
def Dev.drainLost (d : Dev) (n : Nat) : Dev :=
  (d.abortTx n (fun d t => (d.endOf t.copy).prtCnt n 12)).flushPort n 12

/-- The link of an ON port goes down (R98). -/
def Dev.linkDown (d : Dev) (n : Nat) : Dev :=
  let p := prtPg n
  let d := d.abortTx n (fun d t => d.requeue n t)
  let d := (d.prtCnt n 14).raise p 1
  let d := d.when (!d.flag p R.PRT_CTRL_LINK_DOWN_HOLD) (fun d => d.flushPort n 11)
  d.fault { cls := 7, page := p, detail := d.linkDetail n }

/-- UP falls (R95, R98, R106). -/
def Dev.upFalls (d : Dev) (n : Nat) : Dev :=
  let p := prtPg n
  let d := (d.setFlag p R.PRT_LINK_STAT_UP false).mmActive n
  if d.state p = 3 then d.drainLost n
  else if d.tc10 n = 1 || d.tc10 n = 2 then d.when (d.port n).tc10Drain (fun d => d.drainLost n)
  else if d.isOn p then d.linkDown n else d

/-- After a change of a link condition: UP falls where it no longer holds (R96). -/
def Dev.linkCheck (d : Dev) (n : Nat) : Dev :=
  if d.flag (prtPg n) R.PRT_LINK_STAT_UP && !d.linkGood n then d.upFalls n else d

/-- Write a TC10 value to the PHY of a port (R105). -/
def Dev.tc10Write (d : Dev) (n v : Nat) : Dev :=
  let p := prtPg n
  d.emit (.tc10 n (d.fld p R.PRT_PHY_MASTER) (d.fld p R.PRT_PHY_PHYAD) (d.word p 0xD0) v)

/-- Set the TC10 state. -/
def Dev.setTc10 (d : Dev) (n st : Nat) : Dev := d.setFld (prtPg n) R.PRT_LINK_STAT_TC10 st

/-- Reopen admission (R105). -/
def Dev.reopen (d : Dev) (n : Nat) : Dev :=
  d.setPort n { d.port n with closed := false, tc10Drain := false }

/-- The PHY of the port sleeps or is being woken (R105, R106). -/
def Dev.tc10Down (d : Dev) (n : Nat) : Bool := d.tc10 n == 2 || d.tc10 n == 3

/-- The port page starts: PHY_UP reads 1 while the port is not polled, and without auto-negotiation SPEED is the speed
in force (R88). POLL_EN alone says whether a port is polled. DESIGN CHOICE: assumption 144. -/
def Dev.portStart (d : Dev) (n : Nat) : Dev :=
  let p := prtPg n
  let d := d.setFlag p R.PRT_LINK_STAT_PHY_UP (!d.flag p R.PRT_PHY_POLL_EN)
  d.when (!d.flag p R.PRT_MODE_AN) (fun d => d.setFld p R.PRT_LINK_STAT_RES_SPEED (d.fld p R.PRT_MODE_SPEED))

/-- A write of PRT_PHY: a port that is no longer polled shows PHY_UP = 1 (R88). -/
def Dev.phyWritten (d : Dev) (n : Nat) : Dev :=
  d.when (d.state (prtPg n) != 0 && !d.flag (prtPg n) R.PRT_PHY_POLL_EN) (fun d =>
    d.setFlag (prtPg n) R.PRT_LINK_STAT_PHY_UP true)

/-- The TC10 control registers of a port are configured (R320). DEDUCED: assumption 7. -/
def Dev.hasTc10 (d : Dev) (n : Nat) : Bool :=
  d.word (prtPg n) 0xD0 != 0 || d.word (prtPg n) 0xD8 != 0

/-- Begin the drain toward TC10 sleep from AWAKE (R105). -/
def Dev.tc10Sleep (d : Dev) (n : Nat) : Dev :=
  if d.isOn (prtPg n) && d.tc10 n == 0 then
    (d.setTc10 n 1).setPort n { d.port n with closed := true, tc10Drain := true }
  else d

/-- Wake an asleep PHY (R105). -/
def Dev.tc10Wake (d : Dev) (n : Nat) : Dev :=
  if d.isOn (prtPg n) && d.tc10 n == 2 then
    (d.setTc10 n 3).tc10Write n (d.fld (prtPg n) R.PRT_TC10_VAL_WAKE_VALUE)
  else d

/-- The drain is over: what is still queued is freed and SLEEP_VALUE is written (R95, R105). -/
def Dev.tc10Drained (d : Dev) (n : Nat) : Dev :=
  if (d.port n).tc10Drain then
    let d := (d.setPort n { d.port n with tc10Drain := false }).flushPort n 12
    d.tc10Write n (d.fld (prtPg n) R.PRT_TC10_VAL_SLEEP_VALUE)
  else d

/-- UP is set (R96): TC10 states that wait for it end, verification begins. -/
def Dev.upRises (d : Dev) (n : Nat) : Dev :=
  let p := prtPg n
  let d := (d.setFlag p R.PRT_LINK_STAT_UP true).raise p 0
  let d := d.when (d.tc10 n == 2 || d.tc10 n == 3) (fun d => (d.setTc10 n 0).reopen n)
  d.mmRestart n

/-- The kinds of a poll's TC10 status (R105): asleep, or the partner's request. -/
def Dev.tc10Status (d : Dev) (n v : Nat) : Dev :=
  let p := prtPg n
  if d.tc10 n = 1 then
    if bitAt v (d.fld p R.PRT_TC10_BITS_ASLEEP_BIT) then (d.setTc10 n 2).raise p 5 else d
  else if d.tc10 n = 0 then
    if bitAt v (d.fld p R.PRT_TC10_BITS_REQ_BIT) then
      if d.flag p R.PRT_TC10_CTRL_ACCEPT_REMOTE then d.tc10Sleep n
      else (d.tc10Write n (d.fld p R.PRT_TC10_VAL_WAKE_VALUE)).raise p 6
    else d
  else d

/-- 50 ms in SLEEP_PENDING pass without ASLEEP_BIT (R105). -/
def Dev.tc10SleepTime (d : Dev) (n : Nat) : Dev :=
  if d.tc10 n = 1 then
    (((d.setTc10 n 0).tc10Write n (d.fld (prtPg n) R.PRT_TC10_VAL_WAKE_VALUE)).reopen n).raise (prtPg n) 6
  else d

/-- 100 ms in WAKING pass without UP (R105): R98 applies. -/
def Dev.tc10WakeTime (d : Dev) (n : Nat) : Dev :=
  if d.tc10 n = 3 then ((d.setTc10 n 0).reopen n).linkDown n else d

-- ==== MDIO masters (R104) ====

/-- Run an MDIO command on master `m` from a value written to PRT_MDIO_CMD; refused while one runs
or with a reserved OP. -/
def Dev.mdioGo (d : Dev) (m v : Nat) : Dev :=
  let p := prtPg 0
  let op := bits v 29 28
  if d.flag p (R.PRT_MDIO_STAT_BUSY.at m) || 2 ≤ op then d.refuse p
  else
    let d := d.setWord p (0x804 + 0x40 * m) (v % 2 ^ 30 &&& (0xFFFFFFFF - 0x10000))
    let r : MdioRun := { write := op == 0, c45 := bitAt v 27, phyad := bits v 26 22,
                         devad := bits v 21 17, reg := bits v 15 0,
                         data := d.fld p (R.PRT_MDIO_DATA_DATA.at m) }
    let d := { d with mdio := d.mdio.set m r }
    (d.setFlag p (R.PRT_MDIO_STAT_BUSY.at m) true).emit
      (.mdio m r.write r.c45 r.phyad r.devad r.reg (if r.write then r.data else 0))

/-- An MDIO command finishes; a read leaves what the PHY answered (R104). -/
def Dev.mdioEnd (d : Dev) (m answer : Nat) : Dev :=
  let p := prtPg 0
  match d.mdio.get? m with
  | none => d
  | some r =>
    let d := { d with mdio := d.mdio.erase m }
    let d := d.when (!r.write) (fun d => d.setFld p (R.PRT_MDIO_DATA_DATA.at m) answer)
    ((d.setFlag p (R.PRT_MDIO_STAT_BUSY.at m) false).setFlag p
      (R.PRT_MDIO_STAT_DONE.at m) true).raise p 8

/-- A poll frame reads the register of a port's PHY that a word names in the layout of PRT_PHY (R104, R105). -/
def Dev.pollFrame (d : Dev) (n w : Nat) : Dev :=
  let p := prtPg n
  d.emit (.mdio (d.fld p R.PRT_PHY_MASTER) false (bitAt w 30) (d.fld p R.PRT_PHY_PHYAD) (bits w 22 18) (bits w 15 0) 0)

/-- One port of a poll (R104): PHY_UP from the polled value, then the TC10 status. -/
def Dev.pollPort (d : Dev) (n phy status : Nat) : Dev :=
  let p := prtPg n
  let d := d.when (d.flag p R.PRT_PHY_POLL_EN) (fun d =>
    let d := d.pollFrame n (d.word p 0xC0)
    let up := (phy &&& d.fld p R.PRT_PHY_MATCH_MASK) == d.fld p R.PRT_PHY_MATCH_MATCH
    (d.setFlag p R.PRT_LINK_STAT_PHY_UP up).linkCheck n)
  d.when (d.hasTc10 n) (fun d => (d.pollFrame n (d.word p 0xD8)).tc10Status n status)

end Sys2Proof.Machine
end

