-- ==== Sys2Proof/Machine/WakeOps.lean ====
section
/-! DEFINITION. Wake sources, the wake latch, sleep rounds and the awake timer (R316 to R334). -/

namespace Sys2Proof.Machine

/-- The NPT page. -/
abbrev nptPg : Page := ⟨.npt, 0⟩

/-- State of the sleep round (R320): 0 AWAKE, 1 PREPARE, 2 COMMITTED, 3 ASLEEP, 4 EXITING. -/
def Dev.round (d : Dev) : Nat := d.fld nptPg R.NPT_SLEEP_STAT_STATE

/-- Set it. -/
def Dev.setRound (d : Dev) (st : Nat) : Dev := d.setFld nptPg R.NPT_SLEEP_STAT_STATE st

/-- Change what the sleep, wake and Night Post logic keeps. -/
def Dev.withNpt (d : Dev) (f : Npt → Npt) : Dev := { d with npt := f d.npt }

/-- The target of the round is Slumber. -/
def Dev.toSlumber (d : Dev) : Bool := d.fld nptPg R.NPT_SLEEP_STAT_TARGET == 2

/-- The main domains serve: no reset is held, the device is not Off, and the round has not taken
them out of Run (R325, R326, R350). -/
def Dev.mainRun (d : Dev) : Bool :=
  let r := d.round
  d.start.released && d.fld (pg .pwr) R.PWR_STATE_STAT_CUR != 4
    && (r == 0 || r == 1
      || (r == 2 && decide (d.now < d.npt.commitAt + 850 * usTicks))
      || (r == 4 && decide (d.npt.exitAt + (if d.toSlumber then 6 else 1) * msTicks ≤ d.now)))

/-- A USE source is active (R331). -/
def Dev.inUse (d : Dev) : Bool :=
  (List.range 8).any (fun s => d.flag nptPg (R.NPT_SRC_CFG_EN.at s)
    && d.flag nptPg (R.NPT_SRC_CFG_USE.at s) && d.flag nptPg (R.NPT_SRC_STAT_ACTIVE.at s))

/-- The awake timer counts (R331). -/
def Dev.awakeCounts (d : Dev) : Bool := (d.round == 0 || d.round == 1) && !d.inUse

/-- Seconds left of the awake timer now. -/
def Dev.awakeLeft (d : Dev) : Nat :=
  let left := d.fld nptPg R.NPT_AWAKE_LEFT_S
  if d.awakeCounts then left - (d.now - d.npt.awakeAt) / (1000 * msTicks) else left

/-- Make a change that may stop or restart the awake timer, keeping what is left. -/
def Dev.awakeHold (d : Dev) (f : Dev → Dev) : Dev :=
  let left := d.awakeLeft
  (f (d.setFld nptPg R.NPT_AWAKE_LEFT_S left)).withNpt (fun n => { n with awakeAt := d.now })

/-- Load the awake timer (R331). -/
def Dev.awakeLoad (d : Dev) : Dev :=
  (d.setFld nptPg R.NPT_AWAKE_LEFT_S (d.fld nptPg R.NPT_MAX_AWAKE_MAX_AWAKE_S)).withNpt
    (fun n => { n with awakeAt := d.now })

-- ==== quarantine and offender records (R332 to R334) ====

/-- The carried anchor 0 time in ns (R287). -/
def Dev.carriedNs (d : Dev) : Nat :=
  (d.pmk.carried + (d.now - d.pmk.carriedAt) * (subPerNs / 4)) / subPerNs

/-- Make an offender record: the newest entry replaces the oldest (R334). -/
def Dev.offender (d : Dev) (source cause node : Nat) : Dev :=
  let i := (d.fld nptPg R.NPT_OFFENDER_HEAD_HEAD + 1) % 8
  let w := if source < 48 then d.fld nptPg (R.NPT_SRC_STAT_WAKES_HOUR.at source) else 0
  let d := d.setFld nptPg R.NPT_OFFENDER_HEAD_HEAD i
  let d := d.setWord nptPg (0x600 + 0x10 * i) (2 ^ 31 + source * 2 ^ 16 + cause * 2 ^ 8 + node)
  let d := d.setWord nptPg (0x604 + 0x10 * i) w
  d.setWide nptPg (0x608 + 0x10 * i) d.carriedNs

/-- Start the quarantine of a source (R333). -/
def Dev.quarantine (d : Dev) (s : Nat) : Dev :=
  let d := d.setFlag nptPg (R.NPT_SRC_STAT_QUAR.at s) true
  let d := d.setFld nptPg (R.NPT_SRC_STAT_QUAR_LEFT.at s) (d.fld nptPg R.NPT_MAX_AWAKE_QUAR_MIN)
  (d.withNpt (fun n => { n with quarAt := n.quarAt.set s d.now })).raise nptPg 5

/-- End the quarantine of a source. -/
def Dev.quarEnd (d : Dev) (s : Nat) : Dev :=
  let d := d.setFlag nptPg (R.NPT_SRC_STAT_QUAR.at s) false
  (d.setFld nptPg (R.NPT_SRC_STAT_QUAR_LEFT.at s) 0).withNpt
    (fun n => { n with quarAt := n.quarAt.erase s })

/-- Every quarantine ends (R333). -/
def Dev.quarEndAll (d : Dev) : Dev :=
  ((List.range 48).foldl (fun d s => d.when (d.flag nptPg (R.NPT_SRC_STAT_QUAR.at s))
    (fun d => d.quarEnd s)) d).withNpt (fun n => { n with stayQuar := [] })

-- ==== members that wake and sleep (R328, R329) ====

/-- After a change of the groups awake or of their lists, from the device as it was: transceivers take the state they
want, ports kept asleep are put to sleep, ports that no longer are or that `wake` names are sent wake. -/
def Dev.members (d was : Dev) (wake : Member → Bool) : Dev :=
  let d := (d.onPages .can).foldl Dev.trxUpdate d
  (List.range 40).foldl (fun d p =>
    if d.keptAsleep (.port p) then d.when (d.hasTc10 p) (fun d => d.tc10Sleep p)
    else d.when (was.keptAsleep (.port p) || wake (.port p)) (fun d => d.tc10Wake p)) d

/-- Set the groups that are awake. -/
def Dev.setGroups (d : Dev) (g : Nat) : Dev := d.setFld nptPg R.NPT_SLEEP_STAT_GROUPS_AWAKE g

-- ==== the round (R320 to R326) ====

/-- The words of a SLEEP event record (R477). -/
def Dev.sleepEvent (d : Dev) : Dev := d.event 4 nptPg [d.word nptPg 0x108, d.word nptPg 0x148]

/-- At the commit point a joined unit releases the claim and returns to SEEKING (R501); who relays until Run
is settled (R502). -/
def Dev.pairSleep (d : Dev) : Dev :=
  let a := pg .adj
  let st := d.fld a R.ADJ_STAT_STATE
  let joined := d.isOn a && 3 ≤ st && st ≤ 5
  let d := d.withNpt (fun n => { n with peerRelays := joined && !d.flag a R.ADJ_CFG_NP_OWNER })
  if d.isOn a && 2 ≤ st && st ≤ 6 then
    (d.adjPut 1).claimDrop
  else d

/-- A commit point ends a scheduled activation, RESULT CANCELLED (R515). -/
def Dev.schedEnd (d : Dev) : Dev :=
  let u := pg .upd
  if d.fld u R.UPD_ACT_PHASE = 4 then
    ((d.setFld u R.UPD_ACT_PHASE 0).setFld u R.UPD_ACT_RESULT 8).raise u 2
  else d

/-- The commit point (R323). -/
def Dev.commitPoint (d : Dev) : Dev :=
  let d := d.awakeHold (fun d => d.setRound 2)
  let d := d.phaseMsg 2
  let d := (onesOf (d.fld nptPg R.NPT_SLEEP_PORTS_PORTS) 40).foldl Dev.tc10Sleep d
  let d := d.setFlag nptPg R.NPT_WAKE_FIRST_VALID false
  let d := (d.setGroups 0).withNpt (fun n => { n with latched := [], commitAt := d.now })
  (((d.raise nptPg 3).sleepEvent).pairSleep).schedEnd

/-- Start a round toward TARGET, or replace its target; each GO clears NPT_READY (R320, R322). -/
def Dev.sleepGo (d : Dev) (target : Nat) (force : Bool) : Dev :=
  if d.round = 0 then
    let d := ((d.setFld nptPg R.NPT_SLEEP_STAT_TARGET target).setFld nptPg R.NPT_READY_READY 0).cnt nptPg 10
    if force then d.commitPoint
    else
      let d := d.setRound 1
      (d.withNpt (fun n => { n with prepMinPassed := false })).phaseMsg 1
  else if d.round = 1 then
    let d := (d.setFld nptPg R.NPT_SLEEP_STAT_TARGET target).setFld nptPg R.NPT_READY_READY 0
    if force then d.commitPoint else d
  else d.refuse nptPg

/-- A round in PREPARE is cancelled (R322). -/
def Dev.sleepCancel (d : Dev) : Dev :=
  if d.round = 1 then (((d.setRound 0).phaseMsg 3).raise nptPg 2).cnt nptPg 7 else d

/-- The round commits when every required node is ready and PREP_MIN_MS has passed (R322). -/
def Dev.readyCheck (d : Dev) : Dev :=
  let mask := d.fld nptPg R.NPT_READY_MASK_MASK
  if d.round = 1 && d.npt.prepMinPassed && (d.fld nptPg R.NPT_READY_READY &&& mask) == mask then
    d.commitPoint else d

/-- The groups named by the sources latched since the commit point (R328). -/
def Dev.latchedGroups (d : Dev) : Nat :=
  d.npt.latched.foldl (fun g s => g ||| d.fld nptPg (R.NPT_SRC_CFG_GROUPS.at s)) 0

/-- Drive a code on VID (R358). -/
def Dev.setVid (d : Dev) (c : Nat) : Dev :=
  (d.setFld (pg .pwr) R.PWR_OP_STAT_VID c).emit (.pin 0x40 c)

/-- The VID code of an operating point at the TRIM in force (R355, R358). -/
def Dev.vidCode (d : Dev) (op : Nat) : Nat :=
  (if op = 0 then 12 else if op = 1 then 8 else if op = 2 then 3 else 0)
    + d.fld (pg .pwr) R.PWR_OP_TRIM_TRIM

/-- Exit begins (R324, R326): the groups of the latched sources wake; for Slumber the supplies are
enabled, for Doze the voltage of the operating point returns. -/
def Dev.exitBegin (d : Dev) : Dev :=
  let d := (d.setRound 4).withNpt (fun n => { n with exitAt := d.now })
  let d := (d.setGroups d.latchedGroups).members d (fun _ => true)
  if d.toSlumber then d.supplyFrom 0
  else d.setVid (d.vidCode (d.fld (pg .pwr) R.PWR_OP_STAT_CUR))

/-- A wake accepted while Off, or latched during entry to Off: the supplies are enabled; the start
sequence follows their power-on (R347, R364). -/
def Dev.wakeOff (d : Dev) : Dev := d.supplyFrom 3

/-- The device is in Off, entry complete. -/
def Dev.isOff (d : Dev) : Bool := d.fld (pg .pwr) R.PWR_STATE_STAT_CUR == 4

/-- A wake is accepted: it is latched and, by the state of the round, cancels, waits or begins the
exit (R318, R322). -/
def Dev.wakeAccept (d : Dev) (s : Nat) : Dev :=
  let r := R.NPT_WAKE_LATCH_LATCH.at (s / 32)
  let d := d.setFld nptPg r (d.fld nptPg r ||| 2 ^ (s % 32))
  let d := d.incSat nptPg (R.NPT_SRC_STAT_WAKES_HOUR.at s)
  let d := d.when (!d.flag nptPg R.NPT_WAKE_FIRST_VALID) (fun d =>
    (d.setFld nptPg R.NPT_WAKE_FIRST_SOURCE s).setFlag nptPg R.NPT_WAKE_FIRST_VALID true)
  let d := d.withNpt (fun n => { n with latched := n.latched ++ [s] })
  if d.isOff then d.wakeOff
  else if d.round = 1 then (d.withNpt (fun n => { n with canceller := some (s, 0) })).sleepCancel
  else if d.round = 3 then d.exitBegin
  else d

/-- A wake source fires (R318, R333). Source 0x2A, host access, is always accepted; source 0x08 does not count as
enabled while the NPT page is not OFF (R316). DEDUCED: assumption 150. -/
def Dev.fire (d : Dev) (s : Nat) : Dev :=
  if s = 0x2A then d.wakeAccept s
  else if !d.flag nptPg (R.NPT_SRC_CFG_EN.at s) || (s == 8 && d.state nptPg != 0) then d
  else if d.flag nptPg (R.NPT_SRC_STAT_QUAR.at s) then d.cnt nptPg 9
  else
    let lim := d.fld nptPg (R.NPT_SRC_CFG_RATE_LIMIT.at s)
    if lim ≠ 0 ∧ lim ≤ d.fld nptPg (R.NPT_SRC_STAT_WAKES_HOUR.at s) then
      (d.offender s 2 0).quarantine s
    else d.wakeAccept s

/-- CANCEL is written: source 0x2C fires, and a round in PREPARE is cancelled whether or not the source is enabled,
but not while it is in quarantine (R318, R320, R322). -/
def Dev.cancelCmd (d : Dev) : Dev :=
  let held := d.flag nptPg (R.NPT_SRC_STAT_QUAR.at 0x2C)
  let d := d.fire 0x2C
  if d.round = 1 && !held then (d.withNpt (fun n => { n with canceller := some (0x2C, 0) })).sleepCancel else d

/-- A stay-awake message of node `n` is recognised (R316, R322, R332). -/
def Dev.stayAwake (d : Dev) (n : Nat) : Dev :=
  if d.round ≠ 1 || (d.npt.stayQuar.get? n).isSome then d
  else if d.flag nptPg (R.NPT_SRC_STAT_QUAR.at 0x2B) then d.fire 0x2B
  else
    let d := d.fire 0x2B
    let d := d.withNpt (fun m => { m with canceller := some (0x2B, n) })
    d.sleepCancel

-- ==== requests and the pending slot (R353) ====

/-- Start an operating-point transition (R357): frequency and voltage follow NEXT; under PMBus control the regulator is
told as well (R360). -/
def Dev.opStart (d : Dev) (op : Nat) : Dev :=
  let w := pg .pwr
  let d := (d.setFlag w R.PWR_OP_STAT_BUSY true).setFld w R.PWR_OP_STAT_NEXT op
  let d := d.setVid (d.vidCode op)
  d.when (d.flag w R.PWR_VCTRL_PMBUS_EN) (fun d =>
    d.emit (.pmbus (d.fld w R.PWR_VCTRL_PMB_ADDR) (650000 + 12500 * d.vidCode op)))

/-- No request starts between a commit point and the end of the exit (R354). -/
def Dev.reqHeld (d : Dev) : Bool := !(d.round == 0 || d.round == 1)

/-- A request for an operating point (R353). One made between a commit point and the end of the exit is pending until
then (R354). DEDUCED: assumption 151. -/
def Dev.opRequest (d : Dev) (op : Nat) : Dev :=
  let w := pg .pwr
  if d.flag w R.PWR_OP_STAT_BUSY || d.reqHeld then
    if d.fld w R.PWR_OP_STAT_NEXT = op then d.setFlag w R.PWR_OP_STAT_PEND_VALID false
    else (d.setFld w R.PWR_OP_STAT_PEND op).setFlag w R.PWR_OP_STAT_PEND_VALID true
  else if d.fld w R.PWR_OP_STAT_CUR = op then d
  else d.opStart op

/-- Start the pending operating-point request (R353, R354). -/
def Dev.opPending (d : Dev) : Dev :=
  let w := pg .pwr
  if d.flag w R.PWR_OP_STAT_PEND_VALID && !d.flag w R.PWR_OP_STAT_BUSY && !d.reqHeld then
    (d.setFlag w R.PWR_OP_STAT_PEND_VALID false).opStart (d.fld w R.PWR_OP_STAT_PEND)
  else d

/-- Start a power-state transition (R346, R347). A wake latched during entry to Off is one accepted from here on. -/
def Dev.stStart (d : Dev) (t : Nat) : Dev :=
  let w := pg .pwr
  let d := d.when (t == 4) (fun d => d.withNpt (fun n => { n with latched := [] }))
  (d.setFlag w R.PWR_STATE_STAT_BUSY true).setFld w R.PWR_STATE_STAT_NEXT t

/-- A request for a power state (R347, R353): 0 Run, 1 Idle, 4 Off; held as an operating point's is. -/
def Dev.stRequest (d : Dev) (t : Nat) : Dev :=
  let w := pg .pwr
  if !(t == 0 || t == 1 || t == 4) || (t == 4 && d.round != 0) then d.refuse w
  else if d.flag w R.PWR_STATE_STAT_BUSY || d.reqHeld then
    if d.fld w R.PWR_STATE_STAT_NEXT = t then d.setFlag w R.PWR_STATE_STAT_PEND_VALID false
    else (d.setFld w R.PWR_STATE_STAT_PEND t).setFlag w R.PWR_STATE_STAT_PEND_VALID true
  else if d.fld w R.PWR_STATE_STAT_CUR = t then d
  else d.stStart t

/-- Start the pending power-state request. -/
def Dev.stPending (d : Dev) : Dev :=
  let w := pg .pwr
  if d.flag w R.PWR_STATE_STAT_PEND_VALID && !d.flag w R.PWR_STATE_STAT_BUSY && !d.reqHeld then
    (d.setFlag w R.PWR_STATE_STAT_PEND_VALID false).stStart (d.fld w R.PWR_STATE_STAT_PEND)
  else d

/-- An event that ends Idle (R346): the device returns to Run on its own. -/
def Dev.idleReturn (d : Dev) : Dev :=
  let w := pg .pwr
  if d.fld w R.PWR_STATE_STAT_CUR = 1 && !d.flag w R.PWR_STATE_STAT_BUSY then d.stStart 0 else d

end Sys2Proof.Machine
end

