-- ==== Sys2Proof/Machine/Run.lean ====
section
/-! DEFINITION. How a command runs on the device: what the last one sent out is cleared first, and at
the end the register file and the counters are in their one canonical form. -/

namespace Sys2Proof.Machine

-- ==== a message starts on the bus (R307) ====

/-- The order of arbitration by identifier (R307): a smaller number wins, a base identifier before the extended ones
that share it. -/
def canRank (m : CanMsg) : Nat :=
  if m.ext && decide (m.fmt < 2) then m.id / 2 ^ 18 * 2 ^ 19 + 2 ^ 18 + m.id % 2 ^ 18 else m.id * 2 ^ 19

/-- The message a buffer offers: the best, the earliest of equal ones. -/
def bestTx : List TxMsg → Option TxMsg
  | [] => none
  | t :: ts => match bestTx ts with
    | none => some t
    | some u => if canRank u.msg < canRank t.msg then some u else some t

/-- The list without the first of its elements that equals `t`. -/
def dropTx (t : TxMsg) : List TxMsg → List TxMsg
  | [] => []
  | u :: us => if u = t then us else u :: dropTx t us

/-- A controller may start a message (R295, R296, R307, R329, R473, R484). -/
def Dev.canMayStart (d : Dev) (n : Nat) : Bool :=
  let p := canPg n
  let c := d.can n
  !d.canBlocked n && !d.busOff n && d.flag p R.EDG_CAN_STAT_SYNC && d.fld p R.EDG_CAN_TRX_STATE == 0
    && !d.canMuted n && !d.safe && c.wire.isNone && c.trxGoing.isNone && d.mainRun

/-- Start the message a controller offers. The bus is taken to be idle for it: a message that is offered
is on the wire until its end or its error is reported. DESIGN CHOICE: assumption 12. -/
def Dev.canStart (d : Dev) (n : Nat) : Dev :=
  let c := d.can n
  match bestTx c.tx with
  | none => d
  | some t =>
    if !d.canMayStart n then d
    else ((d.setCan n { c with wire := some t, tx := dropTx t c.tx }).setFlag (canPg n) R.EDG_CAN_STAT_TX_ACTIVE
      true).emit (.can n t.msg)

/-- Start what can start, on every bus. -/
def Dev.busSettle (d : Dev) : Dev := (d.cans.map (·.1)).foldl Dev.canStart d

-- ==== the end of a command ====

/-- The sparse maps in canonical form: keys rising, nothing listed that an unlisted key reads as. -/
def Dev.canon (d : Dev) : Dev :=
  { d with regs := d.regs.canon resetWord, counts := d.counts.canon (fun _ => 0),
           snaps := d.snaps.canon (fun _ => 0),
           dst := { d.dst with mem := d.dst.mem.canon (fun _ => 0) },
           flash := { d.flash with mem := d.flash.mem.canon (fun _ => 0xFF) } }

/-- The device as a command finds it: what the last command sent out is cleared. -/
def State.begun (s : State) : Dev := { s.dev with out := [], refusals := 0 }

/-- The state after a command left the device as `d`: writebacks of frames that are gone are settled (R389), CAN
messages that can start do, and the sparse maps are brought into canonical form. -/
def State.ends (s : State) (d : Dev) : State := { s with dev := d.dmaSettle.busSettle.canon }

/-- Run `f` on the device. -/
def State.on (s : State) (f : Dev → Dev) : State := s.ends (f s.begun)

/-- A command that runs: the next state after `f` on the device. -/
def State.run (s : State) (f : Dev → Dev) : Answer := .next (s.on f)

end Sys2Proof.Machine
end

