-- ==== Sys2Proof/Machine/Gate.lean ====
section
/-! DEFINITION. The checks every register access passes before it acts: reach (R37, R70, R76), size
(R36), domain (R350), snapshot hold (R58), the pair's order rules (R490), locks (R51); and the order
a write becomes on the holder (R490, R491). -/

namespace Sys2Proof.Machine

/-- A 32-bit write of a register. -/
def wr (who : Owner) (p : Page) (off v : Nat) : Access :=
  { who := who, target := .reg p off, write := true, data := v }

-- ==== the Adjor link (R488) ====

/-- The unit state of R496: 0 IDLE, 1 SEEKING, 2 CLAIMING, 3 COPYING, 4 STANDBY, 5 ACTIVE, 6 ALONE,
7 DETACHED. -/
def Dev.adjState (d : Dev) : Nat := d.fld adjPg R.ADJ_STAT_STATE

-- ==== answers (R37, R371, R379) ====

/-- End an access with a status of R372 and its data. -/
def Dev.answer (d : Dev) (a : Access) (status data : Nat) : Dev :=
  match a.who with
  | .spi =>
    let d := { d with spi := { result := some (status, data, a.size) } }
    let body := BitVec.ofNat 8 status :: (if status = 0x80 && !a.write then beBytes a.size data else [])
    d.emit (.spi (body ++ [BitVec.ofNat 8 (crc8 body)]))
  | .peer => d.adjSend 7 [a.tag, status, data % 2 ^ 32, data / 2 ^ 32]
  | _ => d.emit (.answer a.who status data)

/-- A write has ended well: the host and the pairs post it and hear nothing. -/
def Dev.written (d : Dev) (a : Access) : Dev :=
  match a.who with
  | .spi | .peer => d.answer a 0x80 0
  | _ => d

/-- Space code and offset of a target (R383). -/
def targetAddr : Target → Nat × Nat
  | .addr .bar0 a => (0, a)
  | .addr .bar2 a => (1, a)
  | .addr .bar4 a => (2, a)
  | .reg p off => (0, pageBase p + off)

/-- Fill the access error record (R383): KIND 1 SIZE, 2 UNMAPPED, 3 STALL_TIMEOUT, 4 REMOTE_READ, 5
FEATURE, 6 LOOP. -/
def Dev.accessErr (d : Dev) (a : Access) (kind : Nat) : Dev :=
  let h := hbrPg
  let (sp, off) := targetAddr a.target
  let d := d.record h R.HBR_ACCESS_ERR_VALID R.HBR_ACCESS_ERR_OVERRUN (fun d =>
    let d := d.setFld h R.HBR_ACCESS_ERR_KIND kind
    let d := d.setFld h R.HBR_ACCESS_ERR_REQUESTER a.who.code
    let d := d.setFld h R.HBR_ACCESS_ERR_SPACE sp
    let d := d.setFlag h R.HBR_ACCESS_ERR_WRITE a.write
    (d.setFld h R.HBR_ACCESS_ADDR_OFFSET off).setFld h R.HBR_ACCESS_TIME_TIME d.time)
  (d.cnt h 3).raise h 1

/-- What AER logs of a discarded host write (R37): Completer Abort as advisory non-fatal, or Unsupported Request. -/
def Dev.aerLog (d : Dev) (status : Nat) : Dev :=
  let c := d.pcie
  if status = 0x81 then { d with pcie := { c with aerCa := true, aerAdvisory := true } }
  else if status = 0x82 then { d with pcie := { c with aerUr := true } }
  else d

/-- An access ends with an error: the record fills, the requester is told (R37). -/
def Dev.accessFail (d : Dev) (a : Access) (kind status : Nat) : Dev :=
  let d := d.accessErr a kind
  match a.who, a.write with
  | .host, true => d.aerLog status
  | _, _ => d.answer a status 0

-- ==== reach and readiness ====

/-- The requester reaches the page now (R70, R76). -/
def Dev.reaches (d : Dev) (who : Owner) (p : Page) : Bool :=
  let hold := d.flag bootPg R.BOOT_STATUS_HOLD
  let held := match p.kind with
    | .hbr | .trc | .sys | .boot | .upd | .lbx => true
    | _ => false
  let early := match p.kind with
    | .trc | .sys | .boot => true
    | _ => false
  (!hold || held) && match who with
    | .host => d.start.barsDecoded
    | .spi => d.start.spiUp && (d.start.cfgLoaded || early || hold)
    | _ => true

/-- A power domain is ready (R349, R350). -/
def Dev.domainReady (d : Dev) (n : Nat) : Bool :=
  if n = 0 then true
  else if !d.mainRun then false
  else if d.awake.contains n then true
  else if n = 5 then d.fld pwrPg R.PWR_STATE_STAT_CUR != 1
  else if 7 ≤ n then
    let ports := (List.range 4).map (· + 4 * (n - 7))
    ports.any (fun p => d.state (prtPg p) != 0)
      || (decide (n - 7 < 6) && d.isOn ⟨.msc, n - 7⟩)
  else true

/-- PWR_DOMAIN_STAT.READY. -/
def Dev.readyMask (d : Dev) : Nat :=
  ((List.range 17).map (fun n => if d.domainReady n then 2 ^ n else 0)).sum

/-- An access waits ahead with this tag. -/
def Dev.waits (d : Dev) (tag : Nat) : Bool := d.stalls.any (fun x => x.domain == tag)

/-- Tag of the accesses a snapshot of page number `i` holds (R58). -/
def snapTag (i : Nat) : Nat := 0x100 + i

/-- Tag of the writes that wait for order credit (R490). -/
def creditTag : Nat := 0x200

/-- Hold an access. -/
def Dev.hold (d : Dev) (tag : Nat) (a : Access) : Dev :=
  { d with stalls := d.stalls ++ [⟨tag, a, d.now⟩] }

/-- An access meets a domain that is not ready (R39, R350, R352): source 0x2A fires and the access
stalls; with the main supplies off only the management port is seen, and its transaction is lost. -/
def Dev.domainStall (d : Dev) (n : Nat) (a : Access) : Dev :=
  let r := d.round
  let deep := d.isOff || ((r == 2 || r == 3 || r == 4) && d.toSlumber && !d.mainRun)
  if deep then if a.who = .spi then d.fire 0x2A else d
  else ((d.hold n a).cnt pwrPg 2).fire 0x2A

-- ==== orders (R490, R491) ====

/-- The page is ordered. -/
def isOrdered (p : Page) : Bool :=
  match p.kind with
  | .bur | .fwl | .shl | .sch | .frk | .can | .lin => true
  | _ => false

/-- The unit refuses writes of its own parties to ordered pages: COPYING, STANDBY, or a holder
whose MARK is out (R490, R500). -/
def Dev.orderBarred (d : Dev) : Bool :=
  let st := d.adjState
  st == 3 || st == 4 || d.adj.markIssued.isSome

/-- The unit holds the claim and issues orders. -/
def Dev.issues (d : Dev) : Bool :=
  let st := d.adjState
  (st == 5 || st == 6) && d.hasClaim

/-- A peer takes the orders: COPYING or STANDBY. -/
def Dev.peerTakes (d : Dev) : Bool :=
  let st := d.fld adjPg R.ADJ_STAT_PEER_STATE
  st == 3 || st == 4

/-- Send a CARBON record (R493): a header word of KIND and length, and the body. -/
def Dev.carbon (d : Dev) (kind : Nat) (body : List Nat) : Dev :=
  d.when (d.issues && d.peerTakes) (fun d => d.adjSend 4 ((kind * 2 ^ 24 + body.length) :: body))

/-- The standby has no order credit (R490): 4,096 orders are out. -/
def Dev.noCredit (d : Dev) : Bool :=
  d.issues && d.peerTakes && decide (d.adj.peerIndex + 4096 ≤ d.fld adjPg R.ADJ_ORDER_IDX_INDEX)

/-- The words of an order (R491). -/
def Order.words (o : Order) : List Nat :=
  [o.kind * 2 ^ 28 + o.origin * 2 ^ 24 + o.space * 2 ^ 16, o.addr, o.index % 2 ^ 32, o.index / 2 ^ 32,
   o.time % 2 ^ 32, o.time / 2 ^ 32, o.data % 2 ^ 32, o.data / 2 ^ 32]

/-- The command of an ordered page that runs after a write and did not before it, 0 for none. -/
def Dev.orderCmd (before after : Dev) : Nat :=
  let run (d : Dev) (k : Nat) : Bool :=
    if k = 1 then d.bur.edRun.isSome || d.bur.committing else if k = 2 then d.bur.emRun.isSome
    else if k = 3 then d.frk.run.isSome else d.rtRun.isSome
  ([1, 2, 3, 4].find? (fun k => run after k && !run before k)).getD 0

/-- Issue the next order (R490, R491): 1 WRITE32, 2 WRITE64, 4 MARK, 5 DIGEST; `cmd` is the command its write
started. -/
def Dev.issue (d : Dev) (kind origin space addr data : Nat) (cmd : Nat := 0) : Dev :=
  let i := d.fld adjPg R.ADJ_ORDER_IDX_INDEX + 1
  let o : Order := ⟨kind, origin, space, addr, i, d.time, data⟩
  let d := (d.setFld adjPg R.ADJ_ORDER_IDX_INDEX i).digestStep o cmd 0
  d.when d.peerTakes (fun d => d.adjSend 3 o.words)

/-- A write that took effect on an ordered page becomes an order on the holder. -/
def Dev.orderOf (d : Dev) (a : Access) (cmd : Nat) : Dev :=
  let (sp, off) := targetAddr a.target
  d.issue (if a.size = 8 then 2 else 1) a.who.code sp off a.data cmd

-- ==== the gate ====

/-- Pages that refuse every write of the peer unit (R440, R479). -/
def refusesPeer (p : Page) : Bool :=
  match p.kind with
  | .flt | .key => true
  | _ => false

/-- Run a write's effect; where nothing was refused it becomes an order on the holder. -/
def Dev.act (d : Dev) (a : Access) (ordered : Bool) (eff : Dev → Dev) : Dev :=
  let d' := eff d
  let d' := d'.when (ordered && d.issues && d'.refusals == d.refusals) (fun x => x.orderOf a (d.orderCmd x))
  d'.written a

/-- A GO of an edition command is judged by the command itself, whoever holds the lock (R153). -/
def Access.ownJudge (a : Access) (p : Page) (off : Nat) : Bool := p.kind == .bur && off == 0xC8 && bitAt a.data 31

/-- A write to a register of a page: every check in order, then `eff`. -/
def Dev.gate (d : Dev) (a : Access) (p : Page) (off : Nat) (eff : Dev → Dev) : Dev :=
  if !d.start.released then d
  else if !p.exists || !d.reaches a.who p then d.accessFail a 2 0x82
  else if !sizeOk (.reg p off) true a.size off then d.accessFail a 1 0x81
  else if !d.domainReady p.domain then d.domainStall p.domain a
  else if d.waits p.domain then d.hold p.domain a
  else if d.snapBusy.contains p.idx then d.hold (snapTag p.idx) a
  else if inert p off a.size then d.written a
  else if isOrdered p && d.orderBarred then (d.refuse p).written a
  else if isOrdered p && (d.noCredit || d.waits creditTag) then d.hold creditTag a
  else if refusesPeer p && a.who == .peer then (d.refuse p).written a
  else if msixArea p off && a.who != .host then (d.refuse p).written a
  else if !openOffset p off && !a.ownJudge p off && !d.mayWrite p a.who then (d.refuse p).written a
  else d.act a (isOrdered p) eff

/-- A command that acts only while the main domains run (R345). -/
def State.runMain (s : State) (f : Dev → Dev) : Answer :=
  s.run (fun d => if d.mainRun then f d else d)

/-- A 32-bit write of `v` to a register by `who`, with its effect. -/
def Dev.gateW (d : Dev) (who : Owner) (p : Page) (off v : Nat) (eff : Dev → Dev) : Dev :=
  d.gate (wr who p off v) p off eff

end Sys2Proof.Machine
end

