-- ==== Sys2Proof/Machine/Parse.lean ====
section
/-! DEFINITION. The Burin's parser (R109, R114 to R116): headers within reach, the checks of R115
and the 640-bit key; and the reading of ACF messages (R304 to R306). -/

namespace Sys2Proof.Machine

/-- What the parser may read: the frame without its FCS, and how far it reaches (R109). -/
structure Src where
  data : List Byte
  lim : Nat
  deriving DecidableEq, Repr

/-- The number in `n` bytes that lie wholly within the frame and the reach. -/
def Src.get (b : Src) (off n : Nat) : Option Nat :=
  if off + n ≤ b.lim && off + n ≤ b.data.length then some (beNat (slice b.data off n)) else none

/-- The same, 0 where it does not lie so. -/
def Src.rd (b : Src) (off n : Nat) : Nat := (b.get off n).getD 0

/-- A field of the frame that lies partly or wholly beyond the reach. -/
def Src.beyond (b : Src) (off n : Nat) : Bool := decide (b.lim < off + n) && decide (off < b.data.length)

/-- Put a value into the key at bits `hi` to `lo`. -/
def Parsed.put (q : Parsed) (hi lo v : Nat) : Parsed := { q with key := putBits q.key hi lo v }

/-- Extract `n` bytes at `off` into the key; a field beyond reach reads 0 and sets REACH (R109). -/
def Parsed.field (q : Parsed) (b : Src) (hi lo off n : Nat) (f : Nat → Nat := id) : Parsed :=
  match b.get off n with
  | some v => q.put hi lo (f v)
  | none => { q with reach := q.reach || b.beyond off n }

/-- A check has failed with a code (R115). -/
def Parsed.fail (q : Parsed) (failed : Bool) (code : Nat) : Parsed :=
  if failed then { q with errs := code :: q.errs } else q

/-- PARSE_ERR: the lowest code of the checks that failed, 0 for none (R115). -/
def Parsed.err (q : Parsed) : Nat :=
  match q.errs with
  | [] => 0
  | e :: es => es.foldl min e

-- ==== fields of the key (R116) ====

abbrev keyInPort (k : Nat) : Nat := bits k 639 634
abbrev keyZoneSrc (k : Nat) : Nat := bits k 633 629
abbrev keyTags (k : Nat) : Nat := bits k 621 620
abbrev keyFrag (k : Nat) : Nat := bits k 619 618
abbrev keyL3 (k : Nat) : Nat := bits k 617 616
abbrev keyProto (k : Nat) : Nat := bits k 615 608
abbrev keySrc (k : Nat) : Nat := bits k 463 336
abbrev keyDst (k : Nat) : Nat := bits k 335 208
abbrev keyL4Src (k : Nat) : Nat := bits k 171 156
abbrev keyL4Dst (k : Nat) : Nat := bits k 155 140
abbrev keyFlags (k : Nat) : Nat := bits k 139 132
abbrev keyAcfMsg (k : Nat) : Nat := bits k 131 128
abbrev keyAcfBus (k : Nat) : Nat := bits k 127 123
abbrev keyBusId (k : Nat) : Nat := bits k 122 94
abbrev keySid (k : Nat) : Nat := bits k 93 86
abbrev keyDoip (k : Nat) : Nat := bits k 85 70

/-- Key word `i` (R116). -/
def keyWord (k i : Nat) : Nat := bits k (32 * i + 31) (32 * i)

-- ==== L4 and application ====

/-- DoIP at `p` (R114, R115). -/
def parseDoip (b : Src) (p : Nat) (q : Parsed) : Parsed :=
  match b.get p 1, b.get (p + 1) 1 with
  | some v, some i =>
    if i ≠ 255 - v then q.fail true 0x0C
    else
      let q := (q.field b 85 70 (p + 2) 2)
      let q := { q with doipIn := (b.get (p + 2) 2).isSome && (b.get (p + 4) 4).isSome,
                        doipLen := b.rd (p + 4) 4 }
      if b.get (p + 2) 2 = some 0x8001 then
        { q.field b 93 86 (p + 12) 1 with sidIn := (b.get (p + 12) 1).isSome }
      else q
  | _, _ => { q with reach := q.reach || b.beyond (p + 2) 2 }

/-- The length of a TCP header at `off`: its data offset, where it lies within reach. -/
def tcpHeader (b : Src) (off : Nat) : Nat := max 20 (4 * (b.rd (off + 12) 1 / 16))

/-- Length of the L4 header of a protocol at `off`. -/
def l4Header (b : Src) (proto off : Nat) : Nat := if proto = 6 then tcpHeader b off else 8

/-- L4 at `off`, the packet ending at `stop` (R114, R115). `icmp` is the protocol number of ICMP
under this L3. A header that runs beyond reach is not recognised in full (R126); that a frame ends inside it is seen
where its last byte lies within reach. -/
def parseL4 (b : Src) (proto icmp off stop : Nat) (q : Parsed) : Parsed :=
  if proto ≠ 6 && proto ≠ 17 && proto ≠ icmp then q
  else
    let h := l4Header b proto off
    let short := decide (b.data.length < off + h)
    let whole := decide (off + h ≤ b.lim) && !short
    let q := { q.fail (short && decide (b.data.length ≤ b.lim)) 0x09 with l4In := whole }
    let q := { q with pay := if whole then off + h else q.pay }
    if proto = icmp then
      { q.field b 171 156 off 2 with echoId := b.rd (off + 4) 2, typeIn := (b.get off 2).isSome }
    else
      let q := (q.field b 171 156 off 2).field b 155 140 (off + 2) 2
      let q := if proto = 6 then
          let q := q.field b 139 132 (off + 13) 1
          { q with seq := b.rd (off + 4) 4, segLen := stop - (off + h) }
        else q
      if !short && off + h < stop && (b.rd off 2 = 13400 || b.rd (off + 2) 2 = 13400) then
        parseDoip b (off + h) q
      else q

-- ==== L3 ====

/-- The sum of the 16-bit words of a header. -/
def sum16 : List Byte → Nat
  | a :: b :: bs => a.toNat * 256 + b.toNat + sum16 bs
  | [a] => a.toNat * 256
  | [] => 0

/-- Ones' complement folding of a sum of at most thirty words. -/
def fold16 (s : Nat) : Nat :=
  let t := s % 65536 + s / 65536
  t % 65536 + t / 65536

/-- IPv4 at `o` (R114, R115). -/
def parseIp4 (b : Src) (o : Nat) (q : Parsed) : Parsed :=
  let q := { q.put 617 616 1 with ipAt := some o }
  let v := b.rd o 1
  let h := 4 * (v % 16)
  if v / 16 ≠ 4 then q.fail true 0x02
  else if h < 20 then q.fail true 0x03
  else
    let q := (q.field b 207 200 (o + 1) 1).field b 179 172 (o + 8) 1
    let q := (q.field b 615 608 (o + 9) 1).field b 367 336 (o + 12) 4
    let q := { q.field b 239 208 (o + 16) 4 with ident := b.rd (o + 4) 2, pay := o + h }
    let sumBad := match b.get o h with
      | some _ => fold16 (sum16 (slice b.data o h)) != 0xFFFF
      | none => false
    let total := b.rd (o + 2) 2
    let q := (q.fail sumBad 0x04).fail (total < h || b.data.length - o < total) 0x05
    let fr := b.rd (o + 6) 2
    let fo := fr % 0x2000
    let frag := if fo ≠ 0 then 2 else if bitAt fr 13 then 1 else 0
    let part := total - h
    let q := (q.put 619 618 frag).fail
      (frag ≠ 0 && (65535 < 8 * fo + part || (frag = 1 && part < 8))) 0x0A
    if frag = 2 then q else parseL4 b (b.rd (o + 9) 1) 1 (o + h) (min b.data.length (o + total)) q

/-- The next header values the parser walks through (R114). -/
def isExt6 (n : Nat) : Bool := n == 0 || n == 43 || n == 44 || n == 60

/-- The walk over IPv6 extension headers: next header value, offset, headers left, and whether one
was passed. -/
def parseExt6 (b : Src) (base plen : Nat) : Nat → Bool → Nat → Nat → Parsed → Parsed
  | left, passed, nh, off, q =>
    let stop := min b.data.length (base + plen)
    if isExt6 nh then
      match left with
      | 0 => (q.put 615 608 nh).fail true 0x08
      | left + 1 =>
        let len := if nh = 44 then 8 else 8 * (b.rd (off + 1) 1 + 1)
        if b.lim < off + 2 || (off + 2 ≤ b.data.length && off + len ≤ b.data.length && b.lim < off + len) then
          { q.put 615 608 nh with reach := true }
        else if b.data.length < off + len then (q.put 615 608 nh).fail true 0x08
        else
          let q := if nh = 44 then
              let w := b.rd (off + 2) 2
              let frag := if w / 8 ≠ 0 then 2 else if w % 2 = 1 then 1 else 0
              let part := stop - (off + 8)
              { (q.put 619 618 frag).fail (frag ≠ 0 && (65535 < w / 8 * 8 + part
                  || (frag = 1 && part < 8))) 0x0A with ident := b.rd (off + 4) 4 }
            else q
          parseExt6 b base plen left true (b.rd off 1) (off + len) q
    else
      let q := { q.put 615 608 nh with pay := off }
      if keyFrag q.key = 2 then q
      else if passed && (nh = 6 || nh = 17 || nh = 58) && b.lim < min b.data.length (off + l4Header b nh off) then
        { q with reach := true }
      else parseL4 b nh 58 off stop q

/-- IPv6 at `o` (R114, R115). -/
def parseIp6 (b : Src) (o : Nat) (q : Parsed) : Parsed :=
  let q := { q.put 617 616 2 with ipAt := some o }
  let w := b.rd o 4
  if w / 2 ^ 28 ≠ 6 then q.fail true 0x06
  else
    let q := (q.put 207 200 (w / 2 ^ 20 % 256)).put 199 180 (w % 2 ^ 20)
    let q := (q.field b 179 172 (o + 7) 1).field b 463 336 (o + 8) 16
    let q := { q.field b 335 208 (o + 24) 16 with pay := o + 40 }
    let plen := b.rd (o + 4) 2
    let q := q.fail (b.data.length - (o + 40) < plen) 0x07
    match b.get (o + 6) 1 with
    | none => { q with reach := q.reach || b.beyond (o + 6) 1 }
    | some nh => parseExt6 b (o + 40) plen 4 false nh (o + 40) q

-- ==== ACF (R304, R305; the layouts of IEEE 1722-2016) ====

/-- What an ACF message type is (R114, R302): 1 CAN, 2 CAN brief, 3 LIN, 4 CAN XL, 0 unknown. -/
def acfKind (xl t : Nat) : Nat :=
  if t = 1 then 1 else if t = 2 then 2 else if t = 3 then 3 else if t = xl then 4 else 0

/-- Bytes before the data of an ACF message of a kind. -/
def acfHead (k : Nat) : Nat := if k = 1 then 16 else if k = 2 then 8 else if k = 3 then 12 else 20

/-- Where and how wide the identifier of an ACF message is. -/
def acfIdAt (k : Nat) : Nat × Nat :=
  if k = 1 then (12, 4) else if k = 2 then (4, 4) else if k = 3 then (3, 1) else (14, 2)

/-- The message at the head of a byte string, `none` for an unknown type. -/
def acfMsg (xl : Nat) (m : List Byte) : Option CanMsg :=
  let k := acfKind xl (beNat (slice m 0 1) / 2)
  if k = 0 then none
  else
    let f := beNat (slice m 2 1)
    let pad := f / 64
    let (io, il) := acfIdAt k
    let id := beNat (slice m io il)
    let data := (m.drop (acfHead k)).take (m.length - acfHead k - pad)
    let ts := if bitAt f 5 && k ≠ 2 then some (beNat (slice m 4 8)) else none
    if k = 3 then some { fmt := 3, id := id, data := data, ts := ts }
    else if k = 4 then
      some { fmt := 2, id := id % 2 ^ 11, data := data, ts := ts, sec := bitAt f 4, rrs := bitAt f 3,
             sdt := beNat (slice m 12 1), vcid := beNat (slice m 13 1), af := beNat (slice m 16 4) }
    else
      let ext := bitAt f 3
      some { fmt := b2n (bitAt f 1), ext := ext, rtr := bitAt f 4, brs := bitAt f 2, esi := bitAt f 0,
             id := id % (if ext then 2 ^ 29 else 2 ^ 11), data := data, ts := ts }

/-- Bytes of the message at the head of a byte string, by its acf_msg_length. -/
def acfLen (m : List Byte) : Nat := 4 * (beNat (slice m 0 2) % 512)

/-- The messages of an ACF area of `left` bytes, up to one whose framing does not hold. -/
def acfSplit : Nat → Nat → List Byte → List (List Byte)
  | 0, _, _ => []
  | fuel + 1, left, bs =>
    let n := acfLen bs
    if left = 0 || bs.length < 2 || n = 0 || bs.length < n then []
    else bs.take n :: acfSplit fuel (left - n) (bs.drop n)

/-- A message of an area whose header lies within reach has length 0 or runs past the frame (R115). -/
def acfBad (b : Src) (stop : Nat) : Nat → Nat → Bool
  | 0, _ => false
  | fuel + 1, pos =>
    if stop ≤ pos then false
    else match b.get pos 2 with
      | none => decide (pos + 2 ≤ b.lim)
      | some t =>
        let n := 4 * (t % 512)
        n == 0 || decide (b.data.length < pos + n) || acfBad b stop fuel (pos + n)

/-- Where the messages of an IEEE 1722 frame begin and how many bytes they take, for subtype NTSCF
or TSCF at `o` (R114). -/
def acfArea (b : Src) (o : Nat) : Option (Nat × Nat) :=
  let sub := b.rd o 1
  if sub = 0x82 then some (o + 12, b.rd (o + 1) 2 % 2048)
  else if sub = 0x05 then some (o + 24, b.rd (o + 20) 2)
  else none

/-- Bytes of a first ACF message that carry data, by its head. -/
def acfDataLen (k n f : Nat) : Nat := n - acfHead k - f / 64

/-- IEEE 1722 at `o` (R114 to R116). -/
def parseAcf (b : Src) (xl o : Nat) (q : Parsed) : Parsed :=
  match acfArea b o with
  | none => q
  | some (s, len) =>
    let q := { q.put 617 616 3 with pay := s }
    let q := q.fail (acfBad b (s + len) 512 s) 0x0B
    let n := 4 * (b.rd s 2 % 512)
    match b.get s 2 with
    | none => { q with reach := q.reach || b.beyond s 2 }
    | some t =>
      let k := acfKind xl (t / 512)
      let q := q.put 131 128 (if n ≠ 0 && n < len then 0xF else k)
      if k = 0 then q
      else
        let f := b.rd (s + 2) 1
        let ext := (k = 1 || k = 2) && bitAt f 3
        let (io, il) := acfIdAt k
        let q := q.field b 127 123 (s + (if k = 3 then 2 else 3)) 1
          (fun v => v % 32 + (if k = 3 then 24 else 0))
        let q := q.field b 122 94 (s + io) il (fun v =>
          if k = 3 then v else if ext then v % 2 ^ 29 else v % 2 ^ 11)
        { q with pay := s + acfHead k, acfAt := s + acfHead k, acfLen := acfDataLen k n f,
                 acfExt := ext, acfFmt := if k = 4 then 2 else if k = 3 then 3 else b2n (bitAt f 1) }

/-- Every message of a frame released to port 42 (R306), in order. -/
def acfAll (xl : Nat) (data : List Byte) : List CanMsg :=
  let b : Src := ⟨data, data.length⟩
  let tag (o : Nat) : Bool := b.rd o 2 == 0x8100 || b.rd o 2 == 0x88A8
  let o := if tag 12 then if tag 16 then 20 else 16 else 12
  let o := if b.rd o 2 = 0xF1C1 then o + 6 else o
  if b.rd o 2 ≠ 0x22F0 then []
  else match acfArea b (o + 2) with
    | none => []
    | some (s, len) => (acfSplit 512 len (data.drop s)).filterMap (acfMsg xl)

-- ==== the frame ====

/-- Parse a frame (R109, R114): header or deep reach, the ingress port, USER_META and XL_TYPE. -/
def parseFrame (deep : Bool) (inPort userMeta xl : Nat) (data : List Byte) : Parsed :=
  let b : Src := ⟨data, if deep then 128 else 64⟩
  let tag (o : Nat) : Bool := b.rd o 2 == 0x8100 || b.rd o 2 == 0x88A8
  let tags := if tag 12 then if tag 16 then 2 else 1 else 0
  let o := 12 + 4 * tags
  let rtag := b.rd o 2 == 0xF1C1
  let e := if rtag then o + 6 else o
  let et := b.rd e 2
  let q : Parsed := { pay := e + 2 }
  let q := (((q.put 639 634 inPort).put 40 40 (b2n deep)).put 39 32 userMeta).put 621 620 tags
  let q := ((q.put 607 560 (b.rd 0 6)).put 559 512 (b.rd 6 6)).put 623 623 (b2n rtag)
  let q := if tags = 0 then q else
    let t := b.rd 14 2
    ((q.put 511 500 (t % 4096)).put 499 497 (t / 8192)).put 496 496 (t / 4096 % 2)
  let q := if tags < 2 then q else
    let t := b.rd 18 2
    ((q.put 495 484 (t % 4096)).put 483 481 (t / 8192)).put 480 480 (t / 4096 % 2)
  let q := q.put 479 464 et
  let q := if tags = 2 && tag 20 then q.fail true 0x01
    else if et = 0x0800 then parseIp4 b (e + 2) q
    else if et = 0x86DD then parseIp6 b (e + 2) q
    else if et = 0x22F0 then parseAcf b xl (e + 2) q
    else q
  q.put 628 628 (b2n q.reach)

end Sys2Proof.Machine
end

