-- ==== Sys2Proof/Machine/Tables.lean ====
section
/-! DEFINITION. The tables of an edition (R117 to R125, R149, R170, R186 to R191, R195): where they
lie in BAR4, what a word of them holds, which writes are refused, and the exact-match table. -/

namespace Sys2Proof.Machine

/-- One table window: table code, base, entries, stride, bytes of an entry (R149, R195). -/
structure TabWin where
  code : Nat
  base : Nat
  count : Nat
  stride : Nat
  bytes : Nat
  deriving DecidableEq, Repr

/-- The writable table windows. -/
def tabWins : List TabWin :=
  [⟨0x01, 0x0, 8192, 0x100, 192⟩, ⟨0x02, 0x200000, 32768, 0x10, 16⟩, ⟨0x04, 0x300000, 4096, 0x100, 144⟩,
   ⟨0x05, 0x280000, 4096, 8, 8⟩, ⟨0x06, 0x290000, 16384, 4, 4⟩, ⟨0x10, 0x1000000, 80, 8, 8⟩,
   ⟨0x11, 0x1010000, 1024, 8, 8⟩, ⟨0x12, 0x1020000, 4, 0x80, 72⟩, ⟨0x13, 0x1100000, 16384, 0x20, 32⟩,
   ⟨0x14, 0x1200000, 1024, 8, 8⟩]

/-- The exact-match window (R151). -/
def emWin : TabWin := ⟨0x03, 0x400000, 262144, 0x20, 32⟩

/-- The image load window (R149). -/
def loadBase : Nat := 0x8000000

/-- An address lies in the image load window. -/
def inLoad (a : Nat) : Bool := decide (loadBase ≤ a) && decide (a < 0xC000000)

/-- An address lies in a window. -/
def TabWin.has (w : TabWin) (a : Nat) : Bool :=
  decide (w.base ≤ a) && decide (a < w.base + w.count * w.stride)

/-- The writable window an address lies in. -/
def findTab (a : Nat) : Option TabWin := tabWins.find? (fun w => w.has a)

/-- The table of a table code. -/
def tabOf (code : Nat) : Option TabWin := (emWin :: tabWins).find? (fun w => w.code == code)

/-- The address is mapped in BAR4 (R149, R195). -/
def bar4Mapped (a : Nat) : Bool := (findTab a).isSome || emWin.has a || inLoad a

/-- The bits a table word keeps, by table code, entry and word of the entry; reserved bits are stored
as 0. -/
def tabMask (code i w : Nat) : Nat :=
  if code = 0x01 then
    if w < 20 then 0xFFFFFFFF else if w = 20 then 0 else if w = 39 then 0xFFF0BFFF
    else if w < 40 then 0xFFFFFFFF else if w = 40 then 0xC0000000 else 0
  else if code = 0x02 then
    if w = 0 then 0xFFFFFFF0 else if w = 1 then 0x8FFF8FFF else if w = 2 then 0x003F01FF else 0
  else if code = 0x04 then
    if w < 32 then 0xFFFFFFFF else if w = 32 then 0x800F007F else if w = 33 then 0xFFFF else 0
  else if code = 0x05 then if w = 0 then 0xFFFFFFFF else 0xFC0007FF
  else if code = 0x06 then 0x80000FFF
  else if code = 0x10 then if w = 0 then 0x1F else 0
  else if code = 0x11 then if w = 0 then 0x3FFFF else 0xEFE00000
  else if code = 0x12 then if i = 0 then 0 else if w = 0 then 0xFFFF else if w < 18 then 0xFFFFFFFF else 0
  else if code = 0x13 then
    if w = 0 then 0xFFFFFFF0 else if w = 1 || w = 2 then 0x1FFFFFFF else if w = 3 then 0x83FF81FF
    else 0xFFFFFFFF
  else if code = 0x14 then if w = 0 then 0x03FFFFFF else 0
  else 0

/-- Hold a word; a word of 0 is not listed. -/
def put0 (m : NMap Nat) (k v : Nat) : NMap Nat := if v = 0 then m.erase k else m.set k v

/-- A word of the tables by its BAR4 offset, as stored. -/
def Tables.at (t : Tables) (a : Nat) : Nat := t.words.getD a 0

/-- Word `w` of entry `i` of a table. -/
def Tables.ent (t : Tables) (x : TabWin) (i w : Nat) : Nat := t.at (x.base + i * x.stride + 4 * w)

/-- Store a table word, masked to the bits the table keeps; a word of 0 is not listed. -/
def Tables.putWord (t : Tables) (x : TabWin) (a v : Nat) : Tables :=
  let o := a - x.base
  let v := v &&& tabMask x.code (o / x.stride) (o % x.stride / 4)
  { t with words := put0 t.words a v }

-- ==== the windows by name ====

abbrev tcamWin : TabWin := ⟨0x01, 0x0, 8192, 0x100, 192⟩
abbrev actWin : TabWin := ⟨0x02, 0x200000, 32768, 0x10, 16⟩
abbrev patWin : TabWin := ⟨0x04, 0x300000, 4096, 0x100, 144⟩
abbrev mcWin : TabWin := ⟨0x05, 0x280000, 4096, 8, 8⟩
abbrev indWin : TabWin := ⟨0x06, 0x290000, 16384, 4, 4⟩
abbrev zoneWin : TabWin := ⟨0x10, 0x1000000, 80, 8, 8⟩
abbrev polWin : TabWin := ⟨0x11, 0x1010000, 1024, 8, 8⟩
abbrev diagWin : TabWin := ⟨0x12, 0x1020000, 4, 0x80, 72⟩
abbrev ruleWin : TabWin := ⟨0x13, 0x1100000, 16384, 0x20, 32⟩
abbrev limWin : TabWin := ⟨0x14, 0x1200000, 1024, 8, 8⟩

-- ==== refused writes ====

/-- A DEST outside the range of its DEST_TYPE, a reserved DEST_TYPE, or a QUEUE_SRC not allowed
(R121). -/
def actBad (w0 : Nat) : Bool :=
  let ty := bits w0 31 28
  let dest := bits w0 27 16
  let qs := bits w0 15 14
  let top := if ty = 0 then 0 else if ty = 1 then 40 else if ty = 2 then 4095 else if ty = 7 then 31
    else if ty = 8 then 255 else 63
  decide (8 < ty) || decide (top < dest) || qs == 3 || (qs == 2 && ty != 1 && ty != 2)

/-- A pattern with VALID = 1 that cannot be placed (R125). -/
def patBad (w32 w33 : Nat) : Bool :=
  let len := bits w32 6 0
  let lo := bits w33 7 0
  bitAt w32 31 && (len == 0 || decide (64 < len) || decide (bits w33 15 8 < lo) || decide (256 < lo + len))

/-- A class verdict is allowed in a class: 0 TCP, 1 UDP, 2 ICMP, 3 OTHER_IP, 4 ACF, 5 NON_IP
(R170). -/
def verdictOk (c v : Nat) : Bool :=
  v == 0 || v == 1 || v == 3 || (v == 2 && decide (c < 3)) || (v == 4 && c == 4)

/-- The verdict of a class in a policy entry. -/
def polVerdict (p c : Nat) : Nat := bits p (3 * c + 2) (3 * c)

/-- A policy entry that R171 refuses. -/
def polBad (p : Nat) : Bool :=
  !(List.range 6).all (fun c => verdictOk c (polVerdict p c))
    || (bits p 62 61 != 0 && (polVerdict p 0 == 1 || polVerdict p 0 == 3))

/-- A CAN rule word 0 that R186 refuses. -/
def ruleBad (w0 : Nat) : Bool :=
  decide (2 < bits w0 30 28) || bits w0 27 26 == 3 || (bitAt w0 31 && bits w0 25 23 == 0)

/-- A limiter entry that R189 refuses. -/
def limBad (w0 : Nat) : Bool :=
  let w := w0 &&& 0x03FFFFFF
  w != 0 && (bits w 15 0 == 0 || bits w 25 16 == 0)

/-- A 64-bit write at byte `o` of an entry is refused by the rule of its table. -/
def tabBad (code o lo hi : Nat) : Bool :=
  if code = 0x02 then o == 0 && actBad lo
  else if code = 0x04 then o == 128 && patBad lo hi
  else if code = 0x05 then bits hi 10 9 != 0
  else if code = 0x11 then polBad (lo + 2 ^ 32 * hi)
  else if code = 0x12 then o == 0 && hi == 0 && lo % 65536 != 0
  else if code = 0x13 then o == 0 && ruleBad lo
  else if code = 0x14 then limBad lo
  else false

/-- Cut the TCAM key word at `a` to what its mask word compares. -/
def Tables.cutKey (t : Tables) (a : Nat) : Tables := t.putWord tcamWin a (t.at a &&& t.at (a + 80))

/-- The device stores KEY AND MASK of a TCAM entry (R118): a key word is cut as its mask is written, and all of them as
CTRL is. DESIGN CHOICE: assumption 55. -/
def Tables.cutKeys (t : Tables) (a : Nat) : Tables :=
  let o := a % 0x100
  if o < 80 then t
  else if o < 160 then (t.cutKey (a - 80)).cutKey (a - 76)
  else if o = 160 then (List.range 20).foldl (fun t w => t.cutKey (a - 160 + 4 * w)) t
  else t

/-- A 64-bit write of a table: `none` where a rule refuses it. -/
def Tables.write64 (t : Tables) (x : TabWin) (a v : Nat) : Option Tables :=
  let lo := v % 2 ^ 32
  let hi := v / 2 ^ 32 % 2 ^ 32
  let o := (a - x.base) % x.stride
  let i := (a - x.base) / x.stride
  if x.code = 0x12 && i = 0 then some t
  else if tabBad x.code o lo hi then none
  else
    let t := (t.putWord x a lo).putWord x (a + 4) hi
    some (if tcamWin.has a then t.cutKeys a else t)

-- ==== reads (R118, R151) ====

/-- Words of an exact-match entry (R123). -/
def EmEntry.word (e : EmEntry) (w : Nat) : Nat :=
  if w = 0 then 2 ^ 31 + e.profile * 2 ^ 16 + e.action else if w < 7 then e.key.getD (w - 1) 0 else 0

/-- A word of the tables as BAR4 returns it: TCAM KEY reads back as KEY AND MASK. -/
def Tables.read (t : Tables) (a : Nat) : Nat :=
  if emWin.has a then
    let i := (a - emWin.base) / 0x20
    match t.em.find? (fun e => e.slot == i) with
    | some e => e.word ((a - emWin.base) % 0x20 / 4)
    | none => 0
  else if tcamWin.has a && decide (a % 0x100 < 80) then t.at a &&& t.at (a + 80)
  else t.at a

/-- The tables BAR4 reads show (R151). -/
def Dev.shownTables (d : Dev) : Tables := d.bur.shadow.getD d.bur.cur

/-- A word of BAR4. -/
def Dev.bar4Word (d : Dev) (a : Nat) : Nat :=
  if inLoad a then d.bur.load.getD a 0 else d.shownTables.read a

-- ==== exact match (R123, R124) ====

/-- Change what the Burin keeps. -/
def Dev.withBur (d : Dev) (f : Bur → Bur) : Dev := { d with bur := f d.bur }

/-- The four words of the Burin's registers of an ingress port (R129). -/
def Dev.burPortCfg (d : Dev) (n : Nat) : List Nat := (List.range 4).map (fun k => d.word burPg (0x1000 + 0x10 * n + 4 * k))

/-- Give them values. -/
def Dev.setBurPortCfg (d : Dev) (n : Nat) (ws : List Nat) : Dev :=
  (List.range ws.length).foldl (fun d k => d.setWord burPg (0x1000 + 0x10 * n + 4 * k) (ws.getD k 0)) d

/-- Selector `k` of a selector word (R134). -/
def selOf (w k : Nat) : Nat := bits w (5 * k + 4) (5 * k)

/-- The profile key of a key (R123). -/
def Dev.emKey (d : Dev) (prof key : Nat) : List Nat :=
  let sel := d.fld burPg (R.BUR_EM_PROF_SEL_W.at prof)
  (List.range 6).map (fun k =>
    let s := selOf sel k
    if s < 20 then keyWord key s &&& d.fld burPg ((R.BUR_EM_PROF_MASK_MASK.at prof).plus (4 * k)) else 0)

/-- The entry of a profile and key. -/
def Tables.emFind (t : Tables) (prof : Nat) (key : List Nat) : Option EmEntry :=
  t.em.find? (fun e => e.profile == prof && e.key == key)

/-- The two candidate buckets of a profile and key under two initial values (R124). -/
def emBuckets (seeds : Nat × Nat) (k : Nat × List Nat) : Nat × Nat :=
  let h (s : Nat) : Nat := crc32cWords (crcByte 0x82F63B78 s k.1) k.2 % 65536
  (h seeds.1, h seeds.2)

/-- The four slots of a bucket. -/
def bucketSlots (b : Nat) : List Nat := (List.range 4).map (4 * b + ·)

/-- Place a key in one copy (R124): into a free one of the slots offered; else in place of an entry, which moves to its
other bucket, while moves are left. `pick` makes the choices that the manual leaves open. -/
def emPlace (seeds : Nat × Nat) (pick : Nat → Nat) :
    Nat → List ((Nat × List Nat) × Nat) → Nat × List Nat → List Nat → Option (List ((Nat × List Nat) × Nat))
  | moves, m, k, offered =>
    match offered.filter (fun s => m.all (·.2 != s)) with
    | s :: ss => some (m ++ [(k, (s :: ss).getD (pick moves % (ss.length + 1)) s)])
    | [] =>
      match moves with
      | 0 => none
      | n + 1 =>
        let s := offered.getD (pick moves % max 1 offered.length) 0
        match m.find? (fun e => e.2 == s) with
        | none => none
        | some e =>
          let (b0, b1) := emBuckets seeds e.1
          emPlace seeds pick n (m.filter (fun x => x.2 != s) ++ [(k, s)]) e.1
            (bucketSlots (if s / 4 = b0 then b1 else b0))

/-- The initial values of copy 0 (lane A) and copy 1 (lane B): those drawn when the Burin last started. -/
def Dev.emSeeds (d : Dev) (copy : Nat) : Nat × Nat :=
  let s (k : Nat) : Nat := Config.free d.bur.seedDraw / 2 ^ (32 * k) % 2 ^ 32
  (s (2 * copy), s (2 * copy + 1))

/-- Place a further entry in a copy whose slots are `slotOf`, with at most 16 moves. -/
def Dev.emAdd (d : Dev) (copy n : Nat) (em : List EmEntry) (slotOf : EmEntry → Nat) (k : Nat × List Nat) :
    Option (List ((Nat × List Nat) × Nat)) :=
  let (b0, b1) := emBuckets (d.emSeeds copy) k
  emPlace (d.emSeeds copy) (fun m => Config.free n / 64 ^ (17 * copy + m) % 64) 16
    (em.map (fun e => ((e.profile, e.key), slotOf e))) k (bucketSlots b0 ++ bucketSlots b1)

/-- Add an entry to both copies, or to neither (R124). -/
def Dev.emBoth (d : Dev) (em : List EmEntry) (prof : Nat) (key : List Nat) (act : Nat) : Option (List EmEntry) × Dev :=
  let (n, d) := d.draw
  match d.emAdd 0 n em EmEntry.slot (prof, key), d.emAdd 1 n em EmEntry.slotB (prof, key) with
  | some a, some b =>
    let at0 (m : List ((Nat × List Nat) × Nat)) (e : EmEntry) : Nat :=
      ((m.find? (fun x => x.1 == (e.profile, e.key))).map (·.2)).getD 0
    let e : EmEntry := ⟨prof, key, act, 0, 0⟩
    (some ((em ++ [e]).map (fun e => { e with slot := at0 a e, slotB := at0 b e })), d)
  | _, _ => (none, d)

/-- Insert an entry (R124): the tables, RESULT, and the device with the free values spent. -/
def Dev.emInsert (d : Dev) (t : Tables) (prof : Nat) (key : List Nat) (act : Nat) : Tables × Nat × Dev :=
  match t.emFind prof key with
  | some e => ({ t with em := t.em.map (fun x => if x = e then { x with action := act } else x) }, 2, d)
  | none => match d.emBoth t.em prof key act with
    | (some em, d) => ({ t with em := em }, 0, d)
    | (none, d) => (t, 1, d)

/-- Both copies are filled under new initial values (R113, R124). That every entry of an edition finds a place again is
presumed: one that would not keeps its slots. DESIGN CHOICE: assumption 57. -/
def Dev.emRefill (d : Dev) : Dev :=
  let (n, d) := d.draw
  let d := d.withBur (fun b => { b with seedDraw := n })
  let fill (d : Dev) (t : Tables) : Tables × Dev :=
    let (em, d) := t.em.foldl (fun (x : List EmEntry × Dev) e => match x.2.emBoth x.1 e.profile e.key e.action with
      | (some em, d) => (em, d)
      | (none, d) => (x.1 ++ [e], d)) ([], d)
    ({ t with em := em }, d)
  let (t, d) := fill d d.bur.cur
  let d := d.withBur (fun b => { b with cur := t })
  match d.bur.shadow with
  | none => d
  | some t =>
    let (t, d) := fill d t
    d.withBur (fun b => { b with shadow := some t })

/-- The key words of an entry, ANDed with its profile's masks (R123). -/
def Dev.emMasked (d : Dev) (prof : Nat) (ws : List Nat) : List Nat :=
  (List.range 6).map (fun k =>
    ws.getD (k + 1) 0 &&& d.fld burPg ((R.BUR_EM_PROF_MASK_MASK.at prof).plus (4 * k)))

-- ==== writes of the windows (R150) ====

/-- The party owns the open shadow. -/
def Dev.ownsShadow (d : Dev) (code : Nat) : Bool :=
  d.bur.shadow.isSome && d.fld burPg R.BUR_EDITION_SHADOW_OWNER == code

/-- A commit or a LOAD runs (R150). -/
def Dev.frozen (d : Dev) : Bool :=
  d.bur.committing || (match d.bur.edRun with
    | some (4, _, _) => true
    | _ => false)

/-- A discarded write (R150). -/
def Dev.foreignWrite (d : Dev) : Dev :=
  ((d.addCount burPg 0xF8 1).setFlag burPg R.BUR_EDITION_WRITES_FOREIGN true).refuse burPg

/-- Count changes of the open shadow (R152). -/
def Dev.shadowCount (d : Dev) (n : Nat) : Dev := d.incSat burPg R.BUR_EDITION_WRITES_COUNT n

/-- A 64-bit write of BAR4 at an 8-aligned mapped address by the party of an owner code. A write of the image load
window is no change of the open shadow and is not counted in BUR_EDITION_WRITES (R152, R165). DESIGN CHOICE: assumption
140. -/
def Dev.bar4Write (d : Dev) (code a v : Nat) : Dev :=
  if !d.ownsShadow code || d.frozen || emWin.has a then d.foreignWrite
  else if inLoad a then
    d.withBur (fun b => { b with load := put0 (put0 b.load a (v % 2 ^ 32)) (a + 4) (v / 2 ^ 32 % 2 ^ 32) })
  else match findTab a, d.bur.shadow with
    | some x, some t =>
      match t.write64 x a v with
      | some t => (d.withBur (fun b => { b with shadow := some t })).shadowCount 1
      | none => d.refuse burPg
    | _, _ => d.foreignWrite

end Sys2Proof.Machine
end

