-- ==== Sys2Proof/Machine/FwOps.lean ====
section
/-! DEFINITION. The firewall (07): zones, zone-pair policies, CAN rules, diagnostic checks and the
connection table. -/

namespace Sys2Proof.Machine

/-- Change what the firewall keeps. -/
def Dev.withFwl (d : Dev) (f : Fwl → Fwl) : Dev := { d with fwl := f d.fwl }

/-- The zone of an interface by its zone map index (R168). -/
def Dev.zoneAt (d : Dev) (i : Nat) : Nat := d.bur.cur.ent zoneWin i 0 % 32

/-- The zone of an edge bus numbered as ACF_BUS. -/
def Dev.busZone (d : Dev) (b : Nat) : Nat := d.zoneAt (48 + b)

/-- The zone of an ingress port; port 42 takes the zone of the bus in ACF_BUS (R168). -/
def Dev.portZone (d : Dev) (port bus : Nat) : Nat := if port = 42 then d.busZone bus else d.zoneAt port

/-- The policy entry of an ordered pair of zones (R170). -/
def Dev.policy (d : Dev) (s t : Nat) : Nat :=
  let i := s * 32 + t
  d.bur.cur.ent polWin i 0 + 2 ^ 32 * d.bur.cur.ent polWin i 1

/-- DIAG of a policy entry. -/
def polDiag (p : Nat) : Nat := bits p 62 61

/-- FW_REASON of a DENY or SLOW of a policy entry (R170, R173). -/
def polReason (p dev : Nat) : Nat := if bits p 59 53 = 0 then dev else 0x80 + bits p 59 53

/-- The traffic class of a frame (R169): 0 TCP, 1 UDP, 2 ICMP, 3 OTHER_IP, 4 ACF, 5 NON_IP. -/
def fwClass (q : Parsed) : Nat :=
  let l3 := keyL3 q.key
  let pr := keyProto q.key
  let ip := l3 = 1 || l3 = 2
  if q.err ≠ 0 then (if q.err = 0x0C && ip && pr = 6 then 0 else 5)
  else if ip then
    if pr = 6 then 0 else if pr = 17 then 1
    else if (l3 = 1 && pr = 1) || (l3 = 2 && pr = 58) then 2 else 3
  else if l3 = 3 then 4 else 5

/-- An ICMP echo request (8, or 128 for ICMPv6), and an echo reply. -/
def isEchoReq (q : Parsed) : Bool :=
  let t := keyL4Src q.key / 256
  if keyL3 q.key = 1 then t == 8 else t == 128

/-- An echo reply (0, or 129 for ICMPv6). -/
def isEchoRep (q : Parsed) : Bool :=
  let t := keyL4Src q.key / 256
  if keyL3 q.key = 1 then t == 0 else t == 129

-- ==== CAN rules (R186 to R190) ====

/-- A message as the CAN rules see it: source bus, destination zone, format (0 classic, 1 FD, 2 XL,
3 LIN), identifier of 29 bits, identifier, the data bytes within reach and the data length. -/
structure BusView where
  src : Nat
  zone : Nat
  fmt : Nat
  ext : Bool
  id : Nat
  bytes : List Byte
  len : Nat
  deriving DecidableEq, Repr

/-- Rule `r` of the tables matches (R187). -/
def ruleHits (t : Tables) (m : BusView) (r : Nat) : Bool :=
  let w0 := t.ent ruleWin r 0
  let mask := t.ent ruleWin r 2
  bitAt w0 31 && (bitAt w0 22 || bits w0 21 17 == m.src) && (bitAt w0 16 || bits w0 15 11 == m.zone)
    && (m.id &&& mask) == (t.ent ruleWin r 1 &&& mask)
    && (m.fmt == 3 || ((bits w0 27 26 == 2 || bits w0 27 26 == b2n m.ext) && bitAt w0 (23 + m.fmt)))

/-- The listed rules in rising order. -/
def ruleIdx (t : Tables) : List Nat :=
  t.words.filterMap (fun e =>
    if ruleWin.has e.1 && (e.1 - ruleWin.base) % 0x20 == 0 then some ((e.1 - ruleWin.base) / 0x20) else none)

/-- The payload check of a rule (R188): 0 passes, else the reason. -/
def ruleCheck (t : Tables) (m : BusView) (r : Nat) : Nat :=
  (List.range 8).foldl (fun acc i =>
    if acc ≠ 0 then acc
    else
      let byte (w : Nat) : Nat := bits (t.ent ruleWin r (w + i / 4)) (8 * (i % 4) + 7) (8 * (i % 4))
      if byte 4 = 0 then (if byte 6 = 0 then 0 else 0x12)
      else if m.len ≤ i then 0x12
      else match m.bytes[i]? with
        | none => 0x15
        | some b => if (b.toNat &&& byte 4) = byte 6 then 0 else 0x12) 0

/-- Take one token of a limiter (R188, R189). -/
def Dev.takeToken (d : Dev) (n : Nat) : Bool × Dev :=
  let have_ := d.fwl.tokens.getD n 0
  if 1000 ≤ have_ && d.bur.cur.ent limWin n 0 ≠ 0 then
    (true, d.withFwl (fun f => { f with tokens := f.tokens.set n (have_ - 1000) }))
  else (false, d)

/-- A verdict of R137: 1 PASS, 2 PASS_TRACKED, 3 DROP, 4 SLOW, with its FW_REASON. -/
structure Fw where
  verdict : Nat := 0
  reason : Nat := 0
  deriving DecidableEq, Repr

/-- The result of the CAN identifier rules, and the FWL checkers used (R187 to R189, R199). -/
def Dev.canVerdict (d : Dev) (m : BusView) (known : Bool) : Fw × List Nat × Dev :=
  let t := d.bur.cur
  match (if known then (ruleIdx t).find? (ruleHits t m) else none) with
  | none => (⟨if d.flag fwlPg R.FWL_CFG_CAN_NOMATCH_SLOW then 4 else 3, 0x10⟩, [4, 5], d.cnt fwlPg 13)
  | some r =>
    let w0 := t.ent ruleWin r 0
    let w3 := t.ent ruleWin r 3
    let act := bits w0 30 28
    let why := bits w0 10 4
    let rs (dev : Nat) : Nat := if why = 0 then dev else 0x80 + why
    let bad := ruleCheck t m r
    let lim := act = 0 && bad = 0 && bitAt w3 31
    let (ok, d) := if lim then d.takeToken (bits w3 25 16) else (true, d)
    let f : Fw := if act = 1 then ⟨3, rs 0x11⟩ else if act = 2 then ⟨4, rs 0x16⟩
      else if bad ≠ 0 then ⟨3, bad⟩ else if !ok then ⟨3, 0x13⟩ else ⟨1, 0⟩
    let d := d.when (bitAt w3 15) (fun d => d.addCount fwlPg (0x1000 + 8 * bits w3 8 0) 1)
    let d := if f.verdict = 1 then d.cnt fwlPg 12
      else if f.reason = 0x13 then d.cnt fwlPg 14
      else if f.verdict = 3 then d.cnt fwlPg 13 else d
    (f, [4, 5] ++ (if lim then [6, 7] else []), d)

/-- Credit one limiter for 1 ms: RATE thousandths of a message, up to BURST (R189). -/
def Dev.creditLimiter (d : Dev) (n : Nat) : Dev :=
  let w := d.bur.cur.ent limWin n 0
  let v := min (d.fwl.tokens.getD n 0 + bits w 15 0) (1000 * bits w 25 16)
  d.withFwl (fun f => { f with tokens := put0 f.tokens n v })

/-- The limiters that hold tokens or have an entry. -/
def Dev.limiters (d : Dev) : List Nat :=
  ((d.bur.cur.words.filterMap (fun e => if limWin.has e.1 && e.1 % 8 == 0 then
      some ((e.1 - limWin.base) / 8) else none)) ++ d.fwl.tokens.map (·.1)).eraseDups

/-- Fill every limiter, as at the start of the FWL page (R189). -/
def Dev.fillLimiters (d : Dev) : Dev :=
  d.limiters.foldl (fun d n => d.withFwl (fun f => { f with
    tokens := put0 f.tokens n (1000 * bits (d.bur.cur.ent limWin n 0) 25 16) })) d

-- ==== diagnostic gating (R191 to R194) ====

/-- Payload type class of a DoIP type (R191). -/
def doipClass (t : Nat) : Nat :=
  if t = 0 then 0 else if t ≤ 3 then 1 else if t = 4 then 2 else if t = 5 then 3 else if t = 6 then 4
  else if t = 7 then 5 else if t = 8 then 6 else if t = 0x4001 || t = 0x4002 then 7
  else if t = 0x4003 || t = 0x4004 then 8 else if t = 0x8001 then 9 else if t = 0x8002 then 10
  else if t = 0x8003 then 11 else 15

/-- The open gates, bit p − 1 for profile p. -/
def Dev.gatesNow (d : Dev) : Nat :=
  ((List.range 3).map (fun i => if d.flag fwlPg (R.FWL_DIAG_GATE_OPEN.at i) then 2 ^ i else 0)).sum

/-- The check of a DoIP message start against a profile (R192): 0 passes, else the reason. -/
def diagCheck (t : Tables) (q : Parsed) (p gates : Nat) : Nat :=
  let ent (w : Nat) : Nat := t.ent diagWin p w
  if !q.doipIn then 0x22
  else if !bitAt (ent 0) (doipClass (keyDoip q.key)) then 0x20
  else if ent 1 < q.doipLen then 0x24
  else if keyDoip q.key = 0x8001 then
    if !q.sidIn then 0x22
    else
      let s := keySid q.key
      if bitAt (ent ((if bitAt gates (p - 1) then 10 else 2) + s / 32)) (s % 32) then 0 else 0x21
  else 0

-- ==== connections (R174 to R185) ====

/-- Anchor 0 time in ms, mod 2^32 (R176). -/
def Dev.msNow (d : Dev) : Nat := d.time / 1000000 % 2 ^ 32

/-- The current epoch (R174). -/
def Dev.ctEpoch (d : Dev) : Nat := d.fld fwlPg R.FWL_CT_STAT_EPOCH

/-- Slots of the connection table. -/
def Dev.ctLog (d : Dev) : Nat := d.fld fwlPg R.FWL_CT_CFG_SIZE_LOG2

/-- The timeout in seconds of a state (R178, R180). -/
def Dev.ctTimeout (d : Dev) (st : Nat) : Nat :=
  let f := fwlPg
  if st = 1 || st = 2 then d.fld f R.FWL_TMO0_TCP_SYN else if st = 3 then d.fld f R.FWL_TMO0_TCP_EST
  else if st = 4 then d.fld f R.FWL_TMO1_TCP_FIN else if st = 5 then d.fld f R.FWL_TMO1_TCP_CLOSED
  else if st = 8 then d.fld f R.FWL_TMO2_UDP_NEW else if st = 9 then d.fld f R.FWL_TMO2_UDP_STREAM
  else d.fld f R.FWL_TMO3_ICMP

/-- An entry has expired (R180). -/
def Dev.ctExpired (d : Dev) (c : Conn) : Bool :=
  decide (1000 * d.ctTimeout c.state < (d.msNow + 2 ^ 32 - c.lastSeen) % 2 ^ 32)

/-- An entry is held: it belongs to the current epoch and has not expired. -/
def Dev.ctHeld (d : Dev) (c : Conn) : Bool := c.epoch == d.ctEpoch && !d.ctExpired c

/-- The value of a side (R175): zone, address, port as one number. -/
def sideVal (zone addr port : Nat) : Nat := (zone * 2 ^ 128 + addr) * 2 ^ 16 + port

/-- The two sides of a frame: value of the sender and of the receiver. Ports are the echo identifier
for ICMP. -/
def Parsed.sides (q : Parsed) (zs zd cls : Nat) : Nat × Nat :=
  let sp := if cls = 2 then q.echoId else keyL4Src q.key
  let dp := if cls = 2 then q.echoId else keyL4Dst q.key
  (sideVal zs (keySrc q.key) sp, sideVal zd (keyDst q.key) dp)

/-- The side the sender is: 0 where its value is the lower. -/
def sendSide (a b : Nat) : Nat := if a ≤ b then 0 else 1

/-- The bucket of a connection (R175). -/
def Dev.ctBucket (d : Dev) (lo hi proto : Nat) : Nat :=
  let bs := beBytes 19 lo ++ beBytes 19 hi ++ [BitVec.ofNat 8 proto]
  let h := bs.foldl (fun c b => crcByte 0x82F63B78 c b.toNat) (d.fld fwlPg R.FWL_CT_SEED_SEED)
  h % 2 ^ (d.ctLog - 3)

/-- The entry describes the connection of these two sides. -/
def Conn.is (c : Conn) (lo hi proto l3 : Nat) : Bool :=
  c.proto == proto && c.l3 == l3 && sideVal c.zone0 c.addr0 c.port0 == lo
    && sideVal c.zone1 c.addr1 c.port1 == hi

/-- Zone of the originator. -/
def Conn.origZone (c : Conn) : Nat := if c.orig = 0 then c.zone0 else c.zone1

/-- Zone of the responder. -/
def Conn.respZone (c : Conn) : Nat := if c.orig = 0 then c.zone1 else c.zone0

/-- Change FWL_ZONE_USED of a zone and FWL_CT_USED by one entry. -/
def Dev.zoneUse (d : Dev) (z : Nat) (up : Bool) : Dev :=
  let f := R.FWL_ZONE_USED_COUNT.at z
  d.setFld fwlPg f (if up then d.fld fwlPg f + 1 else d.fld fwlPg f - 1)

/-- FWL_CT_USED shows the entries held. -/
def Dev.ctShow (d : Dev) : Dev := d.setFld fwlPg R.FWL_CT_USED_COUNT d.fwl.conns.length

/-- Record A of an entry (R176). -/
def Conn.recordA (c : Conn) : List Nat :=
  let addr (a : Nat) : List Nat := [3, 2, 1, 0].map (fun k => a / 2 ^ (32 * k) % 2 ^ 32)
  [c.epoch * 2 ^ 16 + c.proto * 2 ^ 8 + c.l3 * 2 ^ 6, c.zone0 * 2 ^ 27 + c.zone1 * 2 ^ 22]
    ++ addr c.addr0 ++ addr c.addr1
    ++ [c.port0 * 2 ^ 16 + c.port1,
        c.state * 2 ^ 28 + c.orig * 2 ^ 27 + b2n c.revocable * 2 ^ 26 + c.diag * 2 ^ 24 + b2n c.fin0 * 2 ^ 23
          + b2n c.fin1 * 2 ^ 22,
        c.gen, c.lastSeen, c.nextSeq, c.remain]

/-- Words 32 to 39 of an entry. -/
def Conn.counters (c : Conn) : List Nat :=
  [c.frames0, c.frames1, c.octets0, c.octets1].flatMap (fun v => [v % 2 ^ 32, v / 2 ^ 32])

/-- The 64 words of an entry (R176); reserved words are 0. -/
def Conn.words (c : Conn) : List Nat :=
  c.recordA ++ c.recordA.map (fun w => 0xFFFFFFFF - w) ++ c.counters ++ List.replicate 24 0

/-- Send the CONN record of an entry (R493), its bucket index being that of its slot in the whole table. DESIGN
CHOICE: assumption 22. -/
def Dev.connCarbon (d : Dev) (c : Conn) : Dev := d.carbon 1 ((c.bucket * 8 + c.slot) :: c.words)

/-- Free an entry (R180, R184, R185, R200). -/
def Dev.ctFree (d : Dev) (c : Conn) : Dev :=
  let d := d.connCarbon { c with state := 0 }
  let d := d.withFwl (fun f => { f with conns := f.conns.filter (· != c) })
  (d.zoneUse c.origZone false).ctShow

/-- Put an entry in the place of the one of its bucket and slot. -/
def Dev.ctPut (d : Dev) (c : Conn) : Dev :=
  let moved := d.fwl.conns.any (fun x => x.bucket == c.bucket && x.slot == c.slot
    && !(x.state == c.state && x.fin0 == c.fin0 && x.fin1 == c.fin1))
  let d := d.when moved (fun d => d.connCarbon c)
  d.withFwl (fun f => { f with
    conns := f.conns.map (fun x => if x.bucket = c.bucket && x.slot = c.slot then c else x) })

/-- EDITION_COMMITS[31:0]. -/
def Dev.commits (d : Dev) : Nat := d.count burPg 0xE0 % 2 ^ 32

/-- An entry is revoked (R185). -/
def Dev.ctRevoked (d : Dev) (c : Conn) : Bool :=
  d.flag fwlPg R.FWL_CT_STAT_REV_SEEN && c.revocable
    && decide ((d.fld fwlPg R.FWL_CT_REV_GEN_GEN + 2 ^ 32 - c.gen) % 2 ^ 32 < 2 ^ 31)

/-- The class of an entry. -/
def Conn.cls (c : Conn) : Nat := if c.proto = 6 then 0 else if c.proto = 17 then 1 else 2

/-- The current edition still tracks the entry's class in the originator's direction, with the same
DIAG (R185). -/
def Dev.ctStill (d : Dev) (c : Conn) : Bool :=
  let p := d.policy c.origZone c.respZone
  polVerdict p c.cls == 2 && polDiag p == c.diag

/-- The oldest of a list of entries by LAST_SEEN. -/
def Dev.ctOldest (d : Dev) (cs : List Conn) : Option Conn :=
  cs.foldl (fun acc c => match acc with
    | none => some c
    | some x => if (d.msNow + 2 ^ 32 - x.lastSeen) % 2 ^ 32 < (d.msNow + 2 ^ 32 - c.lastSeen) % 2 ^ 32
        then some c else some x) none

/-- The sender's zone has used up its quota (R181). -/
def Dev.quotaFull (d : Dev) (z : Nat) : Bool :=
  let q := d.fld fwlPg (R.FWL_ZONE_QUOTA_LIMIT.at z)
  q != 0 && decide (q ≤ d.fld fwlPg (R.FWL_ZONE_USED_COUNT.at z))

/-- FIN, SYN, RST and ACK of TCP_FLAGS. -/
def tcpFin (q : Parsed) : Bool := bitAt (keyFlags q.key) 0
/-- SYN. -/
def tcpSyn (q : Parsed) : Bool := bitAt (keyFlags q.key) 1
/-- RST. -/
def tcpRst (q : Parsed) : Bool := bitAt (keyFlags q.key) 2
/-- ACK. -/
def tcpAck (q : Parsed) : Bool := bitAt (keyFlags q.key) 4

/-- The frame is an opener (R177). -/
def isOpener (q : Parsed) (cls : Nat) : Bool :=
  if cls = 0 then tcpSyn q && !tcpAck q && !tcpRst q && !tcpFin q
  else if cls = 1 then true else isEchoReq q

/-- The state an opener creates. -/
def openState (cls : Nat) : Nat := if cls = 0 then 1 else if cls = 1 then 8 else 10

/-- TCP transitions on a held entry for a segment of side `side` (R178): the new entry, or `none`
for DROP, CT_STATE. -/
def tcpStep (c : Conn) (q : Parsed) (side : Nat) : Option Conn :=
  let fromOrig := side = c.orig
  let st0 := c.state
  let synAck := tcpSyn q && tcpAck q
  if (st0 = 1 || st0 = 2) && !fromOrig && !synAck && !tcpRst q then none
  else
    let c := if st0 = 1 && !fromOrig && synAck then { c with state := 2 } else c
    let c := if c.state = 2 && st0 = 2 && fromOrig && tcpAck q && !tcpSyn q then { c with state := 3 } else c
    let fin := tcpFin q
    let mine := if side = 0 then c.fin0 else c.fin1
    let mark (c : Conn) : Conn := if side = 0 then { c with fin0 := true } else { c with fin1 := true }
    let c := if fin && (c.state = 1 || c.state = 2 || c.state = 3) then mark { c with state := 4 }
      else if fin && c.state = 4 && st0 = 4 && !mine then mark { c with state := 5 } else c
    some (if tcpRst q then { c with state := 5 } else c)

/-- The entry's DoIP bookkeeping for an originator segment (R193): the new entry, the reason, whether it is a
continuation, and whether the profile was read. -/
def diagSegment (t : Tables) (gates : Nat) (c : Conn) (q : Parsed) : Conn × Nat × Bool × Bool :=
  let n := q.segLen
  let next := (q.seq + n) % 2 ^ 32
  let behind := (c.nextSeq + 2 ^ 32 - next) % 2 ^ 32
  if n = 0 then ({ c with nextSeq := next }, 0, false, false)
  else if q.seq ≠ c.nextSeq && behind < 2 ^ 31 then (c, 0, false, false)
  else if q.seq ≠ c.nextSeq then (c, 0x23, false, false)
  else if 0 < c.remain then
    if c.remain < n then (c, 0x23, false, false)
    else ({ c with nextSeq := next, remain := c.remain - n }, 0, true, false)
  else if q.err = 0x0C then (c, 0x23, false, false)
  else
    let bad := diagCheck t q c.diag gates
    if bad ≠ 0 then (c, bad, false, true)
    else if 8 + q.doipLen < n then (c, 0x23, false, true)
    else ({ c with nextSeq := next, remain := 8 + q.doipLen - n }, 0, false, true)

end Sys2Proof.Machine
end

