-- ==== Sys2Proof/Machine/BurOps.lean ====
section
/-! DEFINITION. The Burin's decision (05): lookups, order of decision, resolution of the destination,
the firewall join, the comparators and what becomes of the result. -/

namespace Sys2Proof.Machine

/-- The result as a decision is formed: the result itself, the BUR counters it counts in once it is
checked, the FWL counters, the rule counter, and the BUR checkers its reads used (R143). -/
structure Made where
  res : Res
  counts : List Nat := []
  fw : List Nat := []
  rule : Option Nat := none
  used : List Nat := []
  /-- FWL checkers used (R199). -/
  usedFw : List Nat := []
  discard : Bool := false
  deriving DecidableEq, Repr

-- ==== lookups (R119, R123, R126) ====

/-- The indexes of TCAM entries with VALID = 1, in rising order. -/
def tcamIdx (t : Tables) : List Nat :=
  t.words.filterMap (fun e =>
    if tcamWin.has e.1 && e.1 % 0x100 == 0xA0 && bitAt e.2 31 then some (e.1 / 0x100) else none)

/-- A TCAM entry hits (R119). -/
def tcamHits (t : Tables) (key i : Nat) : Bool :=
  (List.range 20).all (fun w =>
    let m := t.ent tcamWin i (20 + w)
    (keyWord key w &&& m) == (t.ent tcamWin i w &&& m))

/-- The word of lane B's copy of the table word at `a` (R140): a TCAM mask as written, all else inverted. -/
def Tables.laneB (t : Tables) (a : Nat) : Nat :=
  if tcamWin.has a && decide (80 ≤ a % 0x100) then t.at a else t.at a ^^^ 0xFFFFFFFF

/-- A TCAM entry hits in lane B, whose copy is searched with NOT key (R140). -/
def tcamHitsB (t : Tables) (key i : Nat) : Bool :=
  let a := tcamWin.base + i * tcamWin.stride
  (List.range 20).all (fun w =>
    let m := t.laneB (a + 4 * (20 + w))
    ((keyWord key w ^^^ 0xFFFFFFFF) &&& m) == (t.laneB (a + 4 * w) &&& m))

/-- The winning TCAM entry. -/
def tcamFind (t : Tables) (key : Nat) : Option Nat := (tcamIdx t).find? (tcamHits t key)

/-- The indexes of patterns with VALID = 1, in rising order. -/
def patIdx (t : Tables) : List Nat :=
  t.words.filterMap (fun e =>
    if patWin.has e.1 && (e.1 - patWin.base) % 0x100 == 128 && bitAt e.2 31
    then some ((e.1 - patWin.base) / 0x100) else none)

/-- Pattern `i` matches at window offset `o` (R126). -/
def patAt (t : Tables) (win : List Byte) (i o : Nat) : Bool :=
  let len := bits (t.ent patWin i 32) 6 0
  decide (o + len ≤ win.length) && (List.range len).all (fun j =>
    let byte (w : Nat) : Nat := bits (t.ent patWin i (w + j / 4)) (8 * (j % 4) + 7) (8 * (j % 4))
    let b := match win[o + j]? with
      | some b => b.toNat
      | none => 0
    (b &&& byte 16) == (byte 0 &&& byte 16))

/-- Pattern `i` matches somewhere in the window. -/
def patHits (t : Tables) (win : List Byte) (i : Nat) : Bool :=
  let lo := bits (t.ent patWin i 33) 7 0
  let hi := bits (t.ent patWin i 33) 15 8
  (List.range (hi + 1 - lo)).any (fun k => patAt t win i (lo + k))

/-- The payload window of a frame (R126). -/
def Dev.window (d : Dev) (f : Frm) (q : Parsed) : List Byte :=
  let g (x : Fld) : Nat := d.fld burPg (x.at f.inPort)
  slice f.data (q.pay + g R.BUR_PORT_CFG2_WIN_OFFSET) (g R.BUR_PORT_CFG2_WIN_LEN)

/-- Scan the window of a deep-mode frame and put the outcome into the key (R126). -/
def Dev.scan (d : Dev) (f : Frm) (q : Parsed) : Parsed × Dev :=
  let win := d.window f q
  if !f.deep || q.reach || win.isEmpty then (q, d)
  else
    let t := d.bur.cur
    let hits := (patIdx t).filter (patHits t win)
    let d := d.addCount burPg 0x3080 win.length
    match hits with
    | [] => (q, d)
    | h :: _ =>
      let cls := hits.foldl (fun c i => c ||| 2 ^ bits (t.ent patWin i 32) 19 16) 0
      (((q.put 69 54 cls).put 53 42 h).put 41 41 1, d.addCount burPg 0x3088 1)

-- ==== hash groups (R133, R135) ====

/-- The hash of a key for a group. -/
def Dev.hashOf (d : Dev) (g key : Nat) : Nat :=
  let sel := d.fld burPg (R.BUR_HASH_SEL_W.at g)
  let ws := (List.range 6).filterMap (fun k =>
    let s := selOf sel k
    if s < 20 then some (keyWord key s &&& d.fld burPg ((R.BUR_HASH_MASK_MASK.at g).plus (4 * k)))
    else none)
  crc32cWords (d.fld burPg (R.BUR_HASH_SEED_SEED.at g)) ws

/-- TARGET of the group's indirection for a key, `none` where the use is not allowed (R135). -/
def Dev.target (d : Dev) (g feature key : Nat) : Option Nat :=
  let i := 0x40 + g
  let e := d.bur.cur.ent indWin (g * 256 + d.hashOf g key % 256) 0
  if d.flag sysPg (R.SYS_CLAIM_HELD.at i) && d.fld sysPg (R.SYS_CLAIM_FEATURE.at i) == feature
      && bitAt e 31 && !(feature == 8 && decide (39 < bits e 5 0)) then
    some (if feature = 8 || feature = 0xB then bits e 5 0 else if feature = 0xA then bits e 2 0
      else bits e 11 0)
  else none

-- ==== the slow path (R132) ====

/-- A result on the slow path with a reason: queue and policer are those of BUR_SLOW_CFG. -/
def Dev.toSlow (d : Dev) (r : Res) (reason : Nat) : Res :=
  let pol := if d.flag burPg R.BUR_SLOW_CFG_POLICER_EN
    then 2 ^ 31 + d.fld burPg R.BUR_SLOW_CFG_POLICER * 2 ^ 16 else 0
  { r with destType := 8, dest := reason, queue := d.fld burPg R.BUR_SLOW_CFG_QUEUE,
           meter := pol + bits r.meter 15 0 }

-- ==== resolution (R120 to R122, R135) ====

/-- A frame discarded under R122 or R135. -/
def Made.unusable (m : Made) : Made :=
  { m with res := { m.res with destType := 0, dest := 0 }, counts := 15 :: m.counts, discard := true }

/-- The egress queue an action names (R120): `none` where its indirection cannot be used. -/
def Dev.queueOf (d : Dev) (w0 w2 key port : Nat) : Option Nat :=
  let qs := bits w0 15 14
  if qs = 0 then some (bits w0 13 11)
  else if qs = 1 then
    let pcp := if keyTags key = 0 then d.fld burPg (R.BUR_PORT_CFG3_DEFAULT_PCP.at port) else bits key 499 497
    some (bits (d.fld burPg (R.BUR_PORT_CFG3_PCP_MAP.at port)) (3 * pcp + 2) (3 * pcp))
  else d.target (bits w2 21 16) 0xA key

/-- Apply action word `i` to a key (R120, R121). -/
def Dev.applyAction (d : Dev) (m : Made) (i key port : Nat) : Made :=
  let t := d.bur.cur
  let w0 := t.ent actWin i 0
  let w1 := t.ent actWin i 1
  let w2 := t.ent actWin i 2
  let ty := bits w0 31 28
  let dest := bits w0 27 16
  let ind := bits w0 15 14 = 2 || ty = 3 || ty = 4 || ty = 6
  let m := { m with
    used := m.used ++ [0x14, 0x15] ++ (if ty = 2 then [0x18, 0x19] else []) ++ (if ind then [0x1A, 0x1B] else []),
    rule := if bitAt w0 4 then some (bits w2 8 0) else none,
    res := { m.res with revocable := bitAt w0 10, mirrorEn := bitAt w0 9, mirrorSession := bits w0 8 5,
                        meter := w1 } }
  if ty = 8 then { m with res := d.toSlow m.res dest }
  else match d.queueOf w0 w2 key port with
    | none => m.unusable
    | some q =>
      let m := { m with res := { m.res with queue := q, destType := ty, dest := dest } }
      let via (feature : Nat) : Made := match d.target dest feature key with
        | some x => { m with res := { m.res with dest := x } }
        | none => m.unusable
      if ty = 2 then
        if bitAt (t.ent mcWin dest 1) 31 then
          { m with res := { m.res with ports := t.ent mcWin dest 0 + 2 ^ 32 * bits (t.ent mcWin dest 1) 10 0 } }
        else m.unusable
      else if ty = 3 then via 8
      else if ty = 4 then via 9
      else if ty = 6 then via 0xB
      else if ty = 0 then { m with counts := 20 :: m.counts }
      else m

/-- ZONE_DST of a resolved destination (R136); `grp` is the hash group of the action word. -/
def Dev.zoneDst (d : Dev) (r : Res) (grp : Nat) : Nat :=
  if r.destType = 1 then d.zoneAt r.dest
  else if r.destType = 2 then bits (d.bur.cur.ent mcWin r.dest 1) 30 26
  else if r.destType = 3 || r.destType = 4 then d.fld burPg (R.BUR_HASH_CFG_ZONE.at grp)
  else if r.destType = 5 || r.destType = 6 then d.zoneAt 41
  else if r.destType = 7 then d.busZone r.dest
  else 0

-- ==== order of decision (R127, R128) ====

/-- The key of a fragment-follow record (R130). -/
def fragKey (q : Parsed) : Nat :=
  let k := q.key
  (((((keyInPort k * 4 + keyL3 k) * 2 ^ 128 + keySrc k) * 2 ^ 128 + keyDst k) * 256 + keyProto k)
    * 2 ^ 32) + q.ident

/-- The age of an edition (R156). -/
def Dev.age (d : Dev) (e : Nat) : Nat := (d.fld burPg R.BUR_EDITION_CUR_CUR + 256 - e) % 256

/-- The record a header finds: visible from 500 ns after the first fragment's t0, absent at 64
editions of age; before 500 ns whether it is found is not stated and is drawn (R130, R131). -/
def Dev.fragFind (d : Dev) (q : Parsed) (at0 : Nat) : Option Frag × Dev :=
  match d.bur.frags.find? (fun r => r.key == fragKey q) with
  | none => (none, d)
  | some r =>
    if 64 ≤ d.age r.res.edition then (none, d)
    else if r.madeAt + 2000 ≤ at0 then (some r, d)
    else
      let (n, d) := d.draw
      (if Config.free n % 2 = 1 then some r else none, d)

/-- The lookups of rows 5 and 6 of R127. -/
def Dev.lookup (d : Dev) (m : Made) (key port : Nat) : Made × Nat :=
  let t := d.bur.cur
  let g (x : Fld) : Nat := d.fld burPg (x.at port)
  let tc := tcamFind t key
  let emOn := g R.BUR_PORT_CFG0_EM_EN = 1
  let prof := g R.BUR_PORT_CFG0_EM_PROF
  let em := if emOn then t.emFind prof (d.emKey prof key) else none
  let m := { m with used := m.used ++ [0x10, 0x11] ++ (if emOn then [0x12, 0x13] else []) }
  let m := { m with counts := m.counts ++ (if tc.isSome then [2] else []) ++ (if em.isSome then [3] else []) }
  let byEm (e : EmEntry) : Made × Nat :=
    ({ m with res := { m.res with source := 1, rule := e.action } }, e.action)
  let byTcam (i : Nat) : Made × Nat := ({ m with res := { m.res with source := 0, rule := i } }, i)
  match tc, em with
  | some i, some e => if bitAt (t.ent tcamWin i 40) 30 then byEm e else byTcam i
  | some i, none => byTcam i
  | none, some e => byEm e
  | none, none =>
    let i := g R.BUR_PORT_CFG0_NOMATCH_ACTION
    ({ m with counts := 4 :: m.counts, res := { m.res with source := 2, rule := i } }, i)

/-- The decision of R127: what is made of it before the firewall, whether a firewall lookup may
follow, and the hash group its action word names as DEST. ACTION_DROP does not take a fragment that a miss discards
(R127, DESIGN CHOICE: assumption 137); it takes one that follows the record of a TARGET_DISCARD result (R130, DESIGN
CHOICE: assumption 138). -/
def Dev.decision (d : Dev) (f : Frm) (q : Parsed) (at0 : Nat) : Made × Bool × Nat × Dev :=
  let key := q.key
  let port := f.inPort
  let g (x : Fld) : Nat := d.fld burPg (x.at port)
  let base : Res :=
    { edition := d.fld burPg R.BUR_EDITION_CUR_CUR, zoneSrc := keyZoneSrc key, parseErr := q.err,
      patHit := bitAt key 41, deep := f.deep, patId := bits key 53 42 }
  let m : Made := { res := base, counts := [if f.deep then 1 else 0] }
  let act (m : Made) (i : Nat) (d : Dev) : Made × Bool × Nat × Dev :=
    let dest := bits (d.bur.cur.ent actWin i 0) 27 16
    (d.applyAction m i key port, true, dest, d)
  let fragOn := d.flag burPg R.BUR_FRAG_CFG_EN
  if q.err ≠ 0 then
    let i := g R.BUR_PORT_CFG1_PARSE_ACTION
    act { m with counts := m.counts ++ [5, 32 + q.err], res := { m.res with source := 3, rule := i } } i d
  else if !f.deep && keyFrag key = 2 && fragOn then
    let m := { m with used := [0x1C, 0x1D] }
    let (r, d) := d.fragFind q at0
    match r with
    | some r =>
      let n := if r.res.destType = 0 then (if r.res.fwVerdict = 3 then [11] else [20]) else []
      ({ m with counts := m.counts ++ [6] ++ n, res := { r.res with source := 4 } }, false, 0, d)
    | none =>
      let m := { m with counts := m.counts ++ [7], res := { m.res with source := 5 } }
      if g R.BUR_PORT_CFG0_FRAG_MISS_SLOW = 1 then
        ({ m with counts := 9 :: m.counts, res := d.toSlow m.res 0x101 }, false, 0, d)
      else (m, false, 0, d)
  else if f.deep && keyFrag key = 2 then
    ({ m with counts := 9 :: m.counts, res := d.toSlow { m.res with source := 6 } 0x100 }, false, 0, d)
  else
    let (m, i) := d.lookup m key port
    act m i d

-- ==== the firewall join (R137, R172) ====

/-- Join a verdict to a result (R137). -/
def Dev.join (d : Dev) (m : Made) (f : Fw) : Made :=
  let r := { m.res with fwVerdict := f.verdict, fwReason := f.reason }
  if f.verdict = 3 then
    { m with res := { r with destType := 0, dest := 0, mirrorEn := false }, counts := 11 :: m.counts,
             fw := m.fw ++ [3] }
  else if f.verdict = 4 then { m with res := d.toSlow r (0x200 + f.reason), fw := m.fw ++ [4] }
  else { m with res := r, fw := m.fw ++ [f.verdict] }

/-- The bus message of a bridged frame as the CAN rules see it (R187, R188). -/
def busView (f : Frm) (q : Parsed) (zone : Nat) : BusView :=
  let lim := if f.deep then 128 else 64
  { src := keyAcfBus q.key, zone := zone, fmt := q.acfFmt, ext := q.acfExt, id := keyBusId q.key,
    bytes := slice f.data q.acfAt (min q.acfLen (lim - q.acfAt)), len := q.acfLen }

/-- Steps 4 and 5 of R172 under class verdict `v`. -/
def Dev.fwRest (d : Dev) (fl : Flight) (m : Made) : Made × Dev :=
  let q := fl.parsed
  let p := fl.polV
  let v := polVerdict p fl.cls
  let doip := keyL4Src q.key = 13400 || keyL4Dst q.key = 13400
  let bad := if polDiag p ≠ 0 && fl.cls = 1 && doip then diagCheck d.bur.cur q (polDiag p) fl.gates else 0
  let m := if polDiag p ≠ 0 && fl.cls = 1 && doip then { m with usedFw := m.usedFw ++ [8, 9] } else m
  if bad ≠ 0 then (d.join { m with fw := m.fw ++ [15] } ⟨3, bad⟩, d)
  else if v = 1 then (d.join m ⟨1, 0⟩, d)
  else if v = 3 then (d.join m ⟨4, polReason p 2⟩, d)
  else if v = 4 then
    if keyAcfMsg q.key = 0xF && !d.flag fwlPg R.FWL_CFG_MULTI_OK then (d.join m ⟨3, 0x14⟩, d)
    else
      let (f, used, d) := d.canVerdict (busView fl.frm q m.res.zoneDst) (keyAcfMsg q.key ≠ 0)
      (d.join { m with usedFw := m.usedFw ++ used } f, d)
  else (d.join m ⟨3, polReason p 1⟩, d)

/-- The verdict of a miss in the connection table: step 3 of R172 where v is TRACK is handled by the
caller; otherwise steps 4 and 5. -/
def Dev.fwBegin (d : Dev) (fl : Flight) (m : Made) : Made × Bool × Dev :=
  let q := fl.parsed
  let m := { m with fw := m.fw ++ [0], usedFw := m.usedFw ++ [0, 1, 2, 3] }
  if !d.isOn fwlPg then (d.join m ⟨3, 0x0F⟩, false, d)
  else
    let v := polVerdict fl.polV fl.cls
    let w := polVerdict fl.polW fl.cls
    let rest (_ : Unit) : Made × Bool × Dev :=
      let (m, d) := d.fwRest fl m
      (m, false, d)
    if fl.cls < 3 && (v = 2 || w = 2) then
      if !d.flag fwlPg R.FWL_CT_CFG_EN then
        if v = 2 then (d.join m ⟨3, 0x0A⟩, false, d) else rest ()
      else if fl.cls = 2 && q.typeIn && !isEchoReq q && !isEchoRep q then
        if v = 2 then (d.join m ⟨3, 9⟩, false, d) else rest ()
      else if !q.l4In then
        (d.join { m with fw := m.fw ++ [17] } ⟨if d.flag fwlPg R.FWL_CFG_REACH_SLOW then 4 else 3, 6⟩, false, d)
      else (m, true, d)
    else rest ()

-- ==== comparators and injections (R141 to R143) ====

/-- A frame leaves the Burin without a result: its cells are freed, its connection read is withdrawn
(R407). -/
def Dev.burDrop (d : Dev) (fl : Flight) : Dev :=
  let d := d.withBur (fun b => { b with flights := b.flights.filter (fun x => x.frm.id != fl.frm.id) })
  (d.dsWithdraw (2 + fl.pipe) fl.frm.id).freeCells fl.frm.id

/-- The fault class of a BUR checker (R143) and of a FWL checker (R199). -/
def burCls (c : Nat) : Nat := if c < 4 then 2 else 0
/-- The fault class of a FWL checker. -/
def fwlCls (c : Nat) : Nat := if c < 10 then 0 else 2

/-- An uncorrectable or disagreeing decision discards the frame (R141, R142): `checker` names the
comparator or table copy. An uncorrectable table read raises its own event alone, not MISMATCH. DESIGN CHOICE:
assumption 139. -/
def Dev.burBad (d : Dev) (fl : Flight) (u : Upset) : Dev :=
  match u with
  | .table c => (((d.burDrop fl).addCount burPg 0x3090 1).raise burPg 4).fault
      { cls := 0, page := burPg, checker := c }
  | .lanes => (((d.burDrop fl).addCount burPg 0x3060 1).raise burPg 0).fault
      { cls := 2, page := burPg, checker := 2 * fl.pipe }
  | .one c => (((d.burDrop fl).addCount burPg 0x3068 1).raise burPg 0).fault
      { cls := 2, page := burPg, checker := 2 * fl.pipe + c.val }
  | _ => d

/-- The outcome spoils the frame. -/
def upsetSpoils : Upset → Bool
  | .table _ | .lanes | .one _ => true
  | _ => false

/-- The outcome is an uncorrectable table read. -/
def upsetTable : Upset → Bool
  | .table _ => true
  | _ => false

/-- The armed checker of a table the decision has read: BUR first, then FWL. -/
def Dev.meetsTable (d : Dev) (m : Made) : Option (Page × Nat) :=
  match m.used.find? (d.isArmed burPg) with
  | some c => some (burPg, c)
  | none => match m.usedFw.find? (d.isArmed fwlPg) with
    | some c => some (fwlPg, c)
    | none => none

/-- The armed checker the frame meets first: tables read, then the comparators of its pipeline. -/
def Dev.meets (d : Dev) (fl : Flight) (m : Made) : Option (Page × Nat) :=
  match d.meetsTable m with
  | some x => some x
  | none => match [2 * fl.pipe, 2 * fl.pipe + 1].find? (d.isArmed burPg) with
    | some c => some (burPg, c)
    | none => none

/-- The frame meets an injection (R143): it is discarded, counted as injected, and the checker's
fault is raised. -/
def Dev.burInject (d : Dev) (fl : Flight) (p : Page) (c : Nat) : Dev :=
  let d := ((d.burDrop fl).disarm p c).addCount burPg 0x3070 1
  d.injected.fault { cls := if p == burPg then burCls c else fwlCls c, page := p, checker := c, injected := true }

-- ==== fragment records (R130, R131) ====

/-- BUR_FRAG_CFG.USED shows the records held. -/
def Dev.fragShow (d : Dev) : Dev := d.setFld burPg R.BUR_FRAG_CFG_USED d.bur.frags.length

/-- Record a first fragment's checked result. -/
def Dev.fragRecord (d : Dev) (key at0 : Nat) (r : Res) : Dev :=
  let held := d.bur.frags.any (fun x => x.key == key)
  let rest := d.bur.frags.filter (fun x => x.key != key)
  let full := !held && decide (512 ≤ rest.length)
  let d := d.withBur (fun b => { b with frags := (if full then rest.drop 1 else rest) ++ [⟨key, r, at0⟩] })
  let d := d.when full (fun d => (d.addCount burPg 0x3040 1).raise burPg 2)
  d.fragShow

-- ==== the checked result ====

/-- Counters that tell of a discard count only once the result is checked. -/
def isDiscardCount (c : Nat) : Bool := c == 11 || c == 15 || c == 20 || c == 9

/-- Count what the lookups found. -/
def Dev.countLookups (d : Dev) (m : Made) : Dev :=
  (m.counts.filter (fun c => !isDiscardCount c)).foldl (fun d c => d.bump burPg 0x3000 c) d

/-- Change a frame in the pipelines. -/
def Dev.setFlight (d : Dev) (fl : Flight) : Dev :=
  d.withBur (fun b => { b with flights := b.flights.map (fun x => if x.frm.id = fl.frm.id then fl else x) })

/-- A decision is checked and stamped (R112, R141): counters, fragment record, and the result waits
for its turn; or the frame is discarded. -/
def Dev.stamp (d : Dev) (fl : Flight) (m : Made) (u : Upset) : Dev :=
  let d := d.countLookups m
  match d.meets fl m with
  | some (p, c) => d.burInject fl p c
  | none =>
    if upsetSpoils u then d.burBad fl u
    else
      let d := d.when (u == Upset.corrected) (fun d => d.bump burPg 0x3000 19)
      let d := (m.counts.filter isDiscardCount).foldl (fun d c => d.bump burPg 0x3000 c) d
      let d := m.fw.foldl (fun d c => d.cnt fwlPg c) d
      let d := match m.rule with
        | some i => d.addCount burPg (0x4000 + 8 * i) 1
        | none => d
      let d := d.when (m.res.destType == 8) (fun d => d.bump burPg 0x3000 10)
      let d := d.when m.discard (fun d => d.raise burPg 3)
      let d := d.when (!fl.frm.deep && keyFrag fl.parsed.key == 1 && d.flag burPg R.BUR_FRAG_CFG_EN) (fun d => d.fragRecord (fragKey fl.parsed) fl.at0 m.res)
      let l3 := if fl.parsed.err = 0 then fl.parsed.ipAt else none
      d.setFlight { fl with phase := 2, frm := { fl.frm with res := m.res, l3 := l3 } }

/-- The frame waits for its connection read; its decision so far is kept (R183). -/
def Dev.ctWait (d : Dev) (fl : Flight) (m : Made) : Dev :=
  let d := d.setFlight { fl with phase := 1, frm := { fl.frm with res := m.res }, counts := m.counts, fw := m.fw,
                                 rule := m.rule }
  d.dsAsk { who := 2 + fl.pipe, at0 := 0, tag := fl.frm.id }

/-- Steps "Edition taken" to "Decisions made" of a waiting frame (R112), under the registers of its port as they stand. A
frame that meets an injection, or whose decision is spoiled, has no firewall verdict to count. -/
def Dev.judge (d : Dev) (fl : Flight) (u : Upset) : Dev :=
  let f := fl.frm
  let q := parseFrame f.deep f.inPort (d.fld burPg (R.BUR_PORT_CFG0_USER_META.at f.inPort))
    (d.fld (canPg 0) R.EDG_BRIDGE_CFG_XL_TYPE) f.data
  let q := q.put 633 629 (d.portZone f.inPort (keyAcfBus q.key))
  let (q, d) := d.scan f q
  let (m, fw, grp, d) := d.decision f q fl.at0
  let fw := fw && !m.discard && m.res.destType ≠ 0 && m.res.destType ≠ 8
  let zd := if fw then d.zoneDst m.res grp else m.res.zoneDst
  let scanned := if f.deep && !q.reach && !(d.window f q).isEmpty then [0x16, 0x17] else []
  let m := { m with res := { m.res with zoneDst := zd }, used := scanned ++ m.used }
  let fl := { fl with parsed := q, cls := fwClass q, gates := d.gatesNow,
                      polV := d.policy m.res.zoneSrc zd, polW := d.policy zd m.res.zoneSrc }
  if !fw then d.stamp fl m u
  else
    let (m, ct, d') := d.fwBegin fl m
    if !ct then (if (d.meets fl m).isSome || upsetSpoils u then d else d').stamp fl m u
    else match d.meetsTable m with
      | some (p, c) => (d.countLookups m).burInject fl p c
      | none =>
        if upsetTable u then (d.countLookups m).burBad fl u
        else d'.ctWait fl (if u = Upset.corrected then { m with counts := 19 :: m.counts } else m)

/-- A waiting frame is classified under the registers of its port as its header found them (R112, R129). -/
def Dev.classify (d : Dev) (fl : Flight) (u : Upset) : Dev :=
  let now := d.burPortCfg fl.frm.inPort
  ((d.setBurPortCfg fl.frm.inPort fl.portCfg).judge fl u).setBurPortCfg fl.frm.inPort now

end Sys2Proof.Machine
end

