-- ==== Sys2Proof/Machine/EdOps.lean ====
section
/-! DEFINITION. Editions (06): which are inside, revocation, the exact-match and edition commands,
images, commit, flip and abandon. -/

namespace Sys2Proof.Machine

-- ==== frames inside and revocation (R156 to R158) ====

/-- The frames with a result inside: past "Edition taken" in the pipelines, queued, released. A gPTP message of the
device has no result (R269). -/
def Dev.framesIn (d : Dev) : List Frm :=
  (d.bur.flights.filter (fun f => f.phase != 0)).map (·.frm)
    ++ (d.hall.queues.flatMap (fun e => e.2.all.map (·.frm))
      ++ d.hall.tx.flatMap (fun e => e.2.map (·.copy.frm))).filter (fun f => f.inPort != 63)

/-- Their editions. -/
def Dev.insideEds (d : Dev) : List Nat := d.framesIn.map (·.res.edition)

/-- OLDEST: the edition of greatest age inside, CUR where there is none older. -/
def Dev.oldest (d : Dev) : Nat :=
  d.insideEds.foldl (fun o e => if d.age o < d.age e then e else o) (d.fld burPg R.BUR_EDITION_CUR_CUR)

/-- The edition lies at or before the newest revoked edition. -/
def Dev.atRevoked (d : Dev) (e : Nat) : Bool := decide (d.age (d.fld burPg R.BUR_EDITION_CUR_REVOKED) ≤ d.age e)

/-- REV_VALID as it reads: 0 again once no frame of a revoked edition is inside (R158). -/
def Dev.revValid (d : Dev) : Bool := d.flag burPg R.BUR_EDITION_CUR_REV_VALID && d.insideEds.any d.atRevoked

/-- A result is revoked (R158): the boundary is in force while a frame of a revoked edition is
inside. -/
def Dev.revoked (d : Dev) (r : Res) : Bool :=
  r.revocable && d.flag burPg R.BUR_EDITION_CUR_REV_VALID && d.atRevoked r.edition

/-- BUR_EDITION_CUR as it reads. -/
def Dev.edCurWord (d : Dev) : Nat :=
  b2n d.revValid * 2 ^ 31 + d.fld burPg R.BUR_EDITION_CUR_REVOKED * 2 ^ 16 + d.oldest * 2 ^ 8
    + d.fld burPg R.BUR_EDITION_CUR_CUR

-- ==== exact-match commands (R124) ====

/-- A GO of BUR_EM_CMD with value `v` by the party of an owner code. -/
def Dev.emGo (d : Dev) (who : Owner) (v : Nat) : Dev :=
  let b := burPg
  if !bitAt v 31 then d.setFld b R.BUR_EM_CMD_OP (bits v 1 0)
  else if !d.holds b who || d.flag b R.BUR_EM_STAT_BUSY || bits v 1 0 == 3
      || d.flag b R.BUR_EDITION_STAT_BUSY then d.refuse b
  else
    let d := (d.setFld b R.BUR_EM_CMD_OP (bits v 1 0)).setFlag b R.BUR_EM_STAT_BUSY true
    let ws := (List.range 8).map (fun k => d.fld b (R.BUR_EM_ENTRY_WORD.at k))
    d.withBur (fun x => { x with emRun := some (bits v 1 0, who.code, ws) })

/-- The running exact-match command takes effect: RESULT and the device. -/
def Dev.emRunOp (d : Dev) (op code : Nat) (ws : List Nat) : Nat × Dev :=
  match d.bur.shadow with
  | none => (4, d)
  | some t =>
    if !d.ownsShadow code then (4, d)
    else
      let w0 := ws.getD 0 0
      let prof := bits w0 19 16
      let key := d.emMasked prof ws
      if op = 0 then
        let (t, r, d) := d.emInsert t prof key (bits w0 14 0)
        let d := d.withBur (fun x => { x with shadow := some t })
        (r, if r = 1 then d else d.shadowCount 1)
      else match t.emFind prof key with
        | none => (3, d)
        | some e =>
          if op = 1 then
            (0, (d.withBur (fun x => { x with shadow := some { t with em := t.em.filter (· != e) } })).shadowCount 1)
          else (0, d.setFld burPg R.BUR_EM_ENTRY_WORD (e.word 0))

/-- An exact-match command completes (R124). -/
def Dev.emFinish (d : Dev) : Dev :=
  match d.bur.emRun with
  | none => d
  | some (op, code, ws) =>
    let (r, d) := d.emRunOp op code ws
    let d := d.withBur (fun x => { x with emRun := none })
    let d := ((d.setFlag burPg R.BUR_EM_STAT_BUSY false).setFlag burPg R.BUR_EM_STAT_DONE true).setFld
      burPg R.BUR_EM_STAT_RESULT r
    (d.raise burPg 1).digestResult 2 r

/-- BUR_EM_USED.COUNT as it reads. -/
def Dev.emUsed (d : Dev) : Nat := d.shownTables.em.length

-- ==== images (R164, R165) ====

/-- One section of an image. -/
structure Section where
  win : TabWin
  replace : Bool
  first : Nat
  count : Nat
  /-- Word of the image at which its entries begin. -/
  at0 : Nat
  deriving DecidableEq, Repr

/-- Word `i` of the image in the load window. -/
def Dev.imgWord (d : Dev) (i : Nat) : Nat := d.bur.load.getD (loadBase + 4 * i) 0

/-- The first `n` bytes of the image. -/
def Dev.imgBytes (d : Dev) (n : Nat) : List Byte :=
  ((List.range ((n + 3) / 4)).flatMap (fun i => leBytes 4 (d.imgWord i))).take n

/-- The CRC of an image of `len` bytes: over the bytes before and after its CRC word. -/
def Dev.imgCrc (d : Dev) (len : Nat) : Nat :=
  let bs := d.imgBytes len
  crc32c (bs.take 0x3C ++ bs.drop 0x40)

/-- The header checks of an image of `kind` (R165 steps 1 and 2): 0 passes, else RESULT. -/
def Dev.imgHeader (d : Dev) (len kind : Nat) (base : Option Nat) : Nat :=
  let w (i : Nat) : Nat := d.imgWord i
  let n := w 4
  let secs := bits (w 3) 15 0
  if w 0 ≠ 0x31474852 || bits (w 1) 15 0 ≠ 1 || n ≠ len || n % 8 ≠ 0 || n < 64
      || secs = 0 || 4095 < secs || d.imgCrc n ≠ w 15 then 9
  else if bits (w 1) 31 24 ≠ kind then 0xC
  else if w 2 ≠ 0x00033980 then 0xA
  else match base with
    | some b => if bitAt (w 5) 8 && bits (w 5) 7 0 ≠ b then 0xA else 0
    | none => 0

/-- The sections of an image, or the number of the first that is malformed (R165 step 3): `n` left,
section `i` at word `at0`. -/
def Dev.imgSections (d : Dev) (len : Nat) : Nat → Nat → Nat → List Section → Except Nat (List Section)
  | 0, _, _, acc => .ok acc.reverse
  | n + 1, i, at0, acc =>
    let w0 := d.imgWord at0
    let first := d.imgWord (at0 + 1)
    let count := d.imgWord (at0 + 2)
    let mode := bits w0 23 16
    match tabOf (bits w0 31 24) with
    | none => .error i
    | some x =>
      let size := (count * x.bytes + 7) / 8 * 2
      if 1 < mode || bits (d.imgWord (at0 + 3)) 15 0 ≠ x.bytes || x.count < first + count
          || len < 4 * (at0 + 4 + size) then .error i
      else d.imgSections len n (i + 1) (at0 + 4 + size) (⟨x, mode == 1, first, count, at0 + 4⟩ :: acc)

/-- One entry of a section applied to the tables, `none` where it is refused. -/
def Dev.imgEntry (d : Dev) (s : Section) (t : Tables) (k : Nat) : Option Tables × Dev :=
  let w := s.win.bytes / 4
  let src := s.at0 + k * w
  if s.win.code = 0x03 then
    let ws := (List.range 8).map (fun j => d.imgWord (src + j))
    let prof := bits (ws.getD 0 0) 19 16
    let (t, r, d) := d.emInsert t prof (d.emMasked prof ws) (bits (ws.getD 0 0) 14 0)
    (if r = 1 then none else some t, d)
  else
    let a := s.win.base + (s.first + k) * s.win.stride
    if w = 1 then (some (t.putWord s.win a (d.imgWord src)), d)
    else ((List.range (w / 2)).foldl (fun acc j => acc.bind (fun t =>
      t.write64 s.win (a + 8 * j) (d.imgWord (src + 2 * j) + 2 ^ 32 * d.imgWord (src + 2 * j + 1)))) (some t), d)

/-- A section applied to the tables. -/
def Dev.imgSection (d : Dev) (s : Section) (t : Tables) : Option Tables × Dev :=
  let t := if !s.replace then t
    else if s.win.code = 0x03 then { t with em := [] }
    else { t with words := t.words.drop s.win.has }
  (List.range s.count).foldl (fun acc k => match acc with
    | (none, d) => (none, d)
    | (some t, d) => d.imgEntry s t k) (some t, d)

/-- Words (of 64 bits) and exact-match entries a section writes. -/
def Section.words (s : Section) : Nat :=
  if s.win.code = 0x03 then s.count else (s.count * s.win.bytes + 7) / 8

/-- All sections in order: the tables, or the number of the section that is refused. -/
def Dev.imgApply (d : Dev) : Nat → List Section → Tables → Except Nat Tables × Dev
  | _, [], t => (.ok t, d)
  | i, s :: ss, t => match d.imgSection s t with
    | (none, d) => (.error i, d)
    | (some t, d) => d.imgApply (i + 1) ss t

/-- LOAD takes effect (R165): RESULT, SECTION, and the device. The first section is number 0. DESIGN CHOICE: assumption
141. -/
def Dev.imgLoad (d : Dev) (t : Tables) : Nat × Nat × Dev :=
  let len := d.fld burPg R.BUR_EDITION_IMAGE_LEN
  let r := d.imgHeader len 1 (some (d.fld burPg R.BUR_EDITION_SHADOW_BASE))
  if r ≠ 0 then (r, 0, d)
  else match d.imgSections len (bits (d.imgWord 3) 15 0) 0 16 [] with
    | .error i => (9, i, d)
    | .ok ss => match d.imgApply 0 ss t with
      | (.error i, d) => (0xB, i, d)
      | (.ok t, d) =>
        (0, 0, (d.withBur (fun b => { b with shadow := some t })).shadowCount ((ss.map Section.words).sum))

-- ==== edition commands (R153) ====

/-- A command of BUR_EDITION_CMD finishes with a RESULT. -/
def Dev.edFinish (d : Dev) (r sec : Nat) : Dev :=
  let b := burPg
  let d := d.withBur (fun x => { x with edRun := none })
  let d := ((d.setFlag b R.BUR_EDITION_STAT_BUSY false).setFlag b R.BUR_EDITION_STAT_DONE true).setFld b
    R.BUR_EDITION_STAT_RESULT r
  (((d.setFld b R.BUR_EDITION_STAT_SECTION sec).setFld b R.BUR_EDITION_STAT_PHASE 0).raise b 5).digestResult 1 r

/-- The checks of a command in their fixed order: 0 passes, else RESULT (R153, R156). OP 1 OPEN,
2 COMMIT, 3 ABANDON, 4 LOAD. -/
def Dev.edCheck (d : Dev) (who : Owner) (op : Nat) : Nat :=
  let b := burPg
  let open_ := d.bur.shadow.isSome
  if !d.holds b who then 1
  else if op = 1 then if open_ then 3 else 0
  else if !open_ then 2
  else if !d.ownsShadow who.code then 1
  else if op = 3 then 0
  else if op = 2 && d.flag b R.PAGE_STAT_TORN then 4
  else if d.flag b R.BUR_EM_STAT_BUSY then 6
  else if op = 2 && 128 ≤ (d.fld b R.BUR_EDITION_SHADOW_NUMBER + 256 - d.oldest) % 256 then 5
  else 0

/-- The fields OP and REVOKE of a write, and BUSY where the GO is accepted. -/
def Dev.edAccept (d : Dev) (v : Nat) : Dev :=
  let d := (d.setFld burPg R.BUR_EDITION_CMD_OP (bits v 3 0)).setFld burPg R.BUR_EDITION_CMD_REVOKE (bits v 8 8)
  if bitAt v 31 then d.setFlag burPg R.BUR_EDITION_STAT_BUSY true else d

/-- A commit passes or fails its Checks and Prepare steps (R154): `selfTest` is what the self-test of
the lane copies finds. -/
def Dev.edCommit (d : Dev) (who : Owner) (revoke selfTest : Bool) : Dev :=
  let r := d.edCheck who 2
  if r ≠ 0 then d.edFinish r 0
  else if !selfTest then (d.edFinish 7 0).fault { cls := 2, page := burPg }
  else
    let words := d.fld burPg R.BUR_EDITION_WRITES_COUNT
    (d.withBur (fun b => { b with committing := true, commitBy := who.code, revoke := revoke,
                                  saveAt := d.now + 4000 + 32 * words })).setFld burPg R.BUR_EDITION_STAT_PHASE 1

/-- BUR_EDITION_STAT as it reads: Prepare ends 1 µs and 8 ns per word after the GO, and Save begins (R154). -/
def Dev.edStatWord (d : Dev) : Nat :=
  let w := d.word burPg 0xCC
  if bits w 29 28 = 1 && decide (d.bur.saveAt ≤ d.now) then putBits w 29 28 2 else w

/-- A write of BUR_EDITION_CMD with value `v` (R152, R153). -/
def Dev.edGo (d : Dev) (who : Owner) (v : Nat) (selfTest : Bool) : Dev :=
  let op := bits v 3 0
  if !bitAt v 31 then d.edAccept v
  else if d.flag burPg R.BUR_EDITION_STAT_BUSY || op = 0 || 4 < op then d.refuse burPg
  else
    let d := d.edAccept v
    if op = 2 then d.edCommit who (bitAt v 8) selfTest
    else d.withBur (fun b => { b with edRun := some (op, who.code, d.edCheck who op) })

/-- The shadow closes. -/
def Dev.shadowClose (d : Dev) : Dev :=
  let d := d.withBur (fun b => { b with shadow := none })
  (d.setWord burPg 0xC4 0).setFld burPg R.BUR_EDITION_WRITES_COUNT 0

/-- An open shadow is abandoned (R160). -/
def Dev.edAbandon (d : Dev) : Dev :=
  if d.bur.shadow.isSome && !d.bur.committing then d.shadowClose.raise burPg 6 else d

/-- OPEN takes effect (R148). -/
def Dev.edOpen (d : Dev) (code : Nat) : Dev :=
  let b := burPg
  let cur := d.fld b R.BUR_EDITION_CUR_CUR
  let d := d.withBur (fun x => { x with shadow := some x.cur })
  let d := ((d.setFlag b R.BUR_EDITION_SHADOW_OPEN true).setFld b R.BUR_EDITION_SHADOW_OWNER code).setFld b
    R.BUR_EDITION_SHADOW_BASE cur
  (d.setFld b R.BUR_EDITION_SHADOW_NUMBER ((cur + 1) % 256)).setFld b R.BUR_EDITION_WRITES_COUNT 0

/-- OPEN, ABANDON or LOAD finishes (R153). -/
def Dev.edDone (d : Dev) : Dev :=
  match d.bur.edRun with
  | none => d
  | some (op, code, r) =>
    if r ≠ 0 then d.edFinish r 0
    else if op = 1 then (d.edOpen code).edFinish 0 0
    else match d.bur.shadow with
      | none => d.edFinish 2 0
      | some t =>
        if op = 3 then d.edAbandon.edFinish 0 0
        else
          let (r, sec, d) := d.imgLoad t
          d.edFinish r sec

-- ==== the configuration store (R507) ====

/-- Change the configuration store. -/
def Dev.withCfg (d : Dev) (f : CfgStore → CfgStore) : Dev := { d with cfg := f d.cfg }

/-- A record goes to every copy that is not being compacted (R507, R508). -/
def CfgStore.put (c : CfgStore) (f : CfgCopy → CfgCopy) : CfgStore :=
  { c with a := if c.compact = some 0 then c.a else f c.a, b := if c.compact = some 1 then c.b else f c.b }

/-- An edition is the one the store holds; no record is pending. -/
def CfgStore.edition (c : CfgStore) (t : Tables) (num : Nat) : CfgStore :=
  { c.put (fun x => { x with ed := t, edNum := num }) with pending := none }

/-- The copy that a variant of step 0x09 replays (R73, R507): the one with the higher SEQ at variant 0, the other at
variant 1. Of two equal ones copy A is the newer, as UPD_CFG_STORE.NEWER reads. -/
def CfgStore.replayed (c : CfgStore) (variant : Nat) : CfgCopy :=
  if decide (c.a.seq < c.b.seq) == (variant == 0) then c.b else c.a

-- ==== the commit's later steps (R154, R158, R159, R185) ====

/-- The firewall's share of a flip with REVOKE = 1 (R185). -/
def Dev.fwRevoke (d : Dev) : Dev :=
  (d.setFld fwlPg R.FWL_CT_REV_GEN_GEN d.commits).setFlag fwlPg R.FWL_CT_STAT_REV_SEEN true

/-- Flip: the shadow becomes the current and the stored edition (R154, R155, R159). -/
def Dev.edFlip (d : Dev) : Dev :=
  let b := burPg
  match d.bur.shadow with
  | none => d
  | some t =>
    let old := d.fld b R.BUR_EDITION_CUR_CUR
    let num := d.fld b R.BUR_EDITION_SHADOW_NUMBER
    let stillRev := d.revValid
    let d := d.withBur (fun x => { x with cur := t, flipped := true })
    let d := d.withCfg (fun c => c.edition t num)
    let d := (d.setFld b R.BUR_EDITION_CUR_CUR num).setFlag b R.BUR_EDITION_CUR_REV_VALID stillRev
    let d := d.when d.bur.revoke (fun d =>
      ((d.setFld b R.BUR_EDITION_CUR_REVOKED old).setFlag b R.BUR_EDITION_CUR_REV_VALID true).fwRevoke)
    let d := d.withBur (fun x => { x with
      frags := x.frags.filter (fun r => !(64 ≤ d.age r.res.edition) && !d.revoked r.res) })
    let d := d.fragShow.shadowClose
    d.event 5 b [d.edCurWord]

/-- Resume and Done: held headers go on, the commit completes (R154). -/
def Dev.edResume (d : Dev) : Dev :=
  let b := burPg
  let ns := if d.bur.paused then min ((d.now - d.bur.pauseAt) / 4) 0xFFFF else 0
  let waited := if d.bur.paused then (d.bur.flights.filter (fun f => f.phase == 0)).length else 0
  let d := d.addCount b 0xF0 waited
  let d := (d.setFld b R.BUR_EDITION_PAUSE_LAST_NS ns).setFld b R.BUR_EDITION_PAUSE_MAX_NS
    (max ns (d.fld b R.BUR_EDITION_PAUSE_MAX_NS))
  let d := d.withBur (fun x => { x with committing := false, commitBy := 0, revoke := false, paused := false, flipped := false })
  (d.addCount b 0xE0 1).edFinish 0 0

/-- The save ends (R154, R155): its record is marked pending (R507), and the pause begins, or with the Burin not ON the edition flips at once;
a save that failed ends the commit and keeps the shadow. -/
def Dev.edSaved (d : Dev) (ok : Bool) : Dev :=
  if !d.bur.committing || d.bur.paused then d
  else if !ok then
    (d.withBur (fun x => { x with committing := false, commitBy := 0, revoke := false })).edFinish 8 0
  else
    let d := d.withCfg (fun c =>
      { c with pending := d.bur.shadow.map (fun t => (t, d.fld burPg R.BUR_EDITION_SHADOW_NUMBER)) })
    if d.isOn burPg then
      (d.withBur (fun x => { x with paused := true, pauseAt := d.now })).setFld burPg R.BUR_EDITION_STAT_PHASE 3
    else d.edFlip.edResume

/-- No frame past "Edition taken" is still in the pipelines, its result not handed over. -/
def Dev.pipesEmpty (d : Dev) : Bool := d.bur.flights.all (fun f => f.phase == 0)

/-- The edition that step 0x09 loads at a variant (R155, R162, R507): that of the copy it replays, or nothing at
variant 2. A record still marked pending is skipped, for good. -/
def Dev.edLoadStart (d : Dev) (variant : Nat) : Dev :=
  let x := d.cfg.replayed variant
  let t := if variant = 2 then {} else x.ed
  let n := if variant = 2 then 0 else x.edNum
  let d := d.withCfg (fun c => { c with pending := none })
  (d.withBur (fun x => { x with cur := t, shadow := none })).setWord burPg 0xC0 n

end Sys2Proof.Machine
end

