-- ==== Sys2Proof/Machine/Store.lean ====
section
/-! DEFINITION. The arbiter of the deep store, its ECC, limits, scrub and temperature (R402 to R412),
and packet capture (R413, R414). -/

namespace Sys2Proof.Machine

/-- The class of R410 a request belongs to: 0 capture, 1 movers, 2 patrol scrub. -/
def DsReq.limit (r : DsReq) : Option Nat :=
  if r.who = 0x10 then some 0 else if 0x20 ≤ r.who && r.who ≤ 0x3F then some 1
  else if r.who = 5 && r.tag = 0 then some 2 else none

/-- The limit in force admits the request now. -/
def Dev.dsAdmits (d : Dev) (r : DsReq) : Bool :=
  match r.limit with
  | none => true
  | some k => match d.dst.credit.get? k with
    | none => true
    | some c => decide (r.bytes ≤ c)

/-- A request's arrival in cycles of the deep-store controller, 1,066 MHz (R12, R405). -/
def DsReq.stamp (r : DsReq) : Nat := r.at0 * 1066 / 4000

/-- The older of two requests; a tie goes to the lower requester (R405). -/
def older (a b : DsReq) : DsReq :=
  if b.stamp < a.stamp || (b.stamp == a.stamp && decide (b.who < a.who)) then b else a

/-- The request that is granted next. -/
def Dev.dsNext (d : Dev) : Option DsReq :=
  match d.dst.waiting.filter d.dsAdmits with
  | [] => none
  | r :: rs => some (rs.foldl older r)

/-- The list without the first of its elements that equals `r`. -/
def dropReq (r : DsReq) : List DsReq → List DsReq
  | [] => []
  | x :: xs => if x = r then xs else x :: dropReq r xs

/-- A difference of the arbiter's age comparator, injected (R412). -/
def Dev.dsCompare (d : Dev) : Dev :=
  let (inj, d) := d.check dstPg 1
  d.when inj (fun d => d.fault { cls := 2, page := dstPg, checker := 1, injected := true })

/-- Deep-store use as it now stands (R406). The share of bus cycles in use is not a consequence of the
commands: it is drawn anew at each grant and at each credit of 1 µs, and a read changes nothing. Assumption 13. -/
def Dev.dsUse (d : Dev) : Dev :=
  let (n, d) := d.draw
  let u := Config.free n % 101
  (d.setFld dstPg R.DST_USE_USE u).setFld dstPg R.DST_USE_PEAK (max u (d.fld dstPg R.DST_USE_PEAK))

/-- The bytes of a request come out of the limit of its class (R410). -/
def Dev.dsCharge (d : Dev) (r : DsReq) : Dev :=
  match r.limit with
  | some k => match d.dst.credit.get? k with
    | some c => d.withDst (fun s => { s with credit := s.credit.set k (c - r.bytes) })
    | none => d
  | none => d

/-- One grant (R405). -/
def Dev.dsGrant (d : Dev) : Dev :=
  match d.dsNext with
  | none => d
  | some r =>
    let d := d.dsCompare
    let d := d.withDst (fun s => { s with waiting := dropReq r s.waiting,
                                          reads := if r.write then s.reads else s.reads ++ [r] })
    ((d.dsCharge r).dsUse.dsServe r).dsMore

/-- An uncorrectable block is read (R402): the record, the count, the fault. -/
def Dev.dsUncorr (d : Dev) (who addr : Nat) (inj : Bool) : Dev :=
  let p := dstPg
  let d := d.record p R.DST_ECC_REC_VALID R.DST_ECC_REC_OVERRUN (fun d =>
    (d.setFld p R.DST_ECC_REC_REQUESTER who).setFld p R.DST_ECC_ADDR_ADDR addr)
  ((d.cnt p 1).raise p 1).fault { cls := 0, page := p, checker := 0, injected := inj }

/-- The 64-byte block in which a read met an error: the one named, where the read covers it. -/
def DsReq.block (r : DsReq) (addr : Nat) : Nat :=
  match r.addr with
  | none => addr / 64 * 64
  | some a => if a / 64 ≤ addr / 64 && addr < a + r.bytes then addr / 64 * 64 else a / 64 * 64

/-- A granted read returns (R402): `found` is 1 for a corrected error, 2 for an uncorrectable one; `addr` is the
device address of the block it was found in. -/
def Dev.dsBack (d : Dev) (r : DsReq) (found addr : Nat) : Dev :=
  let (inj, d) := d.check dstPg 0
  let d := (d.withDst (fun s => { s with reads := dropReq r s.reads })).dsMore
  if inj || found = 2 then
    (d.withDst (fun s => { s with poison := s.poison ++ [⟨r.who, r.tag, inj⟩] })).dsUncorr r.who (r.block addr) inj
  else d.when (found == 1) (fun d => d.cnt dstPg 0)

/-- The oldest granted read of a requester returns. -/
def Dev.dsReturn (d : Dev) (who found addr : Nat) : Dev :=
  match d.dst.reads.find? (fun r => r.who == who) with
  | none => d
  | some r => d.dsBack r found addr

/-- A request for one purpose of a requester is not yet granted. -/
def Dev.dsPending (d : Dev) (who tag : Nat) : Bool :=
  (d.dst.waiting ++ d.dst.held).any (fun r => r.who == who && r.tag == tag)

/-- Its granted reads return. -/
def Dev.dsBackAll (d : Dev) (who tag : Nat) : Dev :=
  (d.dst.reads.filter (fun r => r.who == who && r.tag == tag)).foldl (fun d r => d.dsBack r 0 0) d

/-- The grants a requester's use waits for have come, the oldest request first, and its reads have returned: what its end
tells of the arbiter. A request that its limit still keeps waiting stays (R405, R410). -/
def Dev.dsDrain (d : Dev) (who tag : Nat) : Nat → Dev
  | 0 => d.dsBackAll who tag
  | n + 1 =>
    let d := d.dsBackAll who tag
    if d.dsPending who tag && d.dsNext.isSome then d.dsGrant.dsDrain who tag n else d

/-- A requester's use of the deep store for one purpose ends. -/
def Dev.dsFinish (d : Dev) (who tag : Nat) : Dev := d.dsDrain who tag (d.dst.waiting.length + d.dst.held.length)

/-- Such a use ends, and its requester learns whether what it read was poisoned. A poisoned read by injection is counted
as injected where it is discarded. -/
def Dev.dsTake (d : Dev) (who tag : Nat) : Bool × Dev :=
  let d := d.dsFinish who tag
  let (p, d) := if d.dsPending who tag then (none, d) else d.dsPoison who tag
  match p with
  | none => (false, d)
  | some inj => (true, d.when inj (fun d => d.injected))

/-- Mark a waiting request. -/
def Dev.dsMark (d : Dev) (r r' : DsReq) : Dev :=
  d.withDst (fun s => { s with waiting := s.waiting.map (fun x => if x = r then r' else x) })

/-- A request has waited STARVE_NS (R408): the first such requester is recorded. -/
def Dev.dsStarve (d : Dev) : Dev :=
  let p := dstPg
  let due (r : DsReq) : Bool := !r.starved && decide (r.at0 + 4 * d.fld p R.DST_ARB_CFG_STARVE_NS ≤ d.now)
  match d.dst.waiting.filter due with
  | [] => d
  | r :: rs =>
    let x := rs.foldl older r
    let d := d.dsMark x { x with starved := true }
    let d := d.record p R.DST_STARVE_VALID R.DST_STARVE_OVERRUN (fun d =>
      (d.setFld p R.DST_STARVE_REQUESTER x.who).setFld p R.DST_STARVE_WAIT_NS (min ((d.now - x.at0) / 4) 0xFFFF))
    (d.cnt p 4).raise p 0

/-- A request has waited STALL_US (R408). -/
def Dev.dsStall (d : Dev) : Dev :=
  let p := dstPg
  let due (r : DsReq) : Bool := !r.stalled && decide (r.at0 + usTicks * d.fld p R.DST_ARB_CFG_STALL_US ≤ d.now)
  match d.dst.waiting.filter due with
  | [] => d
  | r :: rs =>
    let x := rs.foldl older r
    (d.dsMark x { x with stalled := true }).fault { cls := 0, page := p }

/-- One microsecond of credit for each limit that is on; a limit that is off ends here (R410). The window of R406
moves on. -/
def Dev.dsCredit (d : Dev) : Dev :=
  Dev.dsUse ([0, 1, 2].foldl (fun d k =>
    if d.flag dstPg (R.DST_ARB_LIMIT_EN.at k) then
      d.withDst (fun s => { s with credit := s.credit.set k (min 4096 (s.credit.getD k 0
        + d.fld dstPg (R.DST_ARB_LIMIT_RATE.at k))) })
    else d.withDst (fun s => { s with credit := s.credit.erase k })) d)

/-- MR4 is polled (R403): the code, and whether it reports more than 85 °C. -/
def Dev.mr4 (d : Dev) (code : Nat) (hot : Bool) : Dev :=
  let p := dstPg
  let was := d.flag p R.DST_TEMP_DERATED
  let d := (d.setFld p R.DST_TEMP_MR4 code).setFlag p R.DST_TEMP_DERATED hot
  d.when (was != hot) (fun d => d.raise p 3)

/-- The patrol scrub reads its next block (R403); the last block ends a pass. -/
def Dev.scrub (d : Dev) : Dev :=
  if !d.flag dstPg R.DST_SCRUB_EN || !d.dsRoom 5 then d
  else
    let a := d.dst.scrubAt
    let d := d.dsAsk { who := 5, at0 := 0, bytes := 64, addr := some a }
    if a + 64 < d.dstSize then d.withDst (fun s => { s with scrubAt := a + 64 })
    else ((d.withDst (fun s => { s with scrubAt := 0 })).cnt dstPg 5).raise dstPg 2

/-- The next granule of 2 MiB is initialised (R403). -/
def Dev.granule (d : Dev) : Dev :=
  if d.dst.granules < d.dstSize / 2 ^ 21 then d.withDst (fun s => { s with granules := s.granules + 1 }) else d

/-- A write of DST_USE (R411). -/
def Dev.useWrite (d : Dev) (v : Nat) : Dev :=
  if bitAt v 31 then d.setFld dstPg R.DST_USE_PEAK (d.fld dstPg R.DST_USE_USE) else d

-- ==== packet capture (R413, R414) ====

/-- The page of capture `r`. -/
def dcapPg (r : Nat) : Page := ⟨.dcap, r⟩

/-- The capture page that is ON for a mirror session. -/
def Dev.capOf (d : Dev) (s : Nat) : Option Nat :=
  (List.range 16).find? (fun r => d.isOn (dcapPg r) && d.fld (dcapPg r) R.DST_CAP_CFG_SESSION == s)

/-- Device address of the start of a capture region. -/
def Dev.capBase (d : Dev) (region : Nat) : Nat := 0xA0000000 + d.fld dstPg (R.DST_CAPR_BASE_MIB.at region) * 2 ^ 20

/-- A capture region in 64-byte units. -/
def Dev.capUnits (d : Dev) (region : Nat) : Nat := d.fld dstPg (R.DST_CAPR_SIZE_MIB.at region) * 2 ^ 14

/-- Staged bytes of a capture page. -/
def Dev.capStaged (d : Dev) (r : Nat) : Nat :=
  (((d.dst.waiting ++ d.dst.held).filter (fun x => x.who == 0x10 && x.tag == r)).map (·.bytes)).sum

/-- The write requests of a stored copy: at most 256 bytes each, from a device address on. -/
def Dev.capWrite (d : Dev) (r addr : Nat) (bs : List Byte) : Dev :=
  (List.range ((bs.length + 255) / 256)).foldl (fun d k =>
    let part := slice bs (256 * k) 256
    d.dsAsk { who := 0x10, at0 := 0, write := true, bytes := part.length, tag := r, addr := some (addr + 256 * k),
              data := part }) d

/-- The words of a capture index entry (R414). -/
def capEntry (f : Frm) (s port : Nat) (tx : Bool) (stored off lap : Nat) : List Nat :=
  [2 * 2 ^ 28 + s * 2 ^ 24 + port * 2 ^ 16 + b2n tx * 2 ^ 15 + b2n (decide (stored < f.data.length)) * 2 ^ 14 + stored,
   off, lap * 2 ^ 16 + f.data.length,
   f.stamp0 % 4 * 2 ^ 10 + f.stamp1 % 4 * 2 ^ 8 + f.res.edition,
   f.stamp0 / 4 % 2 ^ 32, f.stamp0 / 2 ^ 34 % 2 ^ 32, f.stamp1 / 4 % 2 ^ 32, f.stamp1 / 2 ^ 34 % 2 ^ 32]

/-- A copy of session `s` is written into the region of capture page `r` (R413): whether it was
stored. `keep` is the truncation; `port` is the egress port where `tx`. -/
def Dev.capStore (d : Dev) (r s : Nat) (f : Frm) (keep port : Nat) (tx : Bool) : Bool × Dev :=
  let p := dcapPg r
  let region := d.fld p R.DST_CAP_CFG_REGION
  let bs := if keep = 0 then f.data else f.data.take keep
  let bs' := bs ++ List.replicate ((64 - bs.length % 64) % 64) 0
  let n := bs'.length / 64
  let at0 := d.fld p R.DST_CAP_POINT_OFFSET
  let size := d.capUnits region
  let ovf := decide (size < at0 + n)
  let drop (d : Dev) : Bool × Dev := (false, d.bump p 0x100 2)
  if 65536 < d.capStaged r + bs'.length then drop d
  else if ovf && (!d.flag p R.DST_CAP_CFG_WRAP || decide (size < n)) then drop (d.setFlag p R.DST_CAP_STAT_FULL true)
  else
    let off := if ovf then 0 else at0
    let lap := (d.fld p R.DST_CAP_STAT_LAP + b2n ovf) % 2 ^ 15
    let full := decide (popDepth (2 + region) ≤ (d.pop (2 + region)).entries.length)
    let d := d.popPush (2 + region) (capEntry f s port tx bs.length off lap)
    if full then drop d
    else
      let d := (d.setFld p R.DST_CAP_STAT_LAP lap).setFld p R.DST_CAP_POINT_OFFSET (off + n)
      let d := (d.bump p 0x100 0).addCount p 0x108 bs.length
      let d := d.when (!d.flag p R.DST_CAP_CFG_WRAP && off + n == size) (fun d => d.setFlag p R.DST_CAP_STAT_FULL true)
      (true, d.capWrite r (d.capBase region + 64 * off) bs')

/-- A capture page starts (R413). -/
def Dev.capStart (d : Dev) (r : Nat) : Dev :=
  let p := dcapPg r
  ((d.popEmpty (2 + d.fld p R.DST_CAP_CFG_REGION)).setWord p 0x84 0).setFld p R.DST_CAP_POINT_OFFSET 0

/-- A capture page stops: its staged copies are written. -/
def Dev.capStop (d : Dev) (r : Nat) : Dev := d.dsFlush 0x10 r

end Sys2Proof.Machine
end

