-- ==== Sys2Proof/Machine/Track.lean ====
section
/-! DEFINITION. Connection tracking (R174 to R185): the decision of a tracked frame from its entry,
creation, and the sweeper. -/

namespace Sys2Proof.Machine

/-- The two sides of a waiting frame in order: lower value, higher value, and the sender's side. -/
def Flight.sides (fl : Flight) : Nat × Nat × Nat :=
  let r := fl.frm.res
  let (a, b) := fl.parsed.sides r.zoneSrc r.zoneDst fl.cls
  (min a b, max a b, sendSide a b)

/-- The bucket of a waiting frame. -/
def Dev.bucketOf (d : Dev) (fl : Flight) : Nat :=
  let (lo, hi, _) := fl.sides
  d.ctBucket lo hi (keyProto fl.parsed.key)

/-- The entry of a waiting frame, expired ones included. -/
def Dev.ctFind (d : Dev) (fl : Flight) : Option Conn :=
  let (lo, hi, _) := fl.sides
  d.fwl.conns.find? (fun c => c.epoch == d.ctEpoch && c.is lo hi (keyProto fl.parsed.key) (keyL3 fl.parsed.key))

/-- When the key of a frame is built (R112), in sub-cycles. -/
def Flight.keyAt (fl : Flight) : Nat := fl.at0 + 4 * (if fl.frm.deep then 372 else 112)

/-- A frame waits for the same bucket and its key was built earlier (R183). -/
def Dev.ctBehind (d : Dev) (fl : Flight) : Bool :=
  let before (x : Flight) : Bool :=
    decide (x.keyAt < fl.keyAt) || (x.keyAt == fl.keyAt && (decide (x.pipe < fl.pipe)
      || (x.pipe == fl.pipe && decide (x.frm.id < fl.frm.id))))
  d.bur.flights.any (fun x => x.phase == 1 && x.frm.id != fl.frm.id && before x
    && d.bucketOf x == d.bucketOf fl)

/-- A frame passes on an entry: LAST_SEEN and the counters are refreshed (R179). -/
def Dev.ctPass (d : Dev) (c : Conn) (side len : Nat) : Dev :=
  let c := { c with lastSeen := d.msNow }
  d.ctPut (if side = 0 then { c with frames0 := (c.frames0 + 1) % 2 ^ 64, octets0 := (c.octets0 + len) % 2 ^ 64 }
    else { c with frames1 := (c.frames1 + 1) % 2 ^ 64, octets1 := (c.octets1 + len) % 2 ^ 64 })

/-- The fresh entry of an opener, at a place (R178). -/
def Dev.ctFresh (d : Dev) (fl : Flight) (bucket slot : Nat) : Conn :=
  let (lo, hi, side) := fl.sides
  let k := fl.parsed.key
  { bucket := bucket, slot := slot, epoch := d.ctEpoch, proto := keyProto k, l3 := keyL3 k
    zone0 := lo / 2 ^ 144, addr0 := lo / 2 ^ 16 % 2 ^ 128, port0 := lo % 2 ^ 16
    zone1 := hi / 2 ^ 144, addr1 := hi / 2 ^ 16 % 2 ^ 128, port1 := hi % 2 ^ 16
    state := openState fl.cls, orig := side, revocable := bitAt fl.polV 63, diag := polDiag fl.polV
    gen := d.commits, lastSeen := d.msNow
    nextSeq := if fl.cls = 0 then (fl.parsed.seq + 1) % 2 ^ 32 else 0 }

/-- Expiry frees an entry (R178, R180). -/
def Dev.ctExpire (d : Dev) (c : Conn) : Dev := (d.ctFree c).cnt fwlPg 6

/-- A slot of a bucket for a new entry (R181 steps 2 and 3), the device with the slot freed. -/
def Dev.ctSlot (d : Dev) (bucket : Nat) : Option Nat × Dev :=
  let here := d.fwl.conns.filter (fun c => c.bucket == bucket)
  match (List.range 8).find? (fun s => here.all (fun c => c.slot != s || !d.ctHeld c)) with
  | some s =>
    match here.find? (fun c => c.slot == s) with
    | some c => (some s, d.ctExpire c)
    | none => (some s, d)
  | none =>
    if !d.flag fwlPg R.FWL_CT_CFG_EVICT then (none, d)
    else match d.ctOldest (here.filter (fun c => c.state == 1 || c.state == 8 || c.state == 5)) with
      | none => (none, d)
      | some c => (some c.slot, (d.ctFree c).cnt fwlPg 7)

/-- An opener that would create an entry (R181). -/
def Dev.ctCreate (d : Dev) (fl : Flight) (m : Made) : Made × Dev :=
  if d.quotaFull m.res.zoneSrc then (d.join { m with fw := m.fw ++ [9] } ⟨3, 5⟩, d.raise fwlPg 1)
  else
    let b := d.bucketOf fl
    match d.ctSlot b with
    | (none, d) =>
      (d.join { m with fw := m.fw ++ [8] } ⟨if d.flag fwlPg R.FWL_CT_CFG_FULL_SLOW then 4 else 3, 4⟩, d.raise fwlPg 0)
    | (some s, d) =>
      let c := d.ctFresh fl b s
      let d := (d.connCarbon c).withFwl (fun f => { f with conns := f.conns ++ [c] })
      let d := (d.zoneUse c.origZone true).ctShow
      (d.join { m with fw := m.fw ++ [5] } ⟨2, 0⟩, d.ctPass c c.orig fl.frm.len)

/-- An opener on an entry in CLOSED re-creates it in its slot (R178); CT_CREATED does not count it. DESIGN CHOICE:
assumption 142. -/
def Dev.ctRenew (d : Dev) (fl : Flight) (m : Made) (c : Conn) : Made × Dev :=
  if d.quotaFull m.res.zoneSrc then (d.join { m with fw := m.fw ++ [9] } ⟨3, 5⟩, d.raise fwlPg 1)
  else
    let n := d.ctFresh fl c.bucket c.slot
    let d := (d.zoneUse c.origZone false).zoneUse n.origZone true
    (d.join m ⟨2, 0⟩, d.ctPass n n.orig fl.frm.len)

/-- A frame on a held entry that is not revoked (R178, R179, R193). -/
def Dev.ctHit (d : Dev) (fl : Flight) (m : Made) (c : Conn) : Made × Dev :=
  let q := fl.parsed
  let (_, _, side) := fl.sides
  let pass (c : Conn) (m : Made) : Made × Dev := (d.join m ⟨2, 0⟩, d.ctPass c side fl.frm.len)
  if fl.cls = 0 then
    if c.state = 5 && isOpener q 0 && polVerdict fl.polV 0 = 2 then d.ctRenew fl m c
    else match tcpStep c q side with
      | none => (d.join m ⟨3, 8⟩, d)
      | some c =>
        if c.diag ≠ 0 && side = c.orig then
          let (c, bad, cont, read) := diagSegment d.bur.cur fl.gates c q
          let m := if read then { m with usedFw := m.usedFw ++ [8, 9] } else m
          if bad ≠ 0 then (d.join { m with fw := m.fw ++ [15] } ⟨3, bad⟩, d)
          else pass c { m with fw := m.fw ++ (if cont then [16] else []) }
        else pass c m
  else if fl.cls = 1 && c.state = 8 && side ≠ c.orig then pass { c with state := 9 } m
  else pass c m

/-- A frame whose connection key matches no held entry (R172 step 3). -/
def Dev.ctMiss (d : Dev) (fl : Flight) (m : Made) : Made × Dev :=
  if polVerdict fl.polV fl.cls ≠ 2 then d.fwRest fl m
  else if m.res.destType = 2 then (d.join m ⟨1, 0⟩, d)
  else if isOpener fl.parsed fl.cls then d.ctCreate fl m
  else (d.join m ⟨3, 3⟩, d)

/-- Recheck of a revoked entry (R185): the entry with its new GEN, or `none` where it is freed. -/
def Dev.ctRecheck (d : Dev) (c : Conn) : Option Conn × Dev :=
  if d.ctStill c then
    let c := { c with gen := d.commits }
    (some c, d.ctPut c)
  else (none, (d.ctFree c).cnt fwlPg 10)

/-- The lane decides a tracked frame from its entry (R178 to R185). -/
def Dev.ctDecide (d : Dev) (fl : Flight) (m : Made) : Made × Dev :=
  match d.ctFind fl with
  | none => d.ctMiss fl m
  | some c =>
    if d.ctExpired c then (d.ctExpire c).ctMiss fl m
    else if d.ctRevoked c then
      match d.ctRecheck c with
      | (some c, d) => d.ctHit fl m c
      | (none, d) => (d.join m ⟨3, 7⟩, d)
    else d.ctHit fl m c

/-- A record check of an entry fails (R184): the entry is freed, the event counted, a fault raised. -/
def Dev.ctBad (d : Dev) (c : Conn) (cls checker : Nat) : Dev :=
  (((d.ctFree c).cnt fwlPg 11).raise fwlPg 2).fault { cls := cls, page := fwlPg, checker := checker }

/-- What the record checks find on the entry of a frame: class and checker of the fault. -/
def recordUpset : Upset → Option (Nat × Nat)
  | .record => some (2, 0x0A)
  | .recordRead => some (0, 0x0A)
  | .recordWrite => some (2, 0x0B)
  | _ => none

/-- The connection read of a frame returns (R183, R184). -/
def Dev.ctDone (d : Dev) (fl : Flight) (u : Upset) : Dev :=
  let m : Made := { res := fl.frm.res, counts := fl.counts, fw := fl.fw, rule := fl.rule }
  let (bad, d) := d.dsTake (2 + fl.pipe) fl.frm.id
  let u := if bad then Upset.recordRead else u
  let hit := match d.ctFind fl with
    | some c => if d.ctExpired c then none else some c
    | none => none
  let inj := if hit.isSome then [0x0A, 0x0B].find? (d.isArmed fwlPg) else none
  match inj, hit, recordUpset u with
  | some c, _, _ => (d.countLookups m).burInject fl fwlPg c
  | none, some c, some (cls, chk) => ((d.countLookups m).burDrop fl).ctBad c cls chk
  | none, none, some (0, chk) =>
    ((((d.countLookups m).burDrop fl).cnt fwlPg 11).raise fwlPg 2).fault { cls := 0, page := fwlPg, checker := chk }
  | none, _, _ =>
    if (d.meets fl m).isSome || upsetSpoils u then d.stamp fl m u
    else
      let (m, d') := d.ctDecide fl m
      (if (d.meets fl m).isSome then d else d').stamp fl m u

/-- The sweeper visits a bucket (R180, R185); `bad` is a slot whose record check fails. -/
def Dev.ctSweep (d : Dev) (bucket : Nat) (bad : Option Nat) : Dev :=
  let here := d.fwl.conns.filter (fun c => c.bucket == bucket)
  let old (c : Conn) : Bool := decide (2 ^ 30 ≤ (d.commits + 2 ^ 32 - c.gen) % 2 ^ 32)
  let d := here.foldl (fun d c =>
    if bad = some c.slot then d.ctBad c 2 0x0A
    else if c.epoch ≠ d.ctEpoch then d.ctFree c
    else if d.ctExpired c then d.ctExpire c
    else if old c then (d.ctRecheck c).2
    else d) d
  if bucket + 1 = 2 ^ (d.ctLog - 3) then
    (d.setFld fwlPg R.FWL_CT_SWEEP_MS ((d.now - d.fwl.sweepAt) / msTicks)).withFwl
      (fun f => { f with sweepAt := d.now })
  else d

/-- The FWL page starts (R166, R174, R185, R189): a new epoch and seed, no entry held, limiters
full. -/
def Dev.fwStart (d : Dev) : Dev :=
  let (n, d) := d.draw
  let d := d.setFld fwlPg R.FWL_CT_STAT_EPOCH ((d.ctEpoch + 1) % 65536)
  let d := (d.setFlag fwlPg R.FWL_CT_STAT_REV_SEEN false).setFld fwlPg R.FWL_CT_SEED_SEED (Config.free n % 2 ^ 32)
  let d := d.withFwl (fun f => { f with conns := [] })
  let d := (List.range 32).foldl (fun d z => d.setFld fwlPg (R.FWL_ZONE_USED_COUNT.at z) 0) d
  d.ctShow.fillLimiters

-- ==== diagnostic gates (R194) ====

/-- Whole seconds remaining of gate `i`, counted from 0 for profile 1. -/
def Dev.gateLeft (d : Dev) (i : Nat) : Nat :=
  let n := d.fld fwlPg (R.FWL_DIAG_GATE_SECONDS.at i)
  if d.flag fwlPg (R.FWL_DIAG_GATE_OPEN.at i) then
    n - (d.now - d.fwl.gateAt.getD i d.now) / (1000 * msTicks) else 0

/-- Gate `i` closes. -/
def Dev.gateClose (d : Dev) (i : Nat) : Dev :=
  if d.flag fwlPg (R.FWL_DIAG_GATE_OPEN.at i) then
    let d := d.withFwl (fun f => { f with gateAt := f.gateAt.erase i })
    (d.setWord fwlPg (0xB0 + 4 * i) 0).raise fwlPg 3
  else d

/-- Gate `i` opens for `sec` seconds. -/
def Dev.gateOpen (d : Dev) (i sec : Nat) : Dev :=
  let was := d.flag fwlPg (R.FWL_DIAG_GATE_OPEN.at i)
  let d := (d.withFwl (fun f => { f with gateAt := f.gateAt.set i d.now })).setWord fwlPg (0xB0 + 4 * i)
    (2 ^ 31 + sec)
  if was then d else d.raise fwlPg 3

/-- A write of FWL_DIAG_GATE with value `v`. -/
def Dev.gateWrite (d : Dev) (i v : Nat) : Dev :=
  let sec := bits v 15 0
  if bitAt v 30 && (sec == 0 || bitAt v 29) then d.refuse fwlPg
  else if bitAt v 30 then d.gateOpen i sec
  else if bitAt v 29 then d.gateClose i
  else d

end Sys2Proof.Machine
end

