-- ==== Sys2Proof/Machine/Burin.lean ====
section
/-! DEFINITION. The meanings of the Burin's commands (05): exact-match commands, table writes,
fragment expiry, classification. -/

namespace Sys2Proof.Machine

/-- A write of BUR_EM_CMD. -/
def Dev.emWrite (d : Dev) (who : Owner) (v : Nat) : Dev :=
  d.gateW who burPg 0x120 v (fun d => d.emGo who v)

/-- EM_INSERT (R124): GO with OP INSERT. -/
def execEmInsert (who : Owner) (s : State) : Answer := s.run (fun d => d.emWrite who (2 ^ 31))

/-- EM_DELETE (R124): GO with OP DELETE. -/
def execEmDelete (who : Owner) (s : State) : Answer := s.run (fun d => d.emWrite who (2 ^ 31 + 1))

/-- EM_LOOKUP (R124): GO with OP LOOKUP. -/
def execEmLookup (who : Owner) (s : State) : Answer := s.run (fun d => d.emWrite who (2 ^ 31 + 2))

/-- EM_DONE (R124): the running exact-match command completes. -/
def execEmDone (s : State) : Answer := s.runMain (fun d => d.emFinish)

/-- FRAG_RECORD_EXPIRE (R131): the oldest record's 2 ms are over. -/
def execFragRecordExpire (s : State) : Answer :=
  s.runMain (fun d => (d.withBur (fun b => { b with frags := b.frags.drop 1 })).fragShow)

/-- The page whose tables a BAR4 address belongs to. -/
def bar4Page (a : Nat) : Page := if 0x1000000 ≤ a && a < 0x4000000 then fwlPg else burPg

/-- A 64-bit write of BAR4: every check in order, then the window's rule (R36, R37, R150, R490). -/
def Dev.gateTab (d : Dev) (a : Access) (off : Nat) : Dev :=
  let p := bar4Page off
  if !d.start.released then d
  else if !bar4Mapped off || !d.reaches a.who p then d.accessFail a 2 0x82
  else if a.size ≠ 8 || off % 8 ≠ 0 then d.accessFail a 1 0x81
  else if !d.domainReady p.domain then d.domainStall p.domain a
  else if d.orderBarred then (d.refuse burPg).written a
  else if d.waits p.domain then d.hold p.domain a
  else if d.noCredit || d.waits creditTag then d.hold creditTag a
  else d.act a true (fun d => d.bar4Write a.who.code off a.data)

/-- TABLE_WINDOW_WRITE (R150): a 64-bit BAR4 write. -/
def execTableWindowWrite (who : Owner) (off : BitVec 32) (data : BitVec 64) (s : State) : Answer :=
  s.run (fun d => d.gateTab { who := who, target := .addr .bar4 off.toNat, write := true, size := 8, data := data.toNat } off.toNat)

/-- An earlier stored frame of the same port has not got its slot. -/
def Dev.slotWaits (d : Dev) (fl : Flight) : Bool :=
  match d.bur.flights.find? (fun x => x.phase == 0 && x.frm.inPort == fl.frm.inPort) with
  | some x => x.frm.id != fl.frm.id
  | none => false

/-- CLASSIFY_FRAME (R112): the frame gets its slot; `u` is what the checks of its decision find. A
pause holds it (R154); frames of one port get their slots in the order they were stored in. DESIGN CHOICE:
assumption 147. -/
def execClassifyFrame (frame : Nat) (u : Upset) (s : State) : Answer :=
  s.runMain (fun d =>
    match d.bur.flights.find? (fun x => x.frm.id == frame && x.phase == 0) with
    | none => d
    | some fl => if d.bur.paused || d.slotWaits fl then d else d.classify fl u)

/-- CONNECTION_LOOKUP_DONE (R183): the connection read of a frame returns; an earlier frame of its
bucket is served first. -/
def execConnectionLookupDone (frame : Nat) (u : Upset) (s : State) : Answer :=
  s.runMain (fun d =>
    match d.bur.flights.find? (fun x => x.frm.id == frame && x.phase == 1) with
    | none => d
    | some fl => if d.ctBehind fl then d else d.ctDone fl u)

end Sys2Proof.Machine
end

