-- ==== Sys2Proof/Machine/Edition.lean ====
section
/-! DEFINITION. The meanings of the edition commands (06) up to the flip. -/

namespace Sys2Proof.Machine

/-- A write of BUR_EDITION_CMD; the writer of ABANDON or LOAD is checked by the command itself. -/
def Dev.edWrite (d : Dev) (who : Owner) (v : Nat) (selfTest : Bool := true) : Dev :=
  d.gateW who burPg 0xC8 v (fun d => d.edGo who v selfTest)

/-- EDITION_OPEN (R148). -/
def execEditionOpen (who : Owner) (s : State) : Answer := s.run (fun d => d.edWrite who (2 ^ 31 + 1))

/-- EDITION_COMMIT (R154): GO with OP COMMIT; `selfTest` is what the Prepare step finds. -/
def execEditionCommit (who : Owner) (revoke selfTest : Bool) (s : State) : Answer :=
  s.run (fun d => d.edWrite who (2 ^ 31 + b2n revoke * 2 ^ 8 + 2) selfTest)

/-- EDITION_ABANDON (R160). -/
def execEditionAbandon (who : Owner) (s : State) : Answer := s.run (fun d => d.edWrite who (2 ^ 31 + 3))

/-- EDITION_LOAD (R165). -/
def execEditionLoad (who : Owner) (s : State) : Answer := s.run (fun d => d.edWrite who (2 ^ 31 + 4))

/-- EDITION_CMD_DONE (R153): OPEN, ABANDON or LOAD finishes. -/
def execEditionCmdDone (s : State) : Answer := s.runMain (fun d => d.edDone)

/-- EDITION_FLIP (R154): with the pipelines empty the shadow becomes the current edition. -/
def execEditionFlip (s : State) : Answer :=
  s.runMain (fun d => if d.bur.paused && !d.bur.flipped && d.pipesEmpty then d.edFlip else d)

end Sys2Proof.Machine
end

