-- ==== Sys2Proof/Machine/FaultCmds.lean ====
section
/-! DEFINITION. The meanings of the fault collector's commands (18) that need no other unit. -/

namespace Sys2Proof.Machine

/-- QUIET_TIMER_EXPIRE (R470): the class leaves, or waits for its acknowledgement. -/
def execQuietTimerExpire (cls : Fin 12) (s : State) : Answer :=
  s.runMain (fun d =>
    let st := d.fld fltPg (R.FLT_CLS_STAT_STATE.at cls)
    if st = 2 then d.clsLeave cls
    else if st = 1 then
      if d.flag fltPg (R.FLT_CLS_CFG_AUTO.at cls) then d.clsLeave cls
      else d.setFlag fltPg (R.FLT_CLS_STAT_QUIET_DONE.at cls) true
    else d)

/-- A write of FLT_CLS_ACK (R470). -/
def Dev.clsAck (d : Dev) (c v : Nat) : Dev :=
  if bitAt v 0 && d.fld fltPg (R.FLT_CLS_STAT_STATE.at c) == 1 then
    if d.flag fltPg (R.FLT_CLS_STAT_QUIET_DONE.at c) then d.clsLeave c
    else d.setFld fltPg (R.FLT_CLS_STAT_STATE.at c) 2
  else d

/-- FAULT_ACK (R470). -/
def execFaultAck (who : Owner) (cls : Fin 12) (s : State) : Answer :=
  s.run (fun d => d.gateW who fltPg (0x108 + 0x10 * cls) 1 (fun d => d.clsAck cls 1))

/-- PFAIL_ASSERT (R481): latched; anchor time is carried. -/
def execPfailAssert (s : State) : Answer :=
  s.runMain (fun d =>
    let d := d.setFlag fltPg R.FLT_PFAIL_ASSERTED true
    { d with flt := { d.flt with warnAt := d.now }
             pmk := { d.pmk with carried := (d.anchor 0).sub, carriedAt := d.now,
                                 carriedDelta := signed 64 (d.fld pmkPg R.PMK_HS_DELTA_NS) } })

/-- PFAIL_FLUSHED (R481): the records not yet archived go to retention, oldest first, a PFAIL record
last. -/
def execPfailFlushed (s : State) : Answer :=
  s.runMain (fun d =>
    if d.flag fltPg R.FLT_PFAIL_ASSERTED then
      let n := d.flt.staging.length
      let d := (d.setFld fltPg R.FLT_PFAIL_RECORDS n).setFlag fltPg R.FLT_PFAIL_FLUSHED true
      let r := d.eventWords 8 fltPg [d.word fltPg 0x90]
      let d := { d with flt := { d.flt with retained := d.flt.staging ++ [r], staging := [] } }
      (d.popPush 0 r).raise fltPg 5
    else d)

/-- PFAIL_DEASSERT (R481): flash operations start again and the retained records are archived. -/
def execPfailDeassert (s : State) : Answer :=
  s.runMain (fun d =>
    let d := d.setFlag fltPg R.FLT_PFAIL_ASSERTED false
    { d with flt := { d.flt with staging := d.flt.retained ++ d.flt.staging, retained := [] } })

/-- TEMP_HIGH (R469): the junction temperature, °C, rises above HIGH or to 135 °C. -/
def execTempHigh (celsius : Int) (s : State) : Answer :=
  s.runMain (fun d =>
    let d := d.setFld fltPg R.FLT_TEMP_NOW (wrapTo 8 celsius)
    if (d.fld fltPg R.FLT_TEMP_HIGH : Int) < celsius || 135 ≤ celsius then
      d.fault { cls := 6, page := fltPg, detail := d.word fltPg 0x8C,
                level := if 135 ≤ celsius then 3 else 0 }
    else d)

/-- CLOCK_FAULT (R469, R531): a reference clock is lost or more than 1 % off nominal. The manual
names no reporting page: the collector's own is used. DESIGN CHOICE: assumption 9. -/
def execClockFault (s : State) : Answer :=
  s.runMain (fun d => d.fault { cls := 4, page := fltPg })

/-- SUPPLY_UNDERVOLTAGE (R469): the monitor of a group reports a supply outside its limits. -/
def execSupplyUndervoltage (g : Fin 4) (s : State) : Answer :=
  s.runMain (fun d =>
    let (inj, d) := d.check pwrPg g
    d.fault { cls := 5, page := pwrPg, checker := g, injected := inj })

end Sys2Proof.Machine
end

