-- ==== Sys2Proof/Machine/Crypto.lean ====
section
/-! DEFINITION. The ciphers the manual names by their standards: AES (FIPS 197), CMAC (SP 800-38B), CTR
and GCM (SP 800-38A and 38D), XTS (SP 800-38E), the SP 800-108 derivation and RFC 3394 wrapping.
PRESUMED: assumption 10. -/

namespace Sys2Proof.Machine

-- ==== octets ====

/-- The octets of a byte string as numbers. -/
def octs (bs : List Byte) : List Nat := bs.map (·.toNat)

/-- The byte string of a list of octets. -/
def toBytes (os : List Nat) : List Byte := os.map (BitVec.ofNat 8)

/-- The number a list of octets makes, most significant first. -/
def octNat (os : List Nat) : Nat := os.foldl (fun a b => a * 256 + b) 0

/-- `n` octets of a number, most significant first. -/
def natOct (n v : Nat) : List Nat := (List.range n).map (fun i => v / 256 ^ (n - 1 - i) % 256)

/-- `n` octets of a number, least significant first. -/
def natOctLe (n v : Nat) : List Nat := (List.range n).map (fun i => v / 256 ^ i % 256)

/-- Exclusive or of two lists of octets, as long as the shorter. -/
def xorOct (a b : List Nat) : List Nat := a.zipWith (· ^^^ ·) b

/-- Cut a list of octets into blocks of sixteen; the last may be shorter. -/
def blocks16 (os : List Nat) : List (List Nat) :=
  (List.range ((os.length + 15) / 16)).map (fun i => (os.drop (16 * i)).take 16)

/-- Fill a block with zeros to sixteen octets. -/
def pad16 (os : List Nat) : List Nat := os ++ List.replicate (16 - os.length) 0

-- ==== AES ====

/-- Multiplication by x in GF(2^8). -/
def xtime (a : Nat) : Nat := if a < 128 then 2 * a else (2 * a) ^^^ 0x11B

/-- Multiplication in GF(2^8). -/
def gmul (a b : Nat) : Nat :=
  ((List.range 8).foldl (fun (s : Nat × Nat) i =>
    (if bitAt b i then s.1 ^^^ s.2 else s.1, xtime s.2)) (0, a)).1

/-- The inverse in GF(2^8): the power 254. -/
def ginv (a : Nat) : Nat :=
  ((List.range 7).foldl (fun (s : Nat × Nat) _ =>
    let q := gmul s.2 s.2
    (gmul s.1 q, q)) (1, a)).1

/-- Rotate eight bits left. -/
def rotl8 (a n : Nat) : Nat := (a * 2 ^ n) % 256 + a / 2 ^ (8 - n)

/-- The substitution of FIPS 197. -/
def subByte (a : Nat) : Nat :=
  let x := ginv a
  x ^^^ rotl8 x 1 ^^^ rotl8 x 2 ^^^ rotl8 x 3 ^^^ rotl8 x 4 ^^^ 0x63

/-- Its inverse. -/
def invSubByte (a : Nat) : Nat := ginv (rotl8 a 1 ^^^ rotl8 a 3 ^^^ rotl8 a 6 ^^^ 5)

/-- The key schedule: the words of four octets in order, from a key of 16 or 32 octets. -/
def aesExpand (key : List Nat) : List (List Nat) :=
  let nk := key.length / 4
  let first := (List.range nk).map (fun i => (key.drop (4 * i)).take 4)
  ((List.range (3 * nk + 28)).foldl (fun (s : List (List Nat) × Nat) j =>
    let i := nk + j
    let t := s.1.getD (i - 1) []
    let t' :=
      if i % nk = 0 then (xorOct ((t.drop 1 ++ t.take 1).map subByte) [s.2, 0, 0, 0])
      else if 6 < nk && i % nk = 4 then t.map subByte else t
    (s.1 ++ [xorOct (s.1.getD (i - nk) []) t'], if i % nk = 0 then xtime s.2 else s.2)) (first, 1)).1

/-- The round key `r`. -/
def roundKey (ws : List (List Nat)) (r : Nat) : List Nat := ((ws.drop (4 * r)).take 4).flatten

/-- Rows shift: row r by r columns, left (`n` = 1) or right (`n` = 3). -/
def shiftRows (n : Nat) (s : List Nat) : List Nat :=
  (List.range 16).map (fun i => s.getD (4 * ((i / 4 + n * (i % 4)) % 4) + i % 4) 0)

/-- Each column times the circulant of `m`. -/
def mixColumns (m : List Nat) (s : List Nat) : List Nat :=
  (List.range 16).map (fun i => (List.range 4).foldl (fun acc j =>
    acc ^^^ gmul (s.getD (4 * (i / 4) + j) 0) (m.getD ((j + 4 - i % 4) % 4) 0)) 0)

/-- AES encryption of one block under a key of 16 or 32 octets. -/
def aesEnc (key b : List Nat) : List Nat :=
  let ws := aesExpand key
  let nr := key.length / 4 + 6
  let s := (List.range (nr - 1)).foldl (fun s r =>
    xorOct (mixColumns [2, 3, 1, 1] (shiftRows 1 (s.map subByte))) (roundKey ws (r + 1)))
    (xorOct b (roundKey ws 0))
  xorOct (shiftRows 1 (s.map subByte)) (roundKey ws nr)

/-- AES decryption of one block. -/
def aesDec (key b : List Nat) : List Nat :=
  let ws := aesExpand key
  let nr := key.length / 4 + 6
  let s := (List.range (nr - 1)).foldl (fun s r =>
    mixColumns [14, 11, 13, 9] (xorOct ((shiftRows 3 s).map invSubByte) (roundKey ws (nr - 1 - r))))
    (xorOct b (roundKey ws nr))
  xorOct ((shiftRows 3 s).map invSubByte) (roundKey ws 0)

-- ==== CMAC ====

/-- Doubling in GF(2^128), most significant bit first. -/
def dbl128 (v : Nat) : Nat := if v < 2 ^ 127 then 2 * v else (2 * v % 2 ^ 128) ^^^ 0x87

/-- Carry a CMAC over whole blocks. -/
def cmacBlocks (key iv : List Nat) (bs : List (List Nat)) : List Nat :=
  bs.foldl (fun c b => aesEnc key (xorOct c b)) iv

/-- AES-CMAC of a message. -/
def cmac (key msg : List Nat) : List Nat :=
  let k1 := dbl128 (octNat (aesEnc key (List.replicate 16 0)))
  let n := if msg.isEmpty then 0 else (msg.length - 1) / 16
  let head := cmacBlocks key (List.replicate 16 0) (blocks16 (msg.take (16 * n)))
  let last := msg.drop (16 * n)
  let m := if last.length = 16 then xorOct last (natOct 16 k1)
    else xorOct (pad16 (last ++ [0x80])) (natOct 16 (dbl128 k1))
  aesEnc key (xorOct head m)

-- ==== CTR and GCM ====

/-- Encrypt octets in counter mode: a 96-bit IV and the first value of the 32-bit block counter. -/
def ctrMode (key iv : List Nat) (ctr : Nat) (msg : List Nat) : List Nat :=
  ((enum (blocks16 msg)).map (fun e =>
    xorOct e.2 (aesEnc key (iv ++ natOct 4 ((ctr + e.1) % 2 ^ 32))))).flatten

/-- Multiplication in the field of GHASH. -/
def ghMul (x y : Nat) : Nat :=
  ((List.range 128).foldl (fun (s : Nat × Nat) i =>
    (if bitAt x (127 - i) then s.1 ^^^ s.2 else s.1,
     if s.2 % 2 = 1 then (s.2 / 2) ^^^ (0xE1 * 2 ^ 120) else s.2 / 2)) (0, y)).1

/-- GHASH of the authenticated data and the ciphertext. -/
def ghash (h : Nat) (aad ct : List Nat) : Nat :=
  let lens := natOct 8 (8 * aad.length) ++ natOct 8 (8 * ct.length)
  (blocks16 aad ++ blocks16 ct ++ [lens]).foldl (fun y b => ghMul (y ^^^ octNat (pad16 b)) h) 0

/-- The 16-octet tag of GCM over authenticated data and ciphertext. -/
def gcmTag (key iv aad ct : List Nat) : List Nat :=
  let h := octNat (aesEnc key (List.replicate 16 0))
  xorOct (natOct 16 (ghash h aad ct)) (aesEnc key (iv ++ natOct 4 1))

-- ==== XTS ====

/-- Multiplication by x of an XTS tweak, the number of its octets least significant first. -/
def xtsDbl (t : Nat) : Nat := if t < 2 ^ 127 then 2 * t else (2 * t % 2 ^ 128) ^^^ 0x87

/-- XTS over whole blocks of the data unit with number `du`, from block `j0` on. -/
def xtsMode (dec : Bool) (k1 k2 : List Nat) (du j0 : Nat) (msg : List Nat) : List Nat :=
  let t0 := (octNat (aesEnc k2 (natOctLe 16 du)).reverse)
  let t1 := (List.range j0).foldl (fun t _ => xtsDbl t) t0
  ((blocks16 msg).foldl (fun (s : List Nat × Nat) b =>
    let t := natOctLe 16 s.2
    let x := xorOct b t
    (s.1 ++ xorOct (if dec then aesDec k1 x else aesEnc k1 x) t, xtsDbl s.2)) ([], t1)).1

-- ==== derivation and wrapping ====

/-- SP 800-108 in counter mode with CMAC, FORMAT 0 of R446: `n` octets. -/
def kdf0 (key label context : List Nat) (attr n : Nat) : List Nat :=
  let k (i : Nat) : List Nat :=
    cmac key (natOct 4 i ++ label ++ [0] ++ context ++ natOct 4 attr ++ natOct 4 (8 * n))
  (k 1 ++ k 2).take n

/-- FORMAT 1 of R446, the KDF of IEEE 802.1X-2020: an 8-bit counter and a 16-bit length. -/
def kdf1 (key label context : List Nat) (n : Nat) : List Nat :=
  let k (i : Nat) : List Nat := cmac key ([i] ++ label ++ [0] ++ context ++ natOct 2 (8 * n))
  (k 1 ++ k 2).take n

/-- Blocks of eight octets. -/
def blocks8 (os : List Nat) : List (List Nat) :=
  (List.range (os.length / 8)).map (fun i => (os.drop (8 * i)).take 8)

/-- RFC 3394 key wrap with the default IV. -/
def kwWrap (kek key : List Nat) : List Nat :=
  let rs := blocks8 key
  let n := rs.length
  let (a, rs) := (List.range (6 * n)).foldl (fun (s : List Nat × List (List Nat)) t =>
    let i := t % n
    let b := aesEnc kek (s.1 ++ s.2.getD i [])
    (xorOct (b.take 8) (natOct 8 (t + 1)), s.2.set i (b.drop 8))) (List.replicate 8 0xA6, rs)
  a ++ rs.flatten

/-- RFC 3394 key unwrap, `none` where the integrity check fails. -/
def kwUnwrap (kek blob : List Nat) : Option (List Nat) :=
  let rs := blocks8 (blob.drop 8)
  let n := rs.length
  let (a, rs) := (List.range (6 * n)).foldl (fun (s : List Nat × List (List Nat)) j =>
    let t := 6 * n - j
    let i := (t - 1) % n
    let b := aesDec kek (xorOct s.1 (natOct 8 t) ++ s.2.getD i [])
    (b.take 8, s.2.set i (b.drop 8))) (blob.take 8, rs)
  if a = List.replicate 8 0xA6 then some rs.flatten else none

end Sys2Proof.Machine
end

