-- ==== Sys2Proof/Machine/KeyOps.lean ====
section
/-! DEFINITION. Key slots, uses, key commands, the Wax engine and tamper (R438 to R458). -/

namespace Sys2Proof.Machine

/-- Change what the key store keeps. -/
def Dev.withKeys (d : Dev) (f : Keys → Keys) : Dev := { d with keys := f d.keys }

/-- Change what the Wax engine keeps. -/
def Dev.withWax (d : Dev) (f : Wax → Wax) : Dev := { d with wax := f d.wax }

-- ==== the root (R438, R439) ====

/-- The octets of the root a derivation uses: the test root while debug is open, the bank in use
otherwise; none where no root is usable. -/
def Dev.rootKey (d : Dev) : Option (List Nat) :=
  let k := d.keys
  if k.debug then some (natOct 32 Config.testRoot)
  else match k.bank with
    | some 0 => if k.revA then none else some k.rootA
    | some _ => if k.revB then none else some k.rootB
    | none => none

/-- KEY_ROOT_STAT as it reads. -/
def Dev.rootStat (d : Dev) : Nat :=
  let k := d.keys
  b2n d.rootKey.isSome * 2 ^ 31 + b2n k.debug * 2 ^ 30 + b2n (k.bank == some 1) * 2 ^ 29
    + b2n k.revA * 2 ^ 28 + b2n k.revB * 2 ^ 27 + min k.tamperFuses 32 * 2 ^ 8

-- ==== slots (R440 to R443) ====

/-- LOCKOUT stands. -/
def Dev.lockout (d : Dev) : Bool := d.flag keyPg R.KEY_TAMPER_STAT_LOCKOUT

/-- The attribute word of a slot. -/
def Dev.slotAttr (d : Dev) (s : Nat) : Nat := d.fld keyPg (R.KEY_SLOT_ATTR_ATTR.at s)

/-- Uses that remain for a COUNTED slot. -/
def Dev.slotUses (d : Dev) (s : Nat) : Nat := d.fld keyPg (R.KEY_SLOT_USES_USES.at s)

/-- The slot holds a key. -/
def Dev.slotValid (d : Dev) (s : Nat) : Bool := bitAt (d.slotAttr s) 31

/-- LIFE of an attribute word: 0 NONE, 1 COUNTED, 2 RESET. -/
def attrLife (a : Nat) : Nat := bits a 28 27

/-- Octets of a key by SIZE. -/
def attrSize (a : Nat) : Nat := if bits a 30 29 = 1 then 32 else 16

/-- The key of a slot. -/
def Dev.slotMat (d : Dev) (s : Nat) : List Nat := d.keys.mats.getD s []

/-- Put a key into a slot with its attribute word and uses. -/
def Dev.slotPut (d : Dev) (s attr uses : Nat) (mat : List Nat) : Dev :=
  let d := d.withKeys (fun k => { k with mats := k.mats.set s mat })
  (d.setFld keyPg (R.KEY_SLOT_ATTR_ATTR.at s) (2 ^ 31 + attr % 2 ^ 31)).setFld keyPg
    (R.KEY_SLOT_USES_USES.at s) (if attrLife attr = 1 then uses else 0)

-- ==== Wax contexts ====

/-- STATE of a context: 0 IDLE, 1 QUEUED, 2 RUNNING, 3 SUSPENDED, 4 WAIT_CHUNK, 5 DONE. -/
def Dev.ctxState (d : Dev) (c : Nat) : Nat := d.fld waxPg (R.WAX_CTX_STAT_STATE.at c)

/-- Set it. -/
def Dev.setCtxState (d : Dev) (c st : Nat) : Dev := d.setFld waxPg (R.WAX_CTX_STAT_STATE.at c) st

/-- Zero the buffer of a context. -/
def Dev.zeroBuf (d : Dev) (c : Nat) : Dev :=
  { d with regs := d.regs.drop (fun k => decide (waxPg.key (0x2000 + 0x800 * c) ≤ k)
      && decide (k < waxPg.key (0x2800 + 0x800 * c))) }

/-- Zero the key registers of a context. -/
def Dev.zeroKey (d : Dev) (c : Nat) : Dev :=
  (List.range 8).foldl (fun d k => d.setFld waxPg ((R.WAX_CTX_KEY_KEY.at c).plus (4 * k)) 0) d

/-- Zero IV and tag of a context. -/
def Dev.zeroIvTag (d : Dev) (c : Nat) : Dev :=
  (List.range 4).foldl (fun d k =>
    (d.setFld waxPg ((R.WAX_CTX_IV_IV.at c).plus (4 * k)) 0).setFld waxPg
      ((R.WAX_CTX_TAG_TAG.at c).plus (4 * k)) 0) d

/-- The message of a context. -/
def Dev.waxMsg (d : Dev) (c : Nat) : WaxMsg := d.wax.msgs.getD c { mode := 0, verify := false }

/-- Change it. -/
def Dev.setWaxMsg (d : Dev) (c : Nat) (m : WaxMsg) : Dev := d.withWax (fun w => { w with msgs := w.msgs.set c m })

/-- WAX_STAT shows what runs. -/
def Dev.waxShow (d : Dev) : Dev :=
  (d.setFlag waxPg R.WAX_STAT_BUSY d.wax.cur.isSome).setFld waxPg R.WAX_STAT_CUR (d.wax.cur.getD 0)

/-- The message of a context ends with a RESULT; the engine gives it up. -/
def Dev.ctxEnd (d : Dev) (c r : Nat) : Dev :=
  let d := (d.setCtxState c 5).setFld waxPg (R.WAX_CTX_STAT_RESULT.at c) r
  (d.withWax (fun w => { w with msgs := w.msgs.erase c,
                                cur := if w.cur = some c then none else w.cur })).waxShow

/-- Clear a slot: contexts that wait with it end with KEY_GONE (R454). -/
def Dev.slotClear (d : Dev) (s : Nat) : Dev :=
  let d := d.withKeys (fun k => { k with mats := k.mats.erase s })
  let d := (d.setFld keyPg (R.KEY_SLOT_ATTR_ATTR.at s) 0).setFld keyPg (R.KEY_SLOT_USES_USES.at s) 0
  (List.range 4).foldl (fun d c =>
    let st := d.ctxState c
    if (st == 1 || st == 3 || st == 4) && (d.waxMsg c).slots.contains s then (d.ctxEnd c 5).zeroBuf c else d) d

/-- A COUNTED slot whose uses are spent is cleared as the operation ends (R441). -/
def Dev.slotSpent (d : Dev) (s : Nat) : Dev :=
  if d.slotValid s && attrLife (d.slotAttr s) == 1 && d.slotUses s == 0 then
    ((d.slotClear s).raise keyPg 2).cnt keyPg 3 else d

/-- A slot satisfies R441 for the use of attribute bit `bit`, with a key of `size` octets where the
use fixes one. -/
def Dev.slotFits (d : Dev) (s bit : Nat) (size : Option Nat) : Bool :=
  let a := d.slotAttr s
  bitAt a 31 && bitAt a bit && (size == none || size == some (attrSize a))
    && (attrLife a != 1 || d.slotUses s != 0) && !d.lockout

/-- The message of a context ends with a RESULT, and COUNTED slots whose uses it spent are cleared (R441). -/
def Dev.ctxStop (d : Dev) (c r : Nat) : Dev :=
  let used := (d.waxMsg c).slots
  used.foldl Dev.slotSpent (d.ctxEnd c r)

/-- An operation names a slot (R441): whether it is accepted. Acceptance takes one use; a refusal
raises SECURITY (R469); an armed checker 0x00 makes the read fail (R444). -/
def Dev.slotUse (d : Dev) (s bit : Nat) (size : Option Nat := none) : Bool × Dev :=
  if d.isArmed keyPg 0 then
    (false, (d.disarm keyPg 0).injected.fault { cls := 0, page := keyPg, checker := 0, injected := true })
  else if d.slotFits s bit size then
    let d := d.cnt keyPg 2
    (true, d.when (attrLife (d.slotAttr s) == 1)
      (fun d => d.setFld keyPg (R.KEY_SLOT_USES_USES.at s) (d.slotUses s - 1)))
  else (false, d.fault { cls := 9, page := keyPg })

/-- The same for an operation outside the key commands: a refusal counts in REFUSED. -/
def Dev.slotUseOut (d : Dev) (s bit : Nat) (size : Option Nat := none) : Bool × Dev :=
  let (ok, d) := d.slotUse s bit size
  (ok, d.when (!ok) (fun d => d.cnt keyPg 1))

-- ==== key commands (R444 to R447) ====

/-- `n` octets of a register array laid out as KEY_LABEL. -/
def Dev.regOcts (d : Dev) (p : Page) (f : Fld) (n : Nat) : List Nat :=
  (List.range n).map (fun i => d.fld p (f.plus (4 * (i / 4))) / 256 ^ (i % 4) % 256)

/-- Write octets over a register array laid out as KEY_LABEL. -/
def Dev.setRegOcts (d : Dev) (p : Page) (f : Fld) (os : List Nat) : Dev :=
  (enum os).foldl (fun d e =>
    let g := f.plus (4 * (e.1 / 4))
    d.setFld p g (putBits (d.fld p g) (8 * (e.1 % 4) + 7) (8 * (e.1 % 4)) e.2)) d

/-- ATTR is refused (R445). -/
def Dev.attrBad (d : Dev) (a uses : Nat) : Bool :=
  (a / 2 ^ 10) % 2 ^ 16 != 0 || decide (1 < bits a 30 29) || attrLife a == 3
    || (bitAt a 26 && (attrLife a != 0 || d.keys.debug)) || (attrLife a == 1 && uses == 0)

/-- A command that creates a slot names a key for it: RESULT, the key, and slots used. -/
abbrev KeyMade := Nat × List Nat × List Nat × Dev

/-- GENERATE draws from CTR_DRBG. -/
def Dev.keyGen (d : Dev) (size : Nat) : KeyMade :=
  let (n, d) := d.draw
  (0, natOct size (Config.free n), [], d)

/-- DERIVE (R446). -/
def Dev.keyDer (d : Dev) (root : Bool) (parent fmt attr : Nat) : KeyMade :=
  let label := d.regOcts keyPg R.KEY_LABEL_BYTES (d.fld keyPg R.KEY_CMD_LEN_LABEL_LEN)
  let context := d.regOcts keyPg R.KEY_CONTEXT_BYTES (d.fld keyPg R.KEY_CMD_LEN_CONTEXT_LEN)
  let n := attrSize attr
  let out (k : List Nat) : List Nat := if fmt = 0 then kdf0 k label context (attr % 2 ^ 31) n else kdf1 k label context n
  if root then
    if fmt = 1 || decide (0xF0 ≤ label.getD 0 0) then (10, [], [], d)
    else match d.rootKey with
      | some k => (0, out k, [], d)
      | none => (2, [], [], d)
  else
    let (ok, d) := d.slotUse parent 5
    if ok then (0, out (d.slotMat parent), [parent], d) else (2, [], [], d)

/-- IMPORT (R447): the blob's tag is checked over ATTR and SLOT. -/
def Dev.keyImp (d : Dev) (slot parent attr : Nat) : KeyMade :=
  let n := attrSize attr
  let len := d.fld keyPg R.KEY_CMD_LEN_BLOB_LEN
  if len ≠ 28 + n then (10, [], [], d)
  else
    let (ok, d) := d.slotUse parent 6
    if !ok then (2, [], [], d)
    else
      let b := d.regOcts keyPg R.KEY_BLOB_BYTES len
      let k := d.slotMat parent
      let iv := b.take 12
      let ct := (b.drop 12).take n
      let aad := natOct 4 (d.fld keyPg R.KEY_CMD_ATTR_ATTR) ++ [slot]
      if gcmTag k iv aad ct = b.drop (12 + n) then (0, ctrMode k iv 2 ct, [parent], d) else (5, [], [parent], d)

/-- UNWRAP_KW (R447). -/
def Dev.keyUnw (d : Dev) (parent attr : Nat) : KeyMade :=
  let len := d.fld keyPg R.KEY_CMD_LEN_BLOB_LEN
  if len ≠ 8 + attrSize attr then (10, [], [], d)
  else
    let (ok, d) := d.slotUse parent 6
    if !ok then (2, [], [], d)
    else match kwUnwrap (d.slotMat parent) (d.regOcts keyPg R.KEY_BLOB_BYTES len) with
      | some k => (0, k, [parent], d)
      | none => (5, [], [parent], d)

/-- OP 0x1 to 0x5: the tests in order, the key made, and the command that will write it. -/
def Dev.keyCreate (d : Dev) (op slot parent : Nat) (root : Bool) (fmt : Nat) : KeyRun × Dev :=
  let a := d.fld keyPg R.KEY_CMD_ATTR_ATTR
  let uses := d.fld keyPg R.KEY_CMD_USES_USES
  if d.slotValid slot then (⟨op, slot, parent, 1, [], 0, 0, [], [], 0⟩, d)
  else if d.attrBad a uses then (⟨op, slot, parent, 3, [], 0, 0, [], [], 0⟩, d)
  else
    let (r, mat, used, d) :=
      if op = 1 then d.keyGen (attrSize a)
      else if op = 2 then d.keyDer root parent fmt a
      else if op = 3 then (0, d.regOcts keyPg R.KEY_WO_KEY (attrSize a), [], d)
      else if op = 4 then d.keyImp slot parent a
      else d.keyUnw parent a
    (⟨op, slot, parent, r, mat, a, uses, [], used, 0⟩, d)

/-- WRAP_KW (R447): source and parent both give a use. -/
def Dev.keyWrap (d : Dev) (slot parent : Nat) : KeyRun × Dev :=
  let (ok, d) := d.slotUse slot 8
  if !ok then (⟨6, slot, parent, 9, [], 0, 0, [], [], 0⟩, d)
  else
    let (ok, d) := d.slotUse parent 7
    if !ok then (⟨6, slot, parent, 2, [], 0, 0, [], [slot], 0⟩, d)
    else (⟨6, slot, parent, 0, [], 0, 0, kwWrap (d.slotMat parent) (d.slotMat slot), [slot, parent], 0⟩, d)

/-- SET_ATTR may only narrow (R445). -/
def Dev.narrows (d : Dev) (slot a uses : Nat) : Bool :=
  let old := d.slotAttr slot
  bits a 30 27 == bits old 30 27 && ((a &&& 0x07FFFFFF) &&& (0xFFFFFFFF - old)) == 0
    && (attrLife old != 1 || (uses != 0 && decide (uses ≤ d.slotUses slot)))

/-- The tests of a command: what it will do. LOCKOUT comes first, then OWNER, the state of the slot,
ATTR, FORMAT and the parent. -/
def Dev.keyPlan (d : Dev) (code v : Nat) : KeyRun × Dev :=
  let op := bits v 27 24
  let slot := bits v 23 16
  let parent := bits v 15 8
  let stop (r : Nat) : KeyRun × Dev := (⟨op, slot, parent, r, [], 0, 0, [], [], 0⟩, d)
  if d.lockout then stop 6
  else if 0xB8 ≤ slot && code ≠ 6 then stop 4
  else if op ≤ 5 then d.keyCreate op slot parent (bitAt v 30) (bits v 0 0)
  else if !d.slotValid slot then stop 9
  else if op = 6 then d.keyWrap slot parent
  else if op = 7 then
    let a := d.fld keyPg R.KEY_CMD_ATTR_ATTR
    let uses := d.fld keyPg R.KEY_CMD_USES_USES
    if d.narrows slot a uses then (⟨7, slot, parent, 0, [], a, uses, [], [], 0⟩, d) else stop 3
  else stop 0

/-- The command needs the engine: a derivation or an unwrapping, wrapping or import. -/
def usesWax (op : Nat) : Bool := op == 2 || op == 4 || op == 5 || op == 6

-- ==== the engine (R453) ====

/-- The rank of work: the Night Post, the key command, contexts by PRIO and then by order of GO. A
smaller number ranks higher. -/
def Dev.waxRank (d : Dev) (w : Nat) : Nat :=
  if w = 7 then 0 else if w = 6 then 1
  else 2 + (3 - d.fld waxPg (R.WAX_CTX_CTRL_PRIO.at w)) * 2 ^ 64 + (d.waxMsg w).order

/-- The work that could run. -/
def Dev.waxReady (d : Dev) : List Nat :=
  (if d.wax.npWork = 0 then [] else [7]) ++ (if d.wax.keyWork then [6] else [])
    ++ (List.range 4).filter (fun c => d.ctxState c == 1 || d.ctxState c == 2 || d.ctxState c == 3)

/-- The highest-ranked of a list of work. -/
def Dev.waxBest (d : Dev) (ws : List Nat) : Option Nat :=
  ws.foldl (fun acc w => match acc with
    | none => some w
    | some b => if d.waxRank w < d.waxRank b then some w else acc) none

/-- Suspend a context that is outranked. -/
def Dev.waxSuspend (d : Dev) (c : Nat) : Dev :=
  if c < 4 && d.ctxState c == 2 then
    ((d.setCtxState c 3).incSat waxPg (R.WAX_CTX_STAT_SUSPENDS.at c)).cnt waxPg 2 else d

/-- The context whose state RAM is found bad as it resumes ends with STATE_ERR (R458). -/
def Dev.waxSpoil (d : Dev) (c : Nat) : Dev :=
  ((d.disarm waxPg 0).ctxStop c 7).injected.fault { cls := 0, page := waxPg, checker := 0, injected := true }

/-- At a boundary, or with the engine free, the highest-ranked work runs. -/
def Dev.waxSwitch : Nat → Dev → Dev
  | 0, d => d
  | fuel + 1, d =>
    match d.waxBest d.waxReady with
    | none => (d.withWax (fun w => { w with cur := none })).waxShow
    | some b =>
      if d.wax.cur = some b then d
      else
        let d := match d.wax.cur with
          | some c => d.waxSuspend c
          | none => d
        if b < 4 && d.ctxState b == 3 && d.isArmed waxPg 0 then
          Dev.waxSwitch fuel ((d.withWax (fun w => { w with cur := none })).waxSpoil b)
        else
          let d := d.when (decide (b < 4)) (fun d => d.setCtxState b 2)
          (d.withWax (fun w => { w with cur := some b })).waxShow

/-- Work has arrived: it runs at once where no block is in process. -/
def Dev.waxKick (d : Dev) : Dev := if d.wax.cur.isSome then d else Dev.waxSwitch 5 d

/-- The engine is free of work `w`. -/
def Dev.waxFree (d : Dev) (w : Nat) : Dev :=
  if d.wax.cur = some w then (d.withWax (fun x => { x with cur := none })).waxKick else d

-- ==== GO and end of a key command ====

/-- A GO of KEY_CMD by a party (R444, R445). -/
def Dev.keyGo (d : Dev) (who : Owner) (v : Nat) : Dev :=
  let op := bits v 27 24
  if !bitAt v 31 then d.setWord keyPg 0xC0 (v &&& 0x4FFFFF01)
  else if !d.holds keyPg who || d.flag keyPg R.KEY_CMD_STAT_BUSY || op = 0 || 8 < op then d.refuse keyPg
  else
    let d := (d.setWord keyPg 0xC0 (v &&& 0x4FFFFF01)).setFlag keyPg R.KEY_CMD_STAT_BUSY true
    let (k, d) := (d.cnt keyPg 0).keyPlan who.code v
    let d := d.withKeys (fun x => { x with run := some { k with since := d.now } })
    if usesWax op && k.result = 0 then (d.withWax (fun w => { w with keyWork := true })).waxKick else d

/-- The command finishes with a RESULT (R445): KEY_WO is zeroed, spent slots are cleared. -/
def Dev.keyEnd (d : Dev) (k : KeyRun) (r : Nat) : Dev :=
  let d := d.withKeys (fun x => { x with run := none })
  let d := d.setRegOcts keyPg R.KEY_WO_KEY (List.replicate 32 0)
  let d := k.used.foldl Dev.slotSpent d
  let d := d.when (r != 0) (fun d => d.cnt keyPg 1)
  let d := (d.setFlag keyPg R.KEY_CMD_STAT_BUSY false).setFlag keyPg R.KEY_CMD_STAT_DONE true
  let d := (d.setFld keyPg R.KEY_CMD_STAT_RESULT r).raise keyPg 0
  (d.withWax (fun w => { w with keyWork := false })).waxFree 6

/-- The command writes the key record (R443). -/
def Dev.keyRecords (d : Dev) (k : KeyRun) : Bool :=
  !d.keys.debug && k.op != 6 && (bitAt k.attr 26 && k.op != 8 || (d.slotValid k.slot && bitAt (d.slotAttr k.slot) 26))

/-- The key record takes the slot as it now stands. A new copy is written beside the older one and is the newer valid one
once whole, so the two copies of R443 hold one content: the latest whole one. -/
def Dev.recordSlot (d : Dev) (s : Nat) : Dev :=
  let keep := d.slotValid s && bitAt (d.slotAttr s) 26
  (d.withKeys (fun k => { k with record := k.record.map (fun r =>
    if keep then r.set s ⟨d.slotAttr s, d.slotMat s⟩ else r.erase s) })).cnt keyPg 5

/-- The effect of a command whose checks passed. -/
def Dev.keyEffect (d : Dev) (k : KeyRun) : Dev :=
  if k.op ≤ 5 then d.slotPut k.slot k.attr k.uses k.mat
  else if k.op = 6 then
    (d.setRegOcts keyPg R.KEY_BLOB_BYTES k.blob).setFld keyPg R.KEY_CMD_LEN_BLOB_LEN k.blob.length
  else if k.op = 7 then d.slotPut k.slot k.attr k.uses (d.slotMat k.slot)
  else d.slotClear k.slot

/-- The running command completes; `stored` says that a new copy of the key record was written, which a PFAIL warning
holds back (R481). -/
def Dev.keyDone (d : Dev) (stored : Bool) : Dev :=
  match d.keys.run with
  | none => d
  | some k =>
    if k.result ≠ 0 then d.keyEnd k k.result
    else if d.keyRecords k then
      if d.flashHeld k.since then d
      else if stored then ((d.keyEffect k).recordSlot k.slot).keyEnd k 0 else d.keyEnd k 8
    else (d.keyEffect k).keyEnd k 0

-- ==== Wax messages (R452 to R457) ====

/-- A party the context accepts. -/
def ctxAccepts (c code : Nat) : Bool :=
  if c = 3 then (decide (3 ≤ code) && decide (code ≤ 6)) || code == 8 else code != 7

/-- OWNER of a context. -/
def Dev.ctxOwner (d : Dev) (c : Nat) : Nat := d.fld waxPg (R.WAX_CTX_STAT_OWNER.at c)

/-- A plain write of a context's registers or buffer is accepted (R452). -/
def Dev.ctxWritable (d : Dev) (c code : Nat) : Bool :=
  let st := d.ctxState c
  ctxAccepts c code && (st == 0 || ((st == 4 || st == 5) && d.ctxOwner c == code))

/-- A field of WAX_CTXc_CTRL. -/
def Dev.ctxFld (d : Dev) (c : Nat) (f : Fld) : Nat := d.fld waxPg (f.at c)

/-- A chunk breaks R455 or R457. `fresh`: it begins a message. -/
def Dev.chunkBad (d : Dev) (c : Nat) (m : WaxMsg) (last : Bool) : Bool :=
  let aad := d.ctxFld c R.WAX_CTX_LEN_AAD
  let data := d.ctxFld c R.WAX_CTX_LEN_DATA
  let tl := d.ctxFld c R.WAX_CTX_LEN_TLEN
  decide (2048 < aad + data) || (!last && (aad % 16 != 0 || data % 16 != 0))
    || (m.done != 0 && aad != 0) || (m.mode != 3 && aad != 0)
    || (m.mode == 3 && tl != 3 && tl != 4) || (m.mode == 1 && !(tl == 2 || tl == 3 || tl == 4))
    || ((m.mode == 2 || m.mode == 3) && decide ((2 ^ 32 - 2) * 16 < m.done + data))
    || (m.mode == 4 && (decide (m.unit < m.done + data) || (last && m.done + data != m.unit)))

/-- The attribute bit a mode and direction need. -/
def modeBit (mode : Nat) (verify : Bool) : Nat :=
  if mode = 1 then (if verify then 1 else 0) else if mode = 4 then 4 else if verify then 3 else 2

/-- The keys of a new message: `none` where they are refused (R441, R457). -/
def Dev.ctxKeys (d : Dev) (c : Nat) (m : WaxMsg) : Option WaxMsg × Dev :=
  let slot := d.ctxFld c R.WAX_CTX_CTRL_SLOT
  let wo (n : Nat) : List Nat := d.regOcts waxPg (R.WAX_CTX_KEY_KEY.at c) n
  if d.ctxFld c R.WAX_CTX_CTRL_KEY_WO = 1 then
    let k := wo (if m.mode = 4 || d.ctxFld c R.WAX_CTX_CTRL_KSIZE = 1 then 32 else 16)
    if m.mode = 4 then
      if k.take 16 = k.drop 16 then (none, d) else (some { m with key := k.take 16, key2 := k.drop 16 }, d)
    else (some { m with key := k }, d)
  else if m.mode ≠ 4 then
    let (ok, d) := d.slotUseOut slot (modeBit m.mode m.verify)
    (if ok then some { m with key := d.slotMat slot, slots := [slot] } else none, d)
  else if d.ctxFld c R.WAX_CTX_CTRL_XTS256 = 1 then
    if slot % 2 = 1 then (none, d.cnt keyPg 1)
    else if !d.slotFits (slot + 1) 4 (some 32) then (none, (d.slotUseOut (slot + 1) 4 (some 32)).2)
    else if d.slotFits slot 4 (some 32) && d.slotMat slot == d.slotMat (slot + 1) then (none, d)
    else
      let (ok, d) := d.slotUseOut slot 4 (some 32)
      if !ok then (none, d)
      else
        let (ok, d) := d.slotUseOut (slot + 1) 4 (some 32)
        (if ok then some { m with key := d.slotMat slot, key2 := d.slotMat (slot + 1), slots := [slot, slot + 1] }
         else none, d)
  else
    let k := d.slotMat slot
    if d.slotFits slot 4 (some 32) && k.take 16 == k.drop 16 then (none, d)
    else
      let (ok, d) := d.slotUseOut slot 4 (some 32)
      (if ok then some { m with key := k.take 16, key2 := k.drop 16, slots := [slot] } else none, d)

/-- Write IV words of a context. -/
def Dev.setIv (d : Dev) (c : Nat) (ws : List Nat) : Dev :=
  (enum ws).foldl (fun d e => d.setFld waxPg ((R.WAX_CTX_IV_IV.at c).plus (4 * e.1)) e.2) d

/-- An IV word. -/
def Dev.ivWord (d : Dev) (c k : Nat) : Nat := d.fld waxPg ((R.WAX_CTX_IV_IV.at c).plus (4 * k))

/-- The 96-bit IV as octets. -/
def Dev.ivOcts (d : Dev) (c : Nat) : List Nat := (List.range 3).flatMap (fun k => natOct 4 (d.ivWord c k))

/-- The IV the device writes at the FIRST chunk (R456). -/
def Dev.ctxIv (d : Dev) (c : Nat) (m : WaxMsg) : Dev :=
  if (m.mode = 2 || m.mode = 3) && !m.verify then
    match m.slots with
    | s :: _ =>
      let n := d.keys.messages.getD s 0
      let d := d.withKeys (fun k => { k with messages := k.messages.set s ((n + 1) % 2 ^ 64) })
      d.setIv c [d.fld bootPg R.BOOT_START_NUMBER_NUMBER, n / 2 ^ 32, n % 2 ^ 32, 0]
    | [] =>
      let (n, d) := d.draw
      let r := Config.free n
      d.setIv c [r % 2 ^ 32, r / 2 ^ 32 % 2 ^ 32, r / 2 ^ 64 % 2 ^ 32, 0]
  else d

/-- A GO that R454 accepts: the chunk is queued, or ends the message at once. -/
def Dev.ctxGo (d : Dev) (c code : Nat) (first last : Bool) : Dev :=
  let m0 : WaxMsg := if first then
      { mode := d.ctxFld c R.WAX_CTX_CTRL_MODE, verify := d.ctxFld c R.WAX_CTX_CTRL_DIR == 1,
        unit := if d.ctxFld c R.WAX_CTX_CTRL_XTS_DU = 1 then 4096 else 512 }
    else d.waxMsg c
  let d := d.when first (fun d =>
    (d.setFld waxPg (R.WAX_CTX_STAT_OWNER.at c) code).setFld waxPg (R.WAX_CTX_STAT_SUSPENDS.at c) 0)
  let d := d.when first (fun d => d.setFld waxPg (R.WAX_CTX_STAT_RESULT.at c) 0)
  if d.chunkBad c m0 last then ((d.ctxStop c 3).raise waxPg c)
  else
    let (k, d) := if first then d.ctxKeys c m0 else (some m0, d)
    match k with
    | none => (d.ctxEnd c 2).raise waxPg c
    | some m =>
      let d := d.when first (fun d => d.ctxIv c m)
      let d := d.setWaxMsg c { m with order := d.wax.order, tlen := d.ctxFld c R.WAX_CTX_LEN_TLEN }
      ((d.withWax (fun w => { w with order := w.order + 1 })).setCtxState c 1).waxKick

/-- ABORT takes effect (R454). -/
def Dev.ctxAbort (d : Dev) (c : Nat) : Dev :=
  let used := (d.waxMsg c).slots
  used.foldl Dev.slotSpent (((d.ctxEnd c 4).zeroBuf c).zeroKey c)

/-- RELEASE (R454): the context returns to IDLE, zeroed. -/
def Dev.ctxRelease (d : Dev) (c : Nat) : Dev :=
  let used := (d.waxMsg c).slots
  let d := (((d.zeroBuf c).zeroKey c).zeroIvTag c).withWax (fun w => { w with msgs := w.msgs.erase c })
  let d := (d.setCtxState c 0).setFld waxPg (R.WAX_CTX_STAT_OWNER.at c) 0
  (used.foldl Dev.slotSpent d).waxFree c

/-- A write of WAX_CTXc_CTRL by a party (R452, R454). -/
def Dev.waxCtrl (d : Dev) (who : Owner) (c v : Nat) : Dev :=
  let st := d.ctxState c
  let mine := d.ctxOwner c == who.code
  let mode := bits v 23 20
  let first := bitAt v 28
  if !ctxAccepts c who.code || 1 < b2n (bitAt v 31) + b2n (bitAt v 30) + b2n (bitAt v 29) then d.refuse waxPg
  else if bitAt v 30 then
    if mine && 1 ≤ st && st ≤ 4 then
      if d.wax.cur.isSome then d.setWaxMsg c { d.waxMsg c with aborting := true } else d.ctxAbort c
    else d.refuse waxPg
  else if bitAt v 29 then if mine && st = 5 then d.ctxRelease c else d.refuse waxPg
  else if !d.ctxWritable c who.code || mode = 0 || 4 < mode then d.refuse waxPg
  else if !bitAt v 31 then d.setWord waxPg (0x800 + 0x80 * c) (v &&& 0x1FFFFF00)
  else if (st = 4) == first then d.refuse waxPg
  else (d.setWord waxPg (0x800 + 0x80 * c) (v &&& 0x1FFFFF00)).ctxGo c who.code first (bitAt v 27)

/-- The octets of a chunk in the buffer. -/
def Dev.chunk (d : Dev) (c : Nat) : List Nat × List Nat :=
  let aad := d.ctxFld c R.WAX_CTX_LEN_AAD
  let b := d.regOcts waxPg (R.WAX_BUF_BYTES.plus (0x800 * c)) (aad + d.ctxFld c R.WAX_CTX_LEN_DATA)
  (b.take aad, b.drop aad)

/-- Write octets over DATA of the buffer. -/
def Dev.setData (d : Dev) (c : Nat) (os : List Nat) : Dev :=
  let aad := d.ctxFld c R.WAX_CTX_LEN_AAD
  let old := d.regOcts waxPg (R.WAX_BUF_BYTES.plus (0x800 * c)) aad
  d.setRegOcts waxPg (R.WAX_BUF_BYTES.plus (0x800 * c)) (old ++ os)

/-- What a chunk gives: its output and the message carried on. -/
def chunkOut (m : WaxMsg) (iv : List Nat) (du : Nat) (aad data : List Nat) : List Nat × WaxMsg :=
  let blk := m.done / 16
  let m' := { m with done := m.done + data.length, aad := m.aad ++ aad }
  if m.mode = 1 then (data, { m' with text := m.text ++ data })
  else if m.mode = 2 then (ctrMode m.key iv blk data, m')
  else if m.mode = 3 then
    let out := ctrMode m.key iv (2 + blk) data
    (out, { m' with text := m.text ++ (if m.verify then data else out) })
  else (xtsMode m.verify m.key m.key2 du blk data, m')

/-- The tag of a finished CMAC or GCM message. -/
def msgTag (m : WaxMsg) (iv : List Nat) : List Nat :=
  (if m.mode = 1 then cmac m.key m.text else gcmTag m.key iv m.aad m.text).take (4 * m.tlen)

/-- The running chunk of a context is done (R454, R455). -/
def Dev.chunkDone (d : Dev) (c : Nat) : Dev :=
  let m := d.waxMsg c
  let iv := d.ivOcts c
  let (aad, data) := d.chunk c
  let (out, m) := chunkOut m iv (d.ivWord c 0 + 2 ^ 32 * d.ivWord c 1) aad data
  let d := d.when (m.mode != 1) (fun d => d.setData c out)
  if d.ctxFld c R.WAX_CTX_CTRL_LAST = 0 then
    let d := (d.setWaxMsg c m).setCtxState c 4
    ((d.withWax (fun w => { w with cur := none })).waxShow).raise waxPg (4 + c)
  else
    let d := d.cnt waxPg 1
    let tagged := m.mode == 1 || m.mode == 3
    let tag := msgTag m iv
    let tf := R.WAX_CTX_TAG_TAG.at c
    let bad := tagged && m.verify && d.regOcts waxPg tf (4 * m.tlen) != tag
    let d := d.when (tagged && !m.verify) (fun d => d.setRegOcts waxPg tf (tag ++ List.replicate (16 - tag.length) 0))
    let d := d.when bad (fun d => d.cnt waxPg 4)
    let d := d.when (bad && m.mode == 3) (fun d => d.setData c (List.replicate data.length 0))
    let d := (d.ctxEnd c (b2n bad)).raise waxPg c
    m.slots.foldl Dev.slotSpent d

/-- A block boundary (R453): `last` says that the block which ends was the last of the work in
process. -/
def Dev.waxBoundary (d : Dev) (last : Bool) : Dev :=
  match d.wax.cur with
  | none => d
  | some w =>
    let d := d.cnt waxPg 0
    let d := if !last then d
      else if w < 4 then (if (d.waxMsg w).aborting then d else d.chunkDone w)
      else if w = 6 then (d.withWax (fun x => { x with keyWork := false, cur := none })).waxShow
      else (d.withWax (fun x => { x with npWork := x.npWork - 1, cur := none })).waxShow.cnt waxPg 3
    let d := (List.range 4).foldl (fun d c =>
      if (d.waxMsg c).aborting && d.ctxState c != 0 then d.ctxAbort c else d) d
    Dev.waxSwitch 5 d

/-- Every context of a party with a reset event returns to IDLE (R454). -/
def Dev.waxOwnerReset (d : Dev) (code : Nat) : Dev :=
  (List.range 4).foldl (fun d c =>
    if d.ctxState c ≠ 0 && d.ctxOwner c == code then d.ctxRelease c else d) d

-- ==== MACsec state that tamper clears ====

/-- ACTIVE, PN_EXHAUSTED and TX_AN of a port follow its configuration and SAs (R461). -/
def Dev.mscShow (d : Dev) (port : Nat) : Dev :=
  let p : Page := ⟨.msc, port / 4⟩
  let j := port % 4
  let an := d.fld p (R.MSC_PORT_CFG_TX_AN.at j)
  let sa := d.msc.sas.getD (64 * port + an) {}
  let valid := bitAt (sa.words.getD 0 0) 31
  let on := d.flag p (R.MSC_PORT_CFG_EN.at j) && valid && d.isOn p
  let d := d.setFlag p (R.MSC_PORT_STAT_ACTIVE.at j) on
  let cipher := d.fld p (R.MSC_PORT_CFG_CIPHER.at j)
  let pn := sa.words.getD 4 0 + 2 ^ 32 * sa.words.getD 5 0
  let full := valid && decide ((if cipher < 2 then 2 ^ 32 - 1 else 2 ^ 64 - 1) < pn)
  let d := d.when (!full) (fun d => d.setFlag p (R.MSC_PORT_STAT_PN_EXHAUSTED.at j) false)
  d.setFld p (R.MSC_PORT_STAT_TX_AN.at j) an

/-- Clear the SAs of ports the test holds of. -/
def Dev.mscClear (d : Dev) (f : Nat → Bool) : Dev :=
  let d := { d with msc := { d.msc with sas := d.msc.sas.drop (fun k => f (k / 64)) } }
  ((List.range 24).filter f).foldl Dev.mscShow d

-- ==== tamper (R448 to R450) ====

/-- The step "Cleared" (R448, R449). -/
def Dev.tamperClear (d : Dev) : Dev :=
  let d := { d with regs := d.regs.drop (fun k => decide (keyPg.key 0x1000 ≤ k) && decide (k < keyPg.key 0x1800)) }
  let d := d.withKeys (fun k => { k with mats := [] })
  let d := (List.range 4).foldl (fun d c =>
    let st := d.ctxState c
    let d := d.when (st != 0 && st != 5) (fun d => (d.ctxEnd c 6).zeroIvTag c)
    (d.zeroBuf c).zeroKey c) d
  let d := match d.keys.run with
    | some k => d.keyEnd { k with used := [] } 7
    | none => d
  let d := { d with npt := { d.npt with verify := d.npt.verify.map (fun _ => []) } }
  (d.mscClear (fun _ => true)).waxKick

/-- The bit of KEY_TAMPER_STAT and of SRC_EN of a tamper source: 0 PIN, 1 VSTBY, 2 CLOCK, 3 TEMP. -/
def Dev.tamperOn (d : Dev) (src : Nat) : Bool :=
  src == 0 || bitAt (d.fld keyPg R.KEY_TAMPER_CFG_SRC_EN) (src - 1)

/-- A tamper source fires (R448). -/
def Dev.tamper (d : Dev) (src : Nat) : Dev :=
  if !d.tamperOn src then d
  else
    let d := d.withKeys (fun k => { k with active := k.active ||| 2 ^ src })
    let again := d.lockout
    let d := d.setWord keyPg 0x88 (d.word keyPg 0x88 ||| 2 ^ src)
    if again then d.tamperClear
    else
      let d := (d.setFlag keyPg R.KEY_TAMPER_STAT_LOCKOUT true).setFlag keyPg R.KEY_TAMPER_STAT_FUSE_PENDING true
      let kill := d.flag keyPg R.KEY_TAMPER_CFG_KILL_ROOT || decide (32 ≤ d.keys.tamperFuses)
      let d := d.withKeys (fun k => { k with revokeDue := kill })
      let d := ((d.tamperClear).cnt keyPg 4).raise keyPg 1
      d.when d.mainRun (fun d => d.fault { cls := 10, page := keyPg })

/-- LOCKOUT ends once every source bit is clear, no source is active and the fuse is done (R450). -/
def Dev.lockoutEnd (d : Dev) : Dev :=
  if d.lockout && d.word keyPg 0x88 % 16 == 0 && d.keys.active == 0
      && !d.flag keyPg R.KEY_TAMPER_STAT_FUSE_PENDING then
    (d.setFlag keyPg R.KEY_TAMPER_STAT_LOCKOUT false).raise keyPg 3
  else d

/-- A write of KEY_TAMPER_STAT. -/
def Dev.tamperAck (d : Dev) (v : Nat) : Dev :=
  (d.setWord keyPg 0x88 (d.word keyPg 0x88 &&& (0xFFFFFFFF - v % 16))).lockoutEnd

end Sys2Proof.Machine
end

