-- ==== Sys2Proof/Machine/MacsecOps.lean ====
section
/-! DEFINITION. MACsec (R459 to R465): SA entries, sealing and verification; the MAC addresses of ports
(R84). -/

namespace Sys2Proof.Machine

-- ==== MAC addresses ====

/-- SYS_CHAIN_MAC_BASE (R84). -/
def Dev.macBase (d : Dev) : Nat := (d.start.macBlock.getD Config.fusedMac) % 2 ^ 48

/-- The MAC address of a port (R84). -/
def Dev.portMac (d : Dev) (p : Nat) : Nat := (d.macBase + 0x40 * d.addr + p) % 2 ^ 48

-- ==== SA entries ====

/-- The MSC page of a port. -/
def mscPg (port : Nat) : Page := ⟨.msc, port / 4⟩

/-- An SA entry. -/
def Dev.sa (d : Dev) (port i : Nat) : Sa := d.msc.sas.getD (64 * port + i) {}

/-- Change it. -/
def Dev.setSa (d : Dev) (port i : Nat) (x : Sa) : Dev :=
  { d with msc := { d.msc with sas := d.msc.sas.set (64 * port + i) x } }

/-- Word `w` of an entry. -/
def Sa.word (x : Sa) (w : Nat) : Nat := x.words.getD w 0

/-- VALID. -/
def Sa.valid (x : Sa) : Bool := bitAt (x.word 0) 31

/-- SCI as a number, first octet most significant. -/
def Sa.sci (x : Sa) : Nat := x.word 1 * 2 ^ 32 + x.word 2

/-- PN. -/
def Sa.pn (x : Sa) : Nat := x.word 4 + 2 ^ 32 * x.word 5

/-- The entry with another PN. -/
def Sa.withPn (x : Sa) (pn : Nat) : Sa :=
  { x with words := (x.words.set 4 (pn % 2 ^ 32)).set 5 (pn / 2 ^ 32) }

/-- CIPHER of a port: 0 and 2 of 128 bits, 2 and 3 XPN. -/
def Dev.cipher (d : Dev) (port : Nat) : Nat := d.fld (mscPg port) (R.MSC_PORT_CFG_CIPHER.at (port % 4))

/-- The port's suite has 64-bit packet numbers. -/
def Dev.xpn (d : Dev) (port : Nat) : Bool := decide (2 ≤ d.cipher port)

/-- A counter of a port (R465). -/
def Dev.mscCnt (d : Dev) (port k : Nat) : Dev := d.addCount (mscPg port) (0x800 + 0x100 * (port % 4) + 8 * k) 1

/-- The bits of an entry's words that hold something (R462). -/
def saMask (w : Nat) : Nat := if w = 0 then 0x80FF0000 else if 1 ≤ w && w ≤ 8 then 0xFFFFFFFF else 0

/-- The words of a write, for an index: reserved bits 0, TX from the index. -/
def saWords (index : Nat) (ws : List Nat) : List Nat :=
  (List.range 12).map (fun w => (ws.getD w 0 &&& saMask w) ||| (if w = 0 && index < 4 then 2 ^ 30 else 0))

/-- The receive SAs of the SC of an index, that one left out. -/
def scMates (index : Nat) : List Nat :=
  if index < 4 then [] else (List.range 4).map (· + (index - index % 4)) |>.filter (· != index)

/-- A write of an SA entry (R462): RESULT 0 OK, 1 REFUSED, 2 KEY. -/
def Dev.saWrite (d : Dev) (port i : Nat) (ws : List Nat) : Nat × Dev :=
  let p := mscPg port
  let j := port % 4
  let old := d.sa port i
  let new : Sa := { old with words := saWords i ws }
  let sciOk := (scMates i).all (fun k => !(d.sa port k).valid || (d.sa port k).sci == new.sci)
  let pnOk := new.pn != 0 && (d.xpn port || decide (new.pn < 2 ^ 32))
  if !new.valid then
    if old.valid && i < 4 && d.fld p (R.MSC_PORT_CFG_TX_AN.at j) == i && d.flag p (R.MSC_PORT_STAT_ACTIVE.at j)
    then (1, d)
    else (0, (d.setSa port i { words := new.words, key := [] }).mscShow port)
  else if !sciOk || !pnOk then (1, d)
  else if old.valid then
    if 4 ≤ i && (old.withPn new.pn).words == new.words && old.pn < new.pn then
      (0, d.setSa port i (old.withPn new.pn))
    else (1, d)
  else
    let slot := bits (new.word 0) 23 16
    let (ok, d) := d.slotUseOut slot 8 (some (if d.cipher port % 2 = 1 then 32 else 16))
    if !ok then (2, d)
    else (0, ((d.setSa port i { words := new.words, key := d.slotMat slot }).slotSpent slot).mscShow port)

/-- A GO of MSC_SA_CMD on an instance (R461). -/
def Dev.saGo (d : Dev) (k v : Nat) : Dev :=
  let p : Page := ⟨.msc, k⟩
  if !bitAt v 31 then d.setFld p R.MSC_SA_CMD_OP (bits v 0 0)
  else if d.flag p R.MSC_SA_STAT_BUSY then d.refuse p
  else
    let r : SaRun := { write := bitAt v 0, j := d.fld p R.MSC_SA_SEL_PORT, index := d.fld p R.MSC_SA_SEL_INDEX,
                       words := (List.range 12).map (fun w => d.fld p (R.MSC_SA_W_WORD.at w)) }
    let d := { d with msc := { d.msc with runs := d.msc.runs.set k r } }
    (d.setFld p R.MSC_SA_CMD_OP (bits v 0 0)).setFlag p R.MSC_SA_STAT_BUSY true

/-- The running SA command of an instance completes. -/
def Dev.saDone (d : Dev) (k : Nat) : Dev :=
  let p : Page := ⟨.msc, k⟩
  match d.msc.runs.get? k with
  | none => d
  | some r =>
    let d := { d with msc := { d.msc with runs := d.msc.runs.erase k } }
    let port := 4 * k + r.j
    let (res, d) := if r.write then d.saWrite port r.index r.words
      else (0, (List.range 12).foldl (fun d w =>
        d.setFld p (R.MSC_SA_W_WORD.at w)
          ((saWords r.index (d.sa port r.index).words).getD w 0)) d)
    let d := (d.setFlag p R.MSC_SA_STAT_BUSY false).setFlag p R.MSC_SA_STAT_DONE true
    (d.setFld p R.MSC_SA_STAT_RESULT res).raise p 0

-- ==== the stage ====

/-- The port has a SecY in the path: EN is in force. -/
def Dev.secured (d : Dev) (port : Nat) : Bool :=
  decide (port < 24) && d.flag (mscPg port) (R.MSC_PORT_CFG_EN.at (port % 4))

/-- EtherType at the head of a frame. -/
def etherType (f : List Byte) : Nat := beNat (slice f 12 2)

/-- The IV of GCM for a packet number of an SA: SCI and PN, or for XPN the salt over SSCI and PN. -/
def Dev.secIv (d : Dev) (port : Nat) (x : Sa) (sci pn : Nat) : List Nat :=
  if d.xpn port then
    xorOct (natOct 4 (x.word 3) ++ natOct 8 pn) ((List.range 3).flatMap (fun i => natOct 4 (x.word (6 + i))))
  else natOct 8 sci ++ natOct 4 pn

/-- The largest packet number of the suite. -/
def Dev.pnMax (d : Dev) (port : Nat) : Nat := if d.xpn port then 2 ^ 64 - 1 else 2 ^ 32 - 1

/-- Transmit SCI of a port: its MAC address and PORT_ID (R461). -/
def Dev.txSci (d : Dev) (port : Nat) : Nat :=
  d.portMac port * 2 ^ 16 + d.fld (mscPg port) (R.MSC_PORT_CFG_PORT_ID.at (port % 4))

/-- The armed checker of a port's SA key RAM: the next frame through it is discarded (R465). -/
def Dev.secInject (d : Dev) (port : Nat) : Dev :=
  let p := mscPg port
  let c := port % 4
  (d.disarm p c).injected.fault { cls := 0, page := p, checker := c, injected := true }

/-- Seal a frame under an SA with its next packet number (R463). -/
def Dev.sealed (d : Dev) (port an : Nat) (x : Sa) (f : List Byte) : List Byte :=
  let p := mscPg port
  let j := port % 4
  let conf := d.flag p (R.MSC_PORT_CFG_CONFIDENTIAL.at j)
  let sc := d.flag p (R.MSC_PORT_CFG_INCLUDE_SCI.at j)
  let body := octs (f.drop 12)
  let tci := b2n sc * 32 + b2n conf * 12 + an
  let tag := [0x88, 0xE5, tci, if body.length < 48 then body.length else 0] ++ natOct 4 (x.pn % 2 ^ 32)
    ++ (if sc then natOct 8 (d.txSci port) else [])
  let head := octs (f.take 12) ++ tag
  let iv := d.secIv port x (d.txSci port) x.pn
  if conf then
    let ct := ctrMode x.key iv 2 body
    toBytes (head ++ ct ++ gcmTag x.key iv head ct)
  else toBytes (head ++ body ++ gcmTag x.key iv (head ++ body) [])

/-- The transmit stage (R460, R463): what leaves, `none` where the frame is discarded. `own` marks an
EAPOL frame that pair 3 sends. -/
def Dev.macsecTx (d : Dev) (port : Nat) (own : Bool) (f : List Byte) : Option (List Byte) × Dev :=
  let p := mscPg port
  let j := port % 4
  if !d.secured port then (some f, d)
  else if !d.isOn p then (none, d.prtCnt port 12)
  else if own then (some f, d.mscCnt port 15)
  else if !d.flag p (R.MSC_PORT_CFG_PROTECT.at j) then (some f, d.mscCnt port 3)
  else
    let an := d.fld p (R.MSC_PORT_CFG_TX_AN.at j)
    let x := d.sa port an
    if !x.valid then (none, d.mscCnt port 2)
    else if d.isArmed p j then (none, d.secInject port)
    else if d.pnMax port < x.pn then
      let d := d.mscCnt port 2
      (none, if d.flag p (R.MSC_PORT_STAT_PN_EXHAUSTED.at j) then d
             else (d.setFlag p (R.MSC_PORT_STAT_PN_EXHAUSTED.at j) true).raise p 2)
    else
      let out := d.sealed port an x f
      let x' := x.withPn (x.pn + 1)
      let left := d.pnMax port + 1 - x'.pn
      let low := !x.low && decide (left < 2 ^ d.fld p (R.MSC_PORT_CFG_LOW_LOG2.at j))
      let d := d.setSa port an { x' with low := x.low || low }
      let d := d.mscCnt port (if d.flag p (R.MSC_PORT_CFG_CONFIDENTIAL.at j) then 1 else 0)
      (some out, d.when low (fun d => d.raise p 1))

/-- A SecTAG at offset 12: whether it is well formed, and its fields. -/
structure SecTag where
  bad : Bool
  e : Bool
  c : Bool
  an : Nat
  pn : Nat
  sci : Option Nat
  /-- Offset of the secure data. -/
  off : Nat
  deriving DecidableEq, Repr

/-- Read a SecTAG (IEEE 802.1AE-2018 clause 9). -/
def secTag (f : List Byte) : SecTag :=
  let b (i : Nat) : Nat := beNat (slice f i 1)
  let tci := b 14
  let sc := bitAt tci 5
  let off := if sc then 28 else 20
  let sl := b 15
  let data := f.length - off - 16
  let pn := beNat (slice f 16 4)
  { bad := f.length < off + 16 || bitAt tci 7 || ((bitAt tci 6 || bitAt tci 4) && sc) || 48 ≤ sl
      || (sl != 0 && data != sl) || (sl == 0 && decide (data < 48)) || pn == 0
    e := bitAt tci 3, c := bitAt tci 2, an := tci % 4, pn := pn
    sci := if sc then some (beNat (slice f 20 8))
      else if bitAt tci 6 then some (beNat (slice f 6 6) * 65536 + (if bitAt tci 4 then 0 else 1)) else none
    off := off }

/-- The receive SCIs in use on a port. -/
def Dev.rxScis (d : Dev) (port : Nat) : List Nat :=
  (((List.range 32).filter (fun i => (d.sa port (4 + i)).valid)).map (fun i => (d.sa port (4 + i)).sci)).eraseDups

/-- The receive SC of a tag: the first with its SCI, by an SA with VALID = 1. A tag without SC, ES and
SCB takes the one SCI in use. -/
def Dev.rxSc (d : Dev) (port : Nat) (t : SecTag) : Option Nat :=
  let want := match t.sci with
    | some s => some s
    | none => match d.rxScis port with
      | [s] => some s
      | _ => none
  match want with
  | none => none
  | some s => (List.range 8).find? (fun k => (List.range 4).any (fun a =>
      (d.sa port (4 + 4 * k + a)).valid && (d.sa port (4 + 4 * k + a)).sci == s))

/-- The full packet number of a frame: XPN recovers the upper bits. -/
def Dev.fullPn (d : Dev) (port : Nat) (x : Sa) (pn : Nat) : Nat :=
  if !d.xpn port then pn
  else
    let up := x.pn / 2 ^ 32
    let low := x.pn % 2 ^ 32
    (if low ≤ pn then up else if bitAt low 31 && !bitAt pn 31 then up + 1 else up) * 2 ^ 32 + pn

/-- What passes under validation: addresses, then the secure data without SecTAG and ICV. -/
def unsealed (f : List Byte) (off : Nat) : List Byte := f.take 12 ++ (f.drop off).take (f.length - off - 16)

/-- The rows of R464 after "no receive SC matches". -/
def Dev.macsecSc (d : Dev) (port : Nat) (strict : Bool) (t : SecTag) (k : Nat) (f : List Byte) :
    Option (List Byte) × Dev :=
  let p := mscPg port
  let j := port % 4
  let i := 4 + 4 * k + t.an
  let x := d.sa port i
  let lenient : Option (List Byte) := if strict || t.e then none else some (unsealed f t.off)
  if !x.valid then (lenient, d.mscCnt port 9)
  else if d.isArmed p j then (none, d.secInject port)
  else
    let pn := d.fullPn port x t.pn
    let iv := d.secIv port x x.sci pn
    let head := octs (f.take t.off)
    let data := octs ((f.drop t.off).take (f.length - t.off - 16))
    let icv := octs (f.drop (f.length - 16))
    let good := if t.c then gcmTag x.key iv head data == icv else gcmTag x.key iv (head ++ data) [] == icv
    if !good then (lenient, d.mscCnt port (if strict then 11 else 10))
    else
      let win := d.fld p (R.MSC_PORT_WINDOW_WINDOW.at j)
      if d.flag p (R.MSC_PORT_CFG_REPLAY.at j) && decide (pn < x.pn - win) then (none, d.mscCnt port 12)
      else
        let d := (d.setSa port i (x.withPn (max x.pn (pn + 1 - win)))).mscCnt port 4
        (some (f.take 12 ++ toBytes (if t.c then ctrMode x.key iv 2 data else data)), d)

/-- The receive stage (R460, R464): what reaches the hall, `none` where the frame goes no further. -/
def Dev.macsecRx (d : Dev) (port : Nat) (f : List Byte) : Option (List Byte) × Dev :=
  let p := mscPg port
  let j := port % 4
  let mode := d.fld p (R.MSC_PORT_CFG_VALIDATE.at j)
  let strict := mode == 2
  if !d.secured port then (some f, d)
  else if !d.isOn p then (none, d.prtCnt port 7)
  else if etherType f = 0x888E then (none, d.mscCnt port 14)
  else if etherType f ≠ 0x88E5 then
    (if strict then none else some f, d.mscCnt port (if strict then 6 else 5))
  else
    let t := secTag f
    if t.bad then (none, d.mscCnt port 7)
    else if mode = 0 then (if t.e then none else some (unsealed f t.off), d.mscCnt port 13)
    else match d.rxSc port t with
      | none => (if strict || t.e then none else some (unsealed f t.off), d.mscCnt port 8)
      | some k => d.macsecSc port strict t k f

end Sys2Proof.Machine
end

