-- ==== Sys2Proof/Machine/Sched.lean ====
section
/-! DEFINITION. The scheduler (09): gate control lists, the credit-based shaper, which queue may
release (R232 to R247), and the samples of R259. -/

namespace Sys2Proof.Machine

/-- The scheduler of a port. -/
def Dev.sched (d : Dev) (n : Nat) : Sched := d.scheds.getD n {}

/-- Change it. -/
def Dev.setSched (d : Dev) (n : Nat) (x : Sched) : Dev := { d with scheds := d.scheds.set n x }

-- ==== gate control lists (R233, R235) ====

/-- OP, GATES and INTERVAL of an entry. -/
def gclOp (e : Nat) : Nat := bits e 43 40
/-- GATES. -/
def gclGates (e : Nat) : Nat := bits e 39 32
/-- INTERVAL in ns. -/
def gclInt (e : Nat) : Nat := bits e 31 0

/-- An entry that R233 refuses. -/
def gclBad (e : Nat) : Bool := decide (2 < gclOp e) || decide (gclInt e < 64) || decide (1000000000 < gclInt e)

/-- LEN of a configuration. -/
def Gcl.len (g : Gcl) : Nat := bits g.cfg 10 0
/-- The clock a configuration follows: anchor 0 or 1. -/
def Gcl.clock (g : Gcl) : Nat := bits g.cfg 29 28
/-- FINISH_SLOT. -/
def Gcl.finish (g : Gcl) : Bool := bitAt g.cfg 27
/-- Entry `i` of the list. -/
def Gcl.entry (g : Gcl) (i : Nat) : Nat := g.list.getD i 0

/-- The operational configuration of a port. -/
def Dev.operCfg (d : Dev) (n : Nat) : Gcl :=
  let p := schPg n
  { list := (d.sched n).oper, cfg := d.word p 0xA0, base := d.wide p 0xA8, cycle := d.word p 0xB0,
    ext := d.word p 0xB4 }

/-- The administrative configuration of a port. -/
def Dev.adminCfg (d : Dev) (n : Nat) : Gcl :=
  let p := schPg n
  { list := (d.sched n).admin, cfg := d.word p 0x80, base := d.wide p 0x88, cycle := d.word p 0x90,
    ext := d.word p 0x94 }

/-- Nanoseconds into the cycle at time `t`. -/
def Gcl.phase (g : Gcl) (t : Nat) : Nat := (((t : Int) - g.base) % (max g.cycle 1 : Nat)).toNat

/-- The entry that runs `x` ns into a cycle and where it ends, from entry `i` beginning at `at0`;
the last entry lasts until the cycle ends (R235). -/
def Gcl.walk (g : Gcl) (x : Nat) : Nat → Nat → Nat → Nat × Nat
  | 0, i, _ => (i - 1, g.cycle)
  | left + 1, i, at0 =>
    let stop := if left = 0 then g.cycle else min g.cycle (at0 + gclInt (g.entry i))
    if x < stop then (i, stop) else g.walk x left (i + 1) stop

/-- The running entry at time `t`, and the ns until it ends. -/
def Gcl.place (g : Gcl) (t : Nat) : Nat × Nat :=
  let x := g.phase t
  let (i, stop) := g.walk x g.len 0 0
  (i, stop - x)

/-- Longer than any list keeps a gate open. -/
def forever : Nat := 2 ^ 62

/-- For how long from `t` on the list keeps the gate of `q` open without break (R241). -/
def Gcl.openRun (g : Gcl) (q : Nat) : Nat → Nat → Nat
  | 0, _ => forever
  | fuel + 1, t =>
    if g.len = 0 then forever
    else
      let (i, left) := g.place t
      if !bitAt (gclGates (g.entry i)) q then 0
      else if left = 0 then 0
      else left + g.openRun q fuel (t + left)

/-- For how long the gate of `q` stays open from `t` on; a gate that no entry of the list closes
stays open. -/
def Gcl.openFor (g : Gcl) (q t : Nat) : Nat :=
  if (List.range g.len).all (fun i => bitAt (gclGates (g.entry i)) q) then forever
  else g.openRun q (2 * g.len + 2) t

/-- The longest time for which the list keeps the gate of `q` open without break (R241). -/
def Gcl.longest (g : Gcl) (q : Nat) : Nat :=
  if g.len = 0 then forever
  else
    let starts := (List.range g.len).map (fun i => ((List.range i).map (fun j => gclInt (g.entry j))).sum)
    (starts.map (fun x => g.openFor q (g.base + x))).foldl max 0

/-- The ns until the next SET_AND_HOLD entry begins, from `t` on. -/
def Gcl.holdIn (g : Gcl) : Nat → Nat → Nat
  | 0, _ => forever
  | fuel + 1, t =>
    if g.len = 0 then forever
    else
      let (_, left) := g.place t
      let (j, _) := g.place (t + left)
      if left = 0 then forever
      else if gclOp (g.entry j) = 1 then left else left + g.holdIn fuel (t + left)

/-- The clock of a port's operational list, ns. -/
def Dev.gclNow (d : Dev) (n : Nat) : Nat := d.anchorNs (d.operCfg n).clock

/-- Nanoseconds from now to the swap time S of a configuration, on its own clock. -/
def Dev.untilSwap (d : Dev) (g : Gcl) : Nat := g.swap - d.anchorNs g.clock

/-- For how many ns past S the running entry of the operational list continues (R237). The list runs on its own clock,
whatever clock S is a time of. -/
def Dev.extension (d : Dev) (n : Nat) (g : Gcl) : Nat :=
  let o := d.operCfg n
  if o.len = 0 || !g.finish then 0
  else
    let late := d.anchorNs g.clock - g.swap
    let atS := d.gclNow n + d.untilSwap g - late
    let (_, left) := o.place (atS - 1)
    min (left - 1) g.ext

/-- For how long the gate of `q` of a port stays open from now on, a pending change included
(R241). -/
def Dev.gateOpenFor (d : Dev) (n q : Nat) : Nat :=
  let run := (d.operCfg n).openFor q (d.gclNow n)
  match (d.sched n).pend with
  | none => run
  | some p =>
    let x := d.extension n p
    let s := d.untilSwap p + x
    if run < s then run else s + (if p.len = 0 then forever else p.openFor q (p.swap + x))

/-- The ns until the next SET_AND_HOLD entry of a port begins, a pending change included (R241). -/
def Dev.nextHold (d : Dev) (n : Nat) : Nat :=
  let o := d.operCfg n
  let old := o.holdIn (2 * o.len + 2) (d.gclNow n)
  match (d.sched n).pend with
  | none => old
  | some p =>
    let x := d.extension n p
    let s := d.untilSwap p + x
    let t := p.swap + x
    if old < s then old
    else if p.len ≠ 0 ∧ gclOp (p.entry (p.place t).1) = 1 then s
    else s + p.holdIn (2 * p.len + 2) t

/-- The gates of a port as they stand: every gate open while the page is not ON (R232). -/
def Dev.gates (d : Dev) (n : Nat) : Nat :=
  if !d.isOn (schPg n) then 0xFF
  else if (d.sched n).shut then 0 else d.fld (schPg n) R.SCH_GCL_STAT_GATES

/-- The hold of a port (R240). -/
def Dev.gclHold (d : Dev) (n : Nat) : Bool := d.isOn (schPg n) && d.flag (schPg n) R.SCH_GCL_STAT_HOLD

-- ==== pre-emption on the wire (R100, R240, R242) ====

/-- A queue of a port is preemptable and pre-emption is in use. -/
def Dev.preemptable (d : Dev) (n q : Nat) : Bool :=
  decide (n < 24) && d.flag (prtPg n) R.PRT_MM_STAT_ACTIVE && bitAt (d.fld (prtPg n) R.PRT_MM_PREEMPTABLE) q

/-- Bytes of the running fragment where it is cut at the next permitted point: at least 64 × (ADD_FRAG + 1). -/
def Dev.fragment (d : Dev) (n : Nat) (t : TxCopy) : Nat :=
  max ((d.now - t.since) * d.portRate n / 32000) (64 * (d.fld (prtPg n) R.PRT_MM_ADD_FRAG + 1))

/-- The preemptable frame on the wire has a permitted point left: a whole smallest fragment of 64 bytes remains. -/
def Dev.cuttable (d : Dev) (n : Nat) (t : TxCopy) : Bool :=
  t.pre && t.sof.isSome && decide (t.sent + d.fragment n t + 64 ≤ t.bytes.length + 4)

/-- A released copy of a queue that pre-empts. -/
def Dev.express (d : Dev) (n : Nat) (t : TxCopy) : Bool := t.sof.isNone && !d.preemptable n t.queue

/-- The list of released copies of a port as pre-emption leaves it: an express frame, or a hold, cuts the preemptable
frame on the wire at its next permitted point, and express frames go before it; its remaining fragments are sent when
neither is left (R240, R242). -/
def Dev.merge (d : Dev) (n : Nat) : Dev :=
  match d.txOf n with
  | [] => d
  | t :: ts =>
    let ex := ts.filter (d.express n)
    let rest := ts.filter (fun x => !d.express n x)
    let stop := d.gclHold n || !ex.isEmpty
    if t.cut then
      if stop then d.setTx n (ex ++ t :: rest) else d.setTx n ({ t with cut := false, since := d.now } :: ts)
    else if stop && d.cuttable n t then
      d.setTx n (ex ++ { t with cut := true, sent := t.sent + d.fragment n t } :: rest)
    else d

/-- Set or withdraw the hold; each assertion counts in HOLDS. -/
def Dev.setHold (d : Dev) (n : Nat) (on : Bool) : Dev :=
  let p := schPg n
  let d' := (d.setFlag p R.SCH_GCL_STAT_HOLD on).merge n
  if on && !d.flag p R.SCH_GCL_STAT_HOLD then d'.addCount p 0x320 1 else d'

/-- The entry that runs at `t` begins (R235, R240): gates, hold, CUR_ENTRY. Every gate stays closed where an error
in an entry has closed them (R247). -/
def Dev.gclEnter (d : Dev) (n t : Nat) : Dev :=
  let p := schPg n
  let g := d.operCfg n
  if g.len = 0 then
    ((d.setFld p R.SCH_GCL_STAT_GATES 0xFF).setFld p R.SCH_GCL_STAT_CUR_ENTRY 0).setHold n false
  else
    let (i, _) := g.place t
    let e := g.entry i
    let d := (d.setFld p R.SCH_GCL_STAT_GATES (if (d.sched n).shut then 0 else gclGates e)).setFld p R.SCH_GCL_STAT_CUR_ENTRY i
    if gclOp e = 1 then d.setHold n true else if gclOp e = 2 then d.setHold n false else d

/-- An uncorrectable error in an operational entry (R247): every gate closes until the next cycle
boundary. -/
def Dev.listUncorr (d : Dev) (n : Nat) (inj : Bool) : Dev :=
  let p := schPg n
  let d := d.setSched n { d.sched n with shut := true }
  let d := (d.setFld p R.SCH_GCL_STAT_GATES 0).addCount p 0x328 1
  (d.raise p 4).fault { cls := 0, page := p, checker := 0, injected := inj }

/-- GATE_EVENT (R235): the entry of this time begins; `uncorr` is an uncorrectable error in it. -/
def Dev.gateEvent (d : Dev) (n : Nat) (uncorr : Bool) : Dev :=
  let p := schPg n
  if !d.isOn p || 39 < n || d.flag p R.SCH_GCL_STAT_EXTENDING then d
  else
    let (inj, d) := d.check p 0
    if inj || uncorr then d.listUncorr n inj
    else
      let g := d.operCfg n
      let x := d.sched n
      let stay := x.shut && (g.place (d.gclNow n)).1 != 0
      (d.setSched n { x with shut := stay }).gclEnter n (d.gclNow n)

-- ==== changes (R236 to R239) ====

/-- A change that R236 refuses. -/
def Dev.changeBad (d : Dev) (n : Nat) : Bool :=
  let g := d.adminCfg n
  decide (1024 < g.len) || decide (g.cycle < 1000) || decide (1000000000 < g.cycle) || decide (g.cycle < g.ext)

/-- An extension in progress ends without a swap: the operational list goes on (R238, R239). -/
def Dev.extStop (d : Dev) (n : Nat) : Dev :=
  (d.setSched n { d.sched n with extEnd := 0 }).setFlag (schPg n) R.SCH_GCL_STAT_EXTENDING false

/-- A write of SCH_GCL_CMD (R236, R238): bit 31 CHANGE, bit 30 CANCEL. A CHANGE replaces a pending one, which takes
place first where S is less than 1 µs away; the same is done where S is past and the old entry is being extended, and a
CANCEL then ends the extension. DESIGN CHOICE: assumption 145. -/
def Dev.gclCmd (d : Dev) (who : Owner) (n v : Nat) : Dev :=
  let p := schPg n
  let change := bitAt v 31
  let cancel := bitAt v 30
  let x := d.sched n
  if !change && !cancel then d
  else if change && cancel then d.refuse p
  else if !d.holds p who then d.refuse p
  else if cancel then
    let d := (d.setSched n { x with pend := none, next := none }).setFlag p R.SCH_GCL_STAT_PENDING false
    d.when (d.flag p R.SCH_GCL_STAT_EXTENDING) (fun d => (d.extStop n).gclEnter n (d.gclNow n))
  else if 39 < n || d.flag p R.SCH_GCL_STAT_COPYING || d.flag p R.PAGE_STAT_TORN || d.changeBad n then d.refuse p
  else
    let near := match x.pend with
      | some o => d.flag p R.SCH_GCL_STAT_EXTENDING || decide (o.swap < d.anchorNs o.clock + 1000)
      | none => false
    let d := (d.setSched n { x with copying := some (d.adminCfg n), nearSwap := near, next := none
                                    pend := if near then x.pend else none }).setFlag p R.SCH_GCL_STAT_COPYING true
    d.when (!near) (fun d => d.setFlag p R.SCH_GCL_STAT_PENDING false)

/-- The swap time of a configuration whose earliest instant is `e` (R236), and whether BASE is
late. -/
def Gcl.swapAt (g : Gcl) (e : Nat) : Nat × Bool :=
  if e ≤ g.base then (g.base, false)
  else (g.base + (e - g.base + g.cycle - 1) / max g.cycle 1 * g.cycle, true)

/-- The copy into the pending slot completes (R236, R238). -/
def Dev.gclCopied (d : Dev) (n : Nat) : Dev :=
  let p := schPg n
  let x := d.sched n
  match x.copying with
  | none => d
  | some g =>
    let (s, late) := g.swapAt (d.anchorNs g.clock + 1000)
    let g := { g with swap := s }
    let d := d.setFlag p R.SCH_GCL_STAT_COPYING false
    let d := if x.nearSwap && x.pend.isSome then d.setSched n { x with copying := none, next := some g }
      else ((d.setSched n { x with copying := none, pend := some g }).setFlag p R.SCH_GCL_STAT_PENDING true).setFld
        p R.SCH_GCL_PEND_TIME_S s
    d.when late (fun d => (d.addCount p 0x308 1).raise p 1)

/-- The pending configuration takes over at `t` (R237). -/
def Dev.gclTake (d : Dev) (n t : Nat) (g : Gcl) : Dev :=
  let p := schPg n
  let x := d.sched n
  let d := d.setSched n { x with oper := g.list, pend := x.next, next := none, extEnd := 0, shut := false }
  let d := ((d.setWord p 0xA0 g.cfg).setWide p 0xA8 g.base).setWord p 0xB0 g.cycle
  let d := (d.setWord p 0xB4 g.ext).setFlag p R.SCH_GCL_STAT_EXTENDING false
  let d := d.setFlag p R.SCH_GCL_STAT_PENDING x.next.isSome
  let d := match x.next with
    | some g => d.setFld p R.SCH_GCL_PEND_TIME_S g.swap
    | none => d
  let d := (d.setFld p R.SCH_GCL_SWAP_TIME_TIME t).gclEnter n t
  (d.addCount p 0x300 1).raise p 0

/-- S is reached (R237): the new list begins, or the running entry is extended. -/
def Dev.gclSwap (d : Dev) (n : Nat) : Dev :=
  let p := schPg n
  match (d.sched n).pend with
  | none => d
  | some g =>
    let x := d.extension n g
    if x = 0 then d.gclTake n g.swap g
    else (d.setSched n { d.sched n with extEnd := g.swap + x }).setFlag p R.SCH_GCL_STAT_EXTENDING true

/-- An extension ends (R237). -/
def Dev.gclExtended (d : Dev) (n : Nat) : Dev :=
  match (d.sched n).pend with
  | some g => if d.flag (schPg n) R.SCH_GCL_STAT_EXTENDING then d.gclTake n (d.sched n).extEnd g else d
  | none => d

/-- The clocks a port's lists follow name anchor `a` (R239). -/
def Dev.gclFollows (d : Dev) (n a : Nat) : Bool :=
  (d.operCfg n).clock == a || (match (d.sched n).pend with
    | some g => g.clock == a
    | none => false)

/-- An anchor's time steps (R239): the lists that follow it are placed anew, a pending S that the
step passed takes effect at once. -/
def Dev.gclStep (d : Dev) (a : Nat) : Dev :=
  (List.range 40).foldl (fun d n =>
    let p := schPg n
    if !d.isOn p || !d.gclFollows n a then d
    else
      let d := ((d.addCount p 0x310 1).raise p 3).extStop n
      match (d.sched n).pend with
      | some g =>
        if g.swap ≤ d.anchorNs g.clock then d.gclTake n (d.anchorNs g.clock) g
        else d.gclEnter n (d.gclNow n)
      | none => d.gclEnter n (d.gclNow n)) d

/-- A write of SCH_GCL_ENTRY (R234, R245): the value of the entry it leaves, and whether the write
completes the entry. -/
def Dev.gclWrite (d : Dev) (who : Owner) (n v : Nat) (complete : Bool) : Dev :=
  let p := schPg n
  let x := d.sched n
  if 39 < n || !d.holds p who || d.flag p R.SCH_GCL_STAT_COPYING || d.flag p R.SCH_GCL_INDEX_LIST
      || gclBad v then d.refuse p
  else
    let i := d.fld p R.SCH_GCL_INDEX_INDEX
    let d := d.setSched n { x with admin := put0 x.admin i (bits v 43 0), adminWrites := x.adminWrites + 1 }
    if complete then d.setFld p R.SCH_GCL_INDEX_INDEX ((i + 1) % 1024) else d

/-- SCH_GCL_ENTRY as it reads. -/
def Dev.gclRead (d : Dev) (n : Nat) : Nat :=
  let p := schPg n
  let l := if d.flag p R.SCH_GCL_INDEX_LIST then (d.sched n).oper else (d.sched n).admin
  l.getD (d.fld p R.SCH_GCL_INDEX_INDEX) 0

/-- The SCH page starts (R232): every credit is 0 and the operational list runs. -/
def Dev.schStart (d : Dev) (n : Nat) : Dev :=
  let d := (List.range 8).foldl (fun d q => d.setFld (schPg n) (R.SCH_Q_CREDIT_CREDIT.at q) 0) d
  (d.setSched n { d.sched n with credit := [], toks := [], shut := false }).gclEnter n (d.gclNow n)

/-- The SCH page stops (R232): a pending change is discarded; with the list no longer in force every gate is open and
nothing is held. -/
def Dev.schStop (d : Dev) (n : Nat) : Dev :=
  let p := schPg n
  let d := d.setSched n { d.sched n with pend := none, next := none, copying := none, extEnd := 0, shut := false }
  let d := (d.setFlag p R.SCH_GCL_STAT_PENDING false).setFlag p R.SCH_GCL_STAT_COPYING false
  let d := (d.setFlag p R.SCH_GCL_STAT_EXTENDING false).setFld p R.SCH_GCL_STAT_GATES 0xFF
  (d.setFld p R.SCH_GCL_STAT_CUR_ENTRY 0).setHold n false

-- ==== rates and wire times ====

/-- The port seals with MACsec (R241, R463). -/
def Dev.seals (d : Dev) (n : Nat) : Bool :=
  decide (n < 24) && (let p : Page := ⟨.msc, n / 4⟩
    d.flag p (R.MSC_PORT_CFG_EN.at (n % 4)) && d.flag p (R.MSC_PORT_CFG_PROTECT.at (n % 4)))

/-- Wire bits of a frame of length `len` at a port (R241, R243). -/
def Dev.wireBits (d : Dev) (n len : Nat) : Nat := 8 * (len + 20 + if d.seals n then 32 else 0)

/-- Its wire time in ns. -/
def Dev.wireNs (d : Dev) (n len : Nat) : Nat := (1000 * d.wireBits n len + d.portRate n - 1) / d.portRate n

-- ==== the credit-based shaper (R243, R244) ====

/-- The credit of a queue in micro-bits. -/
def Dev.creditOf (d : Dev) (n q : Nat) : Int := (d.sched n).credit.getD q 0

/-- Set it, and show it in whole bits. -/
def Dev.setCredit (d : Dev) (n q : Nat) (c : Int) : Dev :=
  let x := d.sched n
  let d := d.setSched n { x with credit := if c = 0 then x.credit.erase q else x.credit.set q c }
  d.setFld (schPg n) (R.SCH_Q_CREDIT_CREDIT.at q) (wrapTo 32 (c / 1000000))

/-- HI and LO in force for a queue, in bits (R244). -/
def Dev.creditLimits (d : Dev) (n q : Nat) : Nat × Nat := (d.sched n).limits.getD q (0x7FFFFFFF, 0x7FFFFFFF)

/-- Hold a credit at +HI and −LO. -/
def Dev.clampCredit (d : Dev) (n q : Nat) (c : Int) : Int :=
  let (hi, lo) := d.creditLimits n q
  max (-((lo : Int) * 1000000)) (min ((hi : Int) * 1000000) c)

/-- The TOKEN account of a bucket after a change from level `old`: `gain` credited, `loss` debited, the rest of the
way to level `new` clipped (R224, R243, R252). -/
def Tok.move (t : Tok) (old gain loss new : Int) : Tok :=
  { t with credited := t.credited + gain, debited := t.debited + loss, clipped := t.clipped + (old + gain - loss - new) }

/-- What the account of a bucket of a level adds to the sum of its kind (R224). -/
def Tok.sum (t : Tok) (level : Int) : Int := level - t.initial - t.credited + t.debited + t.clipped

/-- Move a credit: `gain` bits are credited, `loss` bits debited, and it stands at `c`. -/
def Dev.moveCredit (d : Dev) (n q : Nat) (gain loss c : Int) : Dev :=
  let x := d.sched n
  let t := (x.toks.getD q {}).move (d.creditOf n q) gain loss c
  (d.setSched n { x with toks := x.toks.set q t }).setCredit n q c

/-- The transmitter of a port is forced idle (R472, R473). -/
def Dev.forcedIdle (d : Dev) (n : Nat) : Bool := decide (n < 40) && (d.safe || d.isoPort n)

/-- The queue holds a frame. -/
def Dev.hasFrame (d : Dev) (n q : Nat) : Bool := !(d.queue (qIdx n q)).all.isEmpty

/-- What a COMMIT has left for the first refill tick after it (R244): MODE, HI and LO come into force; the credit is
clamped to the new limits, and set to 0 by a change of MODE. -/
def Dev.shaperApply (d : Dev) (n q : Nat) : Dev :=
  let p := schPg n
  let x := d.sched n
  let mode := d.fld p (R.SCH_Q_SHAPER_MODE.at q)
  let lim := (d.fld p (R.SCH_Q_HICREDIT_HI.at q), d.fld p (R.SCH_Q_LOCREDIT_LO.at q))
  if mode = x.mode.getD q 0 ∧ lim = d.creditLimits n q then d
  else
    let d := d.setSched n { x with mode := put0 x.mode q mode, limits := x.limits.set q lim }
    d.moveCredit n q 0 0 (if mode ≠ x.mode.getD q 0 then 0 else d.clampCredit n q (d.creditOf n q))

/-- A refill tick of one queue of an ON page (R243): the credit gains; it is held while the transmitter is forced idle
(R232). -/
def Dev.cbsTick (d : Dev) (n q : Nat) : Dev :=
  if (d.sched n).mode.getD q 0 ≠ 1 || d.forcedIdle n then d
  else
    let c := d.creditOf n q
    let slope := min (d.fld (schPg n) (R.SCH_Q_SHAPER_IDLE_SLOPE.at q)) (1000 * d.portRate n)
    let run := bitAt (d.gates n) q && d.portUp n && (d.hasFrame n q || decide (c < 0))
    let gain : Int := if run then 64 * slope else 0
    let new := if !d.hasFrame n q && decide (0 < c + gain) then 0 else c + gain
    d.moveCredit n q gain 0 (d.clampCredit n q new)

/-- An uncorrectable error in a queue's credit (R247). -/
def Dev.creditUncorr (d : Dev) (n q : Nat) (inj : Bool) : Dev :=
  let p := schPg n
  ((((d.moveCredit n q 0 0 0).addCount p 0x328 1).raise p 4).fault
    { cls := 0, page := p, checker := 1, injected := inj })

/-- An update of the credit of a queue (R247): an error in the credit RAM, `bad` or injected, takes its place. -/
def Dev.creditUpdate (d : Dev) (n q : Nat) (bad : Bool) (f : Dev → Dev) : Dev :=
  let (inj, d) := d.check (schPg n) 1
  if inj || bad then d.creditUncorr n q inj else f d

/-- The queues of a port that a shaper concerns. -/
def Dev.shaped (d : Dev) (n : Nat) : List Nat :=
  (List.range 8).filter (fun q =>
    d.fld (schPg n) (R.SCH_Q_SHAPER_MODE.at q) != 0 || (d.sched n).mode.getD q 0 != 0)

/-- A refill tick of a port (R243, R244): only an ON page has shapers. `bad` names the queues whose credit shows an
uncorrectable error. -/
def Dev.schTick (d : Dev) (n : Nat) (bad : List Nat) : Dev :=
  let d := (d.shaped n).foldl (fun d q => d.shaperApply n q) d
  if !d.isOn (schPg n) then d
  else ((List.range 8).filter (fun q => (d.sched n).mode.getD q 0 == 1)).foldl (fun d q =>
    d.creditUpdate n q (bad.contains q) (fun d => d.cbsTick n q)) d

/-- The credit a frame that is sent costs (R243). -/
def Dev.creditSpend (d : Dev) (n q len : Nat) : Dev :=
  if d.isOn (schPg n) && (d.sched n).mode.getD q 0 == 1 then
    d.creditUpdate n q false (fun d =>
      let loss : Int := d.wireBits n len * 1000000
      d.moveCredit n q 0 loss (d.clampCredit n q (d.creditOf n q - loss)))
  else d

-- ==== which queue may release (R241, R242) ====

/-- The length of a copy as it will leave a MAC (R201, R241, R256): its bytes with R-tag changes, padded, and the FCS. -/
def Copy.outLen (c : Copy) : Nat :=
  let n := if c.keep = 0 then c.frm.data.length else min c.frm.data.length c.keep
  let n := match c.rtag, c.tagNow with
    | some _, false => n + 6
    | _, _ => if c.untag && c.tagNow && c.rtag.isNone then n - 6 else n
  max 60 n + 4

/-- The head of a queue. -/
def Dev.head (d : Dev) (n q : Nat) : Option Copy := (d.queue (qIdx n q)).chip.head?

/-- The frame of a copy fits into what remains of the gate (R241). -/
def Dev.fits (d : Dev) (n q : Nat) (c : Copy) : Bool :=
  if !d.isOn (schPg n) || 39 < n then true
  else
    let w := d.wireNs n c.outLen
    let need := if d.preemptable n q then min w (d.nextHold n) else w
    decide (need ≤ d.gateOpenFor n q)

/-- The shaper of a queue allows its head (R243, R253). -/
def Dev.shaperOk (d : Dev) (n q : Nat) (c : Copy) : Bool :=
  if !d.isOn (schPg n) then true
  else
    let mode := (d.sched n).mode.getD q 0
    if mode = 1 then decide (0 ≤ d.creditOf n q)
    else if mode = 2 then match c.ats with
      | some t => decide (t ≤ d.now / 4)
      | none => true
    else true

/-- A hold bars a preemptable queue (R240). -/
def Dev.heldBack (d : Dev) (n q : Nat) : Bool :=
  d.gclHold n && decide (n < 24) && bitAt (d.fld (prtPg n) R.PRT_MM_PREEMPTABLE) q

/-- A queue is selectable (R242). -/
def Dev.selectable (d : Dev) (n q : Nat) : Bool :=
  match d.head n q with
  | none => false
  | some c => bitAt (d.gates n) q && d.shaperOk n q c && d.fits n q c && !d.heldBack n q

/-- The queue that is served: the highest-numbered selectable one (R242). -/
def Dev.served (d : Dev) (n : Nat) : Option Nat := ((List.range 8).reverse).find? (d.selectable n)

-- ==== histograms and maxima (R259, R260) ====

/-- The bin of a sample (R259). -/
def histBin (v unit : Nat) : Nat :=
  if v < unit then 0
  else match (List.range 14).find? (fun b => decide (v < unit * 2 ^ (b + 1))) with
    | some b => b + 1
    | none => 15

/-- Count a sample in a histogram: 0 depth, 1 delay. -/
def Dev.histCount (d : Dev) (n q h v log2 : Nat) : Dev :=
  d.addCount (schPg n) (0x800 + 0x100 * q + 0x80 * h + 8 * histBin v (2 ^ log2)) 1

/-- The page records histograms and maxima. -/
def Dev.histOn (d : Dev) (n : Nat) : Bool := d.isOn (schPg n) && d.flag (schPg n) R.SCH_HIST_CFG_EN

/-- Sample the depths of the eight queues of a port (R259). -/
def Dev.depthSample (d : Dev) (n : Nat) : Dev :=
  if !d.histOn n then d
  else (List.range 8).foldl (fun d q =>
    let p := schPg n
    let v := d.depth (qIdx n q) + d.spillBlocks (qIdx n q)
    let f := R.SCH_Q_MAX_DEPTH_CELLS.at q
    (d.histCount n q 0 v (d.fld p (R.SCH_Q_HIST_DEPTH_LOG2.at q))).setFld p f (max v (d.fld p f))) d

/-- Measure the delay of a released copy, one frame in 2^SAMPLE_LOG2 (R259). -/
def Dev.delaySample (d : Dev) (n q : Nat) (c : Copy) : Dev :=
  if !d.histOn n then d
  else
    let p := schPg n
    let x := d.sched n
    let k := x.sampled.getD q 0
    let every := 2 ^ d.fld p (R.SCH_Q_HIST_SAMPLE_LOG2.at q)
    let d := d.setSched n { x with sampled := put0 x.sampled q ((k + 1) % every) }
    if k % every ≠ 0 then d
    else
      let v := (d.now - c.frm.storedAt) / 4
      let f := R.SCH_Q_MAX_DELAY_NS.at q
      (d.histCount n q 1 v (d.fld p (R.SCH_Q_HIST_DELAY_LOG2.at q))).setFld p f (min (max v (d.fld p f)) (2 ^ 32 - 1))

end Sys2Proof.Machine
end

