-- ==== Sys2Proof/Machine/Frank.lean ====
section
/-! DEFINITION. The Franking tables and functions (09): stream filters, policers, eligibility times,
802.1CB recovery and sequence generation, and the table commands (R248 to R257). -/

namespace Sys2Proof.Machine

/-- Change what the FRK page keeps. -/
def Dev.withFrk (d : Dev) (f : Frk → Frk) : Dev := { d with frk := f d.frk }

/-- Entries and words of a table (R248). -/
def frkSize (t : Nat) : Nat × Nat :=
  if t = 1 then (4096, 8) else if t = 2 then (4096, 2) else if t = 3 then (1024, 4)
  else if t = 4 then (4096, 4) else if t = 5 then (1024, 1) else if t = 6 then (1024, 1) else (0, 0)

/-- The key of a table word. -/
def frkKey (t i w : Nat) : Nat := (t * 4096 + i) * 8 + w

/-- A table word at reset: only policer 0xFFF is not 0 (R251). -/
def frkReset (k : Nat) : Nat :=
  if k = frkKey 1 0xFFF 0 then 0x80000000 else if k = frkKey 1 0xFFF 1 then 0x00030D40
  else if k = frkKey 1 0xFFF 3 then 0x00010000 else 0

/-- A table word. -/
def Dev.frkWord (d : Dev) (t i w : Nat) : Nat :=
  d.frk.words.getD (frkKey t i w) (frkReset (frkKey t i w))

/-- Set a table word. -/
def Dev.setFrk (d : Dev) (t i w v : Nat) : Dev :=
  d.withFrk (fun f => { f with words := f.words.set (frkKey t i w) v })

/-- The bits a written word keeps (R250 to R254); read-only bits are left out. -/
def frkMask (t w : Nat) : Nat :=
  if t = 1 then
    if w = 0 then 0xFC3F0000 else if w ≤ 2 then 0x01FFFFFF else if w ≤ 4 then 0x00FFFFFF else 0
  else if t = 2 then if w = 0 then 0xD3FF3FFF else 0
  else if t = 3 then
    if w = 0 then 0x803F0000 else if w = 1 then 0x01FFFFFF else if w = 2 then 0x00FFFFFF else 0
  else if t = 4 then if w = 0 then 0xFBFF03FF else if w = 1 then 0xFFFFFFFF else if w = 2 then 0xFF else 0
  else if t = 5 then 0x8000FFFF
  else 0xE03FFFFF

/-- The entry formats refuse these words (R248, R250 to R254). -/
def frkBad (t : Nat) (ws : List Nat) : Bool :=
  let w (i : Nat) : Nat := ws.getD i 0
  if t = 1 then decide (25000000 < bits (w 1) 24 0) || decide (25000000 < bits (w 2) 24 0)
  else if t = 2 then
    let m := bits (w 0) 13 0
    m != 0 && (decide (m < 64) || decide (9216 < m))
  else if t = 3 then
    bits (w 1) 24 0 == 0 || decide (25000000 < bits (w 1) 24 0) || decide (bits (w 2) 23 0 < 64)
  else if t = 4 then bitAt (w 0) 28 && bitAt (w 0) 27
  else if t = 6 then bits (w 0) 21 16 == 0 || decide (32 < bits (w 0) 21 16) || bits (w 0) 15 0 == 0
  else false

-- ==== per-entry counters (R257) ====

/-- The key of a per-entry counter. -/
def frkCnt (t i k : Nat) : Nat := (t * 4096 + i) * 6 + k

/-- Count in a per-entry counter. -/
def Dev.entCnt (d : Dev) (t i k : Nat) (n : Nat := 1) : Dev :=
  d.withFrk (fun f => { f with
    cnts := f.cnts.set (frkCnt t i k) ((f.cnts.getD (frkCnt t i k) 0 + n) % 2 ^ 64) })

/-- A global counter of the FRK page. -/
def Dev.frkGlobal (d : Dev) (i : Nat) : Dev := d.cnt frkPg i

-- ==== buckets (R252) ====

/-- Millionths of a byte. -/
def micro : Nat := 1000000

/-- The committed bucket of a policer. -/
def Dev.tcOf (d : Dev) (i : Nat) : Nat := d.frk.tc.getD i (if i = 0xFFF then 65536 * micro else 0)

/-- The excess bucket of a policer. -/
def Dev.teOf (d : Dev) (i : Nat) : Nat := d.frk.te.getD i 0

/-- Set both buckets. -/
def Dev.setBuckets (d : Dev) (i tc te : Nat) : Dev :=
  d.withFrk (fun f => { f with tc := f.tc.set i tc, te := put0 f.te i te })

/-- Move both buckets of a policer: what is credited and debited, and where they stand (R224, R252). -/
def Dev.moveBuckets (d : Dev) (i gainC gainE lossC lossE tc te : Nat) : Dev :=
  let t (k : Nat) : Tok := d.frk.toks.getD (2 * i + k) {}
  let c := (t 0).move (d.tcOf i) gainC lossC tc
  let e := (t 1).move (d.teOf i) gainE lossE te
  (d.withFrk (fun f => { f with toks := (f.toks.set (2 * i) c).set (2 * i + 1) e })).setBuckets i tc te

/-- Give both buckets of a policer an initial level. -/
def Dev.initBuckets (d : Dev) (i tc te : Nat) : Dev :=
  (d.withFrk (fun f => { f with toks := (f.toks.set (2 * i) { initial := tc }).set (2 * i + 1) { initial := te } })).setBuckets i tc te

/-- The bucket sizes of a policer. -/
def Dev.bucketSizes (d : Dev) (i : Nat) : Nat × Nat :=
  (bits (d.frkWord 1 i 3) 23 0 * micro, bits (d.frkWord 1 i 4) 23 0 * micro)

/-- A refill tick of one policer (R252). -/
def Dev.policerTick (d : Dev) (i : Nat) : Dev :=
  if !bitAt (d.frkWord 1 i 0) 31 then d
  else
    let (cbs, ebs) := d.bucketSizes i
    let gain (w : Nat) : Nat := bits (d.frkWord 1 i w) 24 0 * 8
    let tc := d.tcOf i + gain 1
    let spill := if bitAt (d.frkWord 1 i 0) 29 then tc - cbs else 0
    d.moveBuckets i (gain 1 - spill) (gain 2 + spill) 0 0 (min tc cbs) (min (d.teOf i + spill + gain 2) ebs)

/-- The entries of a table that a write has given words. -/
def Dev.frkEntries (d : Dev) (t : Nat) : List Nat :=
  (d.frk.words.filterMap (fun e =>
    if decide (frkKey t 0 0 ≤ e.1) && decide (e.1 < frkKey (t + 1) 0 0) && e.1 % 8 == 0
    then some ((e.1 - frkKey t 0 0) / 8) else none)).eraseDups

/-- The policers with an entry of their own. -/
def Dev.policers (d : Dev) : List Nat := (0xFFF :: d.frkEntries 1).eraseDups

/-- The time in ns that the bucket of an ATS entry takes to fill (R253). -/
def Dev.atsFill (d : Dev) (i : Nat) : Nat :=
  bits (d.frkWord 3 i 2) 23 0 * 8 * micro / max 1 (bits (d.frkWord 3 i 1) 24 0)

/-- The bucket of an ATS entry is full from now on: it was empty the time it takes to fill ago (R248, R249, R253). -/
def Dev.atsFull (d : Dev) (i : Nat) : Dev :=
  let e : Int := (d.now / 4 : Nat) - d.atsFill i
  d.withFrk (fun f => { f with empty := f.empty.set i e })

/-- Set every bucket full (R248). -/
def Dev.frkStart (d : Dev) : Dev :=
  let d := d.policers.foldl (fun d i => let (c, e) := d.bucketSizes i; d.initBuckets i c e) d
  (d.frkEntries 3).foldl Dev.atsFull d

/-- A table write applies (R249). -/
def Dev.frkApply (d : Dev) (t i : Nat) (ws : List Nat) : Dev :=
  let was := bitAt (d.frkWord t i 0) 31
  let d := (List.range (frkSize t).2).foldl (fun d w => d.setFrk t i w (ws.getD w 0 &&& frkMask t w)) d
  let fresh := bitAt (d.frkWord t i 0) 31 && !was
  if t = 1 then
    let (c, e) := d.bucketSizes i
    if fresh then d.initBuckets i c e else d.moveBuckets i 0 0 0 0 (min (d.tcOf i) c) (min (d.teOf i) e)
  else if t = 3 && fresh then d.atsFull i
  else if t = 6 then d.withFrk (fun f => { f with recovs := f.recovs.erase i })
  else d

/-- Every table write that waits applies at a refill tick (R249). -/
def Dev.frkApplyAll (d : Dev) : Dev :=
  d.frk.writes.foldl (fun d x => d.frkApply x.1 x.2.1 x.2.2) (d.withFrk (fun f => { f with writes := [] }))

-- ==== table commands (R248) ====

/-- A write of FRK_TBL_CMD with value `v`. -/
def Dev.frkGo (d : Dev) (v : Nat) : Dev :=
  let p := frkPg
  if !bitAt v 31 then d.setFld p R.FRK_TBL_CMD_OP (bits v 0 0)
  else if d.flag p R.FRK_TBL_STAT_BUSY then d.refuse p
  else
    let d := (d.setFld p R.FRK_TBL_CMD_OP (bits v 0 0)).setFlag p R.FRK_TBL_STAT_BUSY true
    let ws := (List.range 8).map (fun k => d.fld p (R.FRK_TBL_W_WORD.at k))
    d.withFrk (fun f => { f with
      run := some (bits v 0 0, d.fld p R.FRK_TBL_SEL_TABLE, d.fld p R.FRK_TBL_SEL_INDEX, ws) })

/-- The words of an entry as a read shows them: buckets in whole bytes. -/
def Dev.frkRead (d : Dev) (t i w : Nat) : Nat :=
  if t = 1 && w = 6 then d.tcOf i / micro
  else if t = 1 && w = 7 then d.teOf i / micro
  else d.frkWord t i w

/-- A table command completes: RESULT and the device. A write of an 802.1CB table selects a function of F_FRER (R64,
R65). -/
def Dev.frkRun (d : Dev) (op t i : Nat) (ws : List Nat) : Nat × Dev :=
  let (n, k) := frkSize t
  if n = 0 then (1, if op = 1 then d.refuse frkPg else d)
  else if n ≤ i then (2, d)
  else if op = 0 then
    (0, (List.range k).foldl (fun d w => d.setFld frkPg (R.FRK_TBL_W_WORD.at w) (d.frkRead t i w)) d)
  else if frkBad t ws || (4 ≤ t && !d.feature 12) then (1, d.refuse frkPg)
  else (0, d.withFrk (fun f => { f with writes := f.writes ++ [(t, i, ws)] }))

/-- FRK_TBL_DONE. -/
def Dev.frkDone (d : Dev) : Dev :=
  match d.frk.run with
  | none => d
  | some (op, t, i, ws) =>
    let (r, d) := d.frkRun op t i ws
    let d := d.withFrk (fun f => { f with run := none })
    let p := frkPg
    ((((d.setFlag p R.FRK_TBL_STAT_BUSY false).setFlag p R.FRK_TBL_STAT_DONE true).setFld p
      R.FRK_TBL_STAT_RESULT r).raise p 0).digestResult 3 r

-- ==== a frame's own tags ====

/-- VLAN tags of a frame: how many, and the offset after them. -/
def Frm.tags (f : Frm) : Nat × Nat :=
  let tag (o : Nat) : Bool := beNat (slice f.data o 2) == 0x8100 || beNat (slice f.data o 2) == 0x88A8
  if tag 12 then if tag 16 then (2, 20) else (1, 16) else (0, 12)

/-- OUTER_DEI of a tagged frame. -/
def Frm.dei (f : Frm) : Bool := decide (f.tags.1 ≠ 0) && bitAt (beNat (slice f.data 14 1)) 4

/-- The sequence number of its R-tag. -/
def Frm.seqNo (f : Frm) : Option Nat :=
  let o := f.tags.2
  if beNat (slice f.data o 2) = 0xF1C1 then some (beNat (slice f.data (o + 4) 2)) else none

-- ==== steps 1 to 3 (R250, R252, R253) ====

/-- How a frame leaves steps 1 to 3: passed with colour mark and eligibility time, or discarded. -/
structure Metered where
  dei : Bool := false
  ats : Option Nat := none
  deriving DecidableEq, Repr

/-- A read of a table meets an injection (R257): the frame is discarded. -/
def Dev.frkInject (d : Dev) (t : Nat) : Bool × Dev :=
  let (inj, d) := d.check frkPg (t - 1)
  (inj, d.when inj (fun d => d.injected.fault { cls := 0, page := frkPg, checker := t - 1, injected := true }))

/-- Step 1, the stream filter (R250): passes, with the ATS entry it names. -/
def Dev.streamFilter (d : Dev) (f : Frm) : Option (Option Nat) × Dev :=
  if !bitAt f.res.meter 15 then (some none, d)
  else
    let i := bits f.res.meter 11 0
    let w := d.frkWord 2 i 0
    let (inj, d) := d.frkInject 2
    if inj then (none, d)
    else if !bitAt w 31 then (none, d.frkGlobal 1)
    else
      let d := d.entCnt 2 i 0
      let maxLen := bits w 13 0
      if bitAt w 29 then (none, (d.frkGlobal 3).entCnt 2 i 3)
      else if maxLen ≠ 0 && maxLen < f.len then
        let d := (d.frkGlobal 2).entCnt 2 i 2
        if bitAt w 30 then (none, (d.setFrk 2 i 0 (w ||| 2 ^ 29)).raise frkPg 1) else (none, d)
      else (some (if bitAt w 28 then some (bits w 25 16) else none), d.entCnt 2 i 1)

/-- Step 2, the policer (R252): passes, and whether the copy is marked. -/
def Dev.police (d : Dev) (f : Frm) : Option Bool × Dev :=
  if !bitAt f.res.meter 31 then (some false, d)
  else
    let i := bits f.res.meter 27 16
    let w := d.frkWord 1 i 0
    let (inj, d) := d.frkInject 1
    if inj then (none, d)
    else if !bitAt w 31 then (none, d.frkGlobal 0)
    else
      let len := (f.len + bits w 21 16) * micro
      let yellowIn := bitAt w 30 && f.dei
      let tc := d.tcOf i
      let te := d.teOf i
      let allRed := bitAt (d.frkWord 1 i 5) 31
      let colour := if allRed then 2 else if !yellowIn && len ≤ tc then 0 else if len ≤ te then 1 else 2
      let d := if colour = 0 then d.moveBuckets i 0 0 len 0 (tc - len) te
        else if colour = 1 then d.moveBuckets i 0 0 0 len tc (te - len) else d
      let d := (d.entCnt 1 i colour).entCnt 1 i (3 + colour) f.len
      if colour = 2 then
        let d := if bitAt w 27 then (d.setFrk 1 i 5 (2 ^ 31)).raise frkPg 2 else d
        (none, d.frkGlobal 4)
      else if colour = 1 && bitAt w 28 then (none, d.frkGlobal 5)
      else (some (colour == 1 && bitAt w 26), d)

/-- Step 3, the eligibility time (R253), in ns of hall time; `filter` is the stream filter that asks for it, whose
ATS_LATE counts a late frame. -/
def Dev.eligible (d : Dev) (f : Frm) (filter i : Nat) : Option Nat × Dev :=
  let (inj, d) := d.frkInject 3
  if inj then (none, d)
  else
    let g := bits (d.frkWord 3 i 0) 21 16
    let cir := max 1 (bits (d.frkWord 3 i 1) 24 0)
    let arrival := f.storedAt / 4
    let e := d.frk.empty.getD i 0
    let sched : Int := e + (f.len * 8 * micro / cir : Nat)
    let full : Int := e + d.atsFill i
    let elig := max arrival (max (d.frk.elig.getD g 0) sched.toNat)
    let maxRes := d.fld frkPg (R.FRK_ATS_GROUP_MAX_RES.at g)
    let d := d.entCnt 3 i 0
    if maxRes ≠ 0 && arrival + maxRes < elig then (none, (((d.frkGlobal 6).entCnt 3 i 2).entCnt 2 filter 4).raise frkPg 4)
    else
      let d := if arrival < elig then d.entCnt 3 i 1 else d
      (some elig, d.withFrk (fun x => { x with
        elig := x.elig.set g elig,
        empty := x.empty.set i (if (elig : Int) < full then sched else sched + (elig - full)) }))

/-- A frame reaches one of the steps 1 to 4 of R230. -/
def Frm.franked (f : Frm) : Bool := bitAt f.res.meter 15 || bitAt f.res.meter 31 || f.res.destType == 4

/-- Steps 1 to 3 of R230; while the page is not ON a frame that reaches one of the steps 1 to 4 is discarded (R248). -/
def Dev.meter (d : Dev) (f : Frm) : Option Metered × Dev :=
  if f.franked && !d.isOn frkPg then (none, d.frkGlobal 11)
  else match d.streamFilter f with
  | (none, d) => (none, d)
  | (some ats, d) => match d.police f with
    | (none, d) => (none, d)
    | (some dei, d) => match ats with
      | none => (some { dei := dei }, d)
      | some i => match d.eligible f (bits f.res.meter 11 0) i with
        | (none, d) => (none, d)
        | (some t, d) => (some { dei := dei, ats := some t }, d)

-- ==== step 4, 802.1CB (R254 to R256) ====

/-- The recovery function's state. -/
def Dev.recovOf (d : Dev) (i : Nat) : Recov := d.frk.recovs.getD i {}

/-- Change it. -/
def Dev.setRecov (d : Dev) (i : Nat) (r : Recov) : Dev :=
  d.withFrk (fun f => { f with recovs := f.recovs.set i r })

/-- A recovery function decides sequence number `s` (R255): accepted or not. -/
def Dev.recover (d : Dev) (i s : Nat) : Bool × Dev :=
  let w := d.frkWord 6 i 0
  let n := bits w 21 16
  let r := d.recovOf i
  let take (r' : Recov) (d : Dev) : Bool × Dev := (true, (d.setRecov i r').entCnt 6 i 0)
  match r.recov with
  | none => take { recov := some s, hist := 1 } d
  | some v =>
    let x := signed 16 ((s + 65536 - v) % 65536)
    if bitAt w 30 then
      if x = 0 then (false, (d.entCnt 6 i 1).frkGlobal 7) else take { recov := some s, hist := 1 } d
    else if n ≤ x.natAbs then (false, (d.entCnt 6 i 4).frkGlobal 8)
    else if x ≤ 0 then
      if bitAt r.hist x.natAbs then (false, (d.entCnt 6 i 1).frkGlobal 7)
      else take { r with hist := r.hist ||| 2 ^ x.natAbs } (d.entCnt 6 i 2)
    else
      take { recov := some s, hist := (r.hist * 2 ^ x.natAbs + 1) % 2 ^ n }
        (if x = 1 then d else d.entCnt 6 i 2)

/-- FRER_RESET (R255): a function without an accepted frame returns to take-any. -/
def Dev.recovReset (d : Dev) (i : Nat) : Dev :=
  if (d.recovOf i).recov.isSome then
    ((d.withFrk (fun f => { f with recovs := f.recovs.erase i })).entCnt 6 i 5).raise frkPg 3
  else d

/-- What becomes of a REDUNDANT frame at step 4 (R256): the ports its copies go to, the R-tag they
leave with, and whether they leave without. -/
structure Redundant where
  ports : List Nat := []
  rtag : Option Nat := none
  untag : Bool := false
  deriving DecidableEq, Repr

/-- Sequence generation of a path (R256 step 4). -/
def Dev.generate (d : Dev) (w0 : Nat) : Option Nat × Dev :=
  let i := bits w0 25 16
  let g := d.frkWord 5 i 0
  if bitAt w0 30 && bitAt g 31 then
    (some (bits g 15 0), (d.setFrk 5 i 0 (2 ^ 31 + (bits g 15 0 + 1) % 65536)).entCnt 5 i 0)
  else (none, d)

/-- Step 4 of R230 for a path handle. -/
def Dev.redundant (d : Dev) (f : Frm) (path : Nat) : Option Redundant × Dev :=
  let w0 := d.frkWord 4 path 0
  let (inj, d) := d.frkInject 4
  let (inj6, d) := if !inj && bitAt w0 31 && bitAt w0 29 then d.frkInject 6 else (false, d)
  if inj || inj6 then (none, d)
  else if !bitAt w0 31 then (none, d.frkGlobal 10)
  else
    let d := d.entCnt 4 path 0
    let rec0 := bits w0 9 0
    let on := bitAt w0 29 && bitAt (d.frkWord 6 rec0 0) 31
    let (ok, d) := if !on then (true, d) else match f.seqNo with
      | some s => d.recover rec0 s
      | none => if bitAt (d.frkWord 6 rec0 0) 29 then (true, (d.entCnt 6 rec0 3).entCnt 6 rec0 0)
        else (false, (d.entCnt 6 rec0 3).frkGlobal 9)
    let (inj5, d) := if ok && bitAt w0 30 then d.frkInject 5 else (false, d)
    if !ok || inj5 then (none, d)
    else
      let (gen, d) := d.generate w0
      let mask := d.frkWord 4 path 1 + 2 ^ 32 * bits (d.frkWord 4 path 2) 7 0
      let ports := (onesOf mask 40).filter (· != f.inPort)
      let num := match gen with
        | some g => some g
        | none => f.seqNo
      let (tag, d) : Option Nat × Dev :=
        if bitAt w0 28 then match num with
          | some g => (some g, d)
          | none => (some (Config.free d.drawn % 65536), (d.draw).2)
        else (if f.seqNo.isSome && !bitAt w0 27 then gen else none, d)
      (some { ports := ports, rtag := tag, untag := bitAt w0 27 }, d.entCnt 4 path 1 ports.length)

end Sys2Proof.Machine
end

