-- ==== Sys2Proof/Machine/Admit.lean ====
section
/-! DEFINITION. Admission to the egress queues (R206 to R212), spill, mirror copies (R216) and
ageing (R209). -/

namespace Sys2Proof.Machine

/-- Change the hall. -/
def Dev.withHall (d : Dev) (f : Hall → Hall) : Dev := { d with hall := f d.hall }

/-- A number for a new frame. -/
def Dev.newFrame (d : Dev) : Nat × Dev :=
  (d.hall.nextFrame, d.withHall (fun h => { h with nextFrame := h.nextFrame + 1 }))

-- ==== spill (R211 to R213) ====

/-- Blocks of a stored length (R211). -/
def blocksFor (len : Nat) : Nat := (len + 32 + 255) / 256

/-- Spill is available (R211). -/
def Dev.spillOn (d : Dev) : Bool := d.feature 8 && d.flag shlPg R.SHL_SPILL_CFG_EN

/-- Blocks of the region. -/
def Dev.spillTotal (d : Dev) : Nat := 65536 * d.fld shlPg R.SHL_SPILL_CFG_QUOTA16

/-- One of the two budgets in Gbit/s (R213). -/
def Dev.spillGbps (d : Dev) : Nat :=
  let v := d.fld dstPg R.DST_CFG_VARIANT
  (if v = 0 then 100 else if v = 1 then 75 else 50) * d.fld shlPg R.SHL_SPILL_CFG_RATE_PCT / 200

/-- Credit both budgets for 100 ns; at most one credit is kept. -/
def Dev.spillCredit (d : Dev) : Dev :=
  let c : Int := 100 * d.spillGbps
  d.withHall (fun h => { h with writeBudget := min c (h.writeBudget + c), readBudget := min c (h.readBudget + c) })

/-- The test of R212 that fails first: global counter 9 quota, 11 queue, 10 rate. -/
def Dev.spillFails (d : Dev) (i blocks : Nat) : Option Nat :=
  let lim := d.fld shlPg (R.SHL_Q_SPILL_MAX_BLOCKS.at i)
  let mine := d.spillBlocks i
  if !d.spillOn || d.spillTotal < d.spillUsed + blocks then some 9
  else if lim ≠ 0 ∧ lim < mine + blocks then some 11
  else if d.hall.writeBudget ≤ 0 then some 10 else none

/-- SPILL_BUDGET where the rate test failed (R222). -/
def Dev.budgetIrq (d : Dev) (k : Nat) : Dev := d.when (k == 10) (fun d => d.raise shlPg 4)

/-- Count an admitted copy (R223) and mark it for ECN where its queue's depth before it asks so
(R210). -/
def Dev.enqueued (d : Dev) (i : Nat) (c : Copy) : Copy × Dev :=
  let total := d.depth i + d.spillBlocks i
  let mark := d.flag shlPg (R.SHL_Q_ECN_EN.at i) && decide (d.fld shlPg (R.SHL_Q_ECN_MARK.at i) ≤ total)
    && c.frm.l3.isSome
  let d := ((d.qCnt i 0).qCnt i 1 c.frm.len).when c.mirror.isSome (fun d => d.shlCnt 13)
  ({ c with marked := mark, maxLen := if i < 320 then d.fld (prtPg (i / 8)) R.PRT_FRAME_MAX_LEN else 0 }, d.when (i / 8 == 40) (fun d => d.idleReturn))

/-- Spill a copy: its blocks are taken at once, its cells stay held until they are written (R214). -/
def Dev.spillIn (d : Dev) (i : Nat) (c : Copy) : Dev :=
  let b := blocksFor c.frm.len
  let (c, d) := d.enqueued i c
  let q := d.queue i
  let d := (d.setQueue i { q with spill := q.spill ++ [{ c with blocks := b }] }).addCopy c.frm.id
  let d := d.withHall (fun h => { h with writing := h.writing ++ [(i, c.frm.id)],
                                         writeBudget := h.writeBudget - 2048 * b })
  let d := (List.range b).foldl (fun d _ => d.dsAsk { who := 0, at0 := 0, write := true, tag := c.frm.id }) d
  (d.qCnt i 5).shlCnt 7

/-- Admit a copy on chip. -/
def Dev.chipIn (d : Dev) (i : Nat) (c : Copy) : Dev :=
  let (c, d) := d.enqueued i c
  let q := d.queue i
  ((d.setQueue i { q with chip := q.chip ++ [c] }).addCopy c.cellKey).lowWater

-- ==== admission (R206) ====

/-- A refused copy: a mirror copy counts in MIRROR_DISCARD alone (R216). -/
def Dev.turnAway (d : Dev) (c : Copy) (count : Dev → Dev) : Bool × Dev :=
  (false, if c.mirror.isSome then d.shlCnt 14 else count d)

/-- The global counter of the first limit test that fails. -/
def Dev.limitFails (d : Dev) (c : Copy) (p q : Nat) (skipIn : Bool) : Option Nat :=
  let i := qIdx p q
  let mn := d.fld shlPg (R.SHL_Q_MIN_MIN.at i)
  let ovf := c.cells - (mn - d.depth i)
  let lim := min (d.fld shlPg (R.SHL_Q_MAX_MAX.at i)) (d.sharedFree * 2 ^ d.fld shlPg (R.SHL_Q_MAX_ALPHA.at i) / 8)
  if d.sharedFree < ovf then some 3
  else if lim < (d.depth i - mn) + ovf then some 2
  else if d.fld shlPg (R.SHL_PORT_EG_LIMIT_CELLS.at p) < d.egressCells p + c.cells then some 4
  else if !skipIn && c.mirror.isNone && decide (c.frm.inPort ≤ 42)
      && decide (d.fld shlPg (R.SHL_PORT_IN_LIMIT_CELLS.at c.frm.inPort) < d.ingressCells c.frm.inPort + c.cells) then some 5
  else none

/-- Admit a copy to queue `q` of port `p` (R206, R212); `charged`: an earlier copy of the frame has
charged the ingress port. A SLOW frame meets no limit (R208). Answers whether the copy is in the queue. -/
def Dev.admitCopy (d : Dev) (c : Copy) (p q : Nat) (charged : Bool) : Bool × Dev :=
  let i := qIdx p q
  let spillEn := d.flag shlPg (R.SHL_Q_SPILL_ON_EN.at i) && c.mirror.isNone
  let fails := d.spillFails i (blocksFor c.frm.len)
  if !d.isOn shlPg then (false, d.shlCnt 18)
  else if c.frm.res.destType = 8 && c.mirror.isNone then (true, d.chipIn i c)
  else if p < 40 && (!d.isOn (prtPg p) || ((d.port p).closed && !d.tc10Down p)) then d.turnAway c (fun d => d.prtCnt p 12)
  else if p < 40 && d.isoPort p then d.turnAway c (fun d => d.prtCnt p 11)
  else if p < 40 && (!d.portUp p || d.tc10Down p) && !d.flag (prtPg p) R.PRT_CTRL_LINK_DOWN_HOLD then d.turnAway c (fun d => d.prtCnt p 11)
  else if d.spilling i then
    if c.mirror.isSome then d.turnAway c id
    else match fails with
      | none => (true, d.spillIn i c)
      | some k => (false, (((d.qCnt i 6).shlCnt k).raise shlPg 0).budgetIrq k)
  else if spillEn && decide (d.fld shlPg (R.SHL_Q_SPILL_ON_ON.at i) ≤ d.depth i) && fails.isNone then
    (true, d.spillIn i c)
  else
    let d := d.when (spillEn && decide (d.fld shlPg (R.SHL_Q_SPILL_ON_ON.at i) ≤ d.depth i))
      (fun d => d.budgetIrq (fails.getD 0))
    match d.limitFails c p q charged with
    | none => (true, d.chipIn i c)
    | some k =>
      if spillEn && fails.isNone then (true, d.spillIn i c)
      else
        let d := d.when spillEn (fun d => d.budgetIrq (fails.getD 0))
        d.turnAway c (fun d => (d.qCnt i 3).shlCnt k)

-- ==== mirror copies (R216) ====

/-- The mirror sessions that are on: session, SHL_MIR_CFG, SHL_MIR_SAMPLE (R220). -/
def Dev.mirrorsNow (d : Dev) : List (Nat × Nat × Nat) :=
  ((List.range 16).filter (fun s => d.flag shlPg (R.SHL_MIR_CFG_EN.at s))).map (fun s =>
    (s, d.word shlPg (R.SHL_MIR_CFG_EN.at s).off, d.word shlPg (R.SHL_MIR_SAMPLE_LOG2_N.at s).off))

/-- The sessions of a list that take this frame, as their sampling asks: each counts it. -/
def Dev.mirrorDraw (d : Dev) (sessions : List (Nat × Nat × Nat)) : List (Nat × Nat × Nat) × Dev :=
  sessions.foldl (fun (acc : List (Nat × Nat × Nat) × Dev) m =>
    let k := acc.2.hall.mirCount.getD m.1 0
    let n := 2 ^ bits m.2.2 3 0
    (if k % n = 0 then acc.1 ++ [m] else acc.1,
     acc.2.withHall (fun h => { h with mirCount := h.mirCount.set m.1 ((k + 1) % n) }))) ([], d)

/-- A mirror copy of a frame for a session (R216, R220); `tx` is the egress port of a released frame. A session a
capture page holds is written to the deep store instead (R413). Answers whether one was made and admitted. -/
def Dev.mirrorCopy (d : Dev) (c : Copy) (m : Nat × Nat × Nat) (tx : Option Nat := none) : Bool × Dev :=
  let s := m.1
  let keep := 64 * bits m.2.1 7 0
  match d.capOf s with
  | some r =>
    let (ok, d) := d.capStore r s c.frm keep (tx.getD c.frm.inPort) tx.isSome
    (false, d.when ok (fun d => d.shlCnt 13))
  | none =>
    let x : Copy := { frm := c.frm, cells := c.cells, mirror := some s, sub := bits m.2.1 17 12, keep := keep, hold := c.hold }
    d.admitCopy x (bits m.2.1 29 24) (bits m.2.1 22 20) true

/-- Admit the copies of a frame, one after the other, each to its port and queue: the ingress port is
charged with the first admitted one; where none is admitted the cells are freed (R206, R207). Mirror sessions apply as
they stood when the frame was stored (R221). -/
def Dev.admitAll (d : Dev) (f : Frm) (sessions : List Nat) (cs : List (Nat × Nat × Copy)) : Dev :=
  let (ms, d) := d.mirrorDraw (sessions.filterMap (fun s => f.mirrors.find? (fun m => m.1 == s)))
  let d := d.when (decide (1 < cs.length + (ms.filter (fun m => (d.capOf m.1).isNone)).length)) (fun d =>
    d.severalCopies f.id)
  let (any, d) := cs.foldl (fun (acc : Bool × Dev) x =>
    let (ok, d) := acc.2.admitCopy x.2.2 x.1 x.2.1 acc.1
    (acc.1 || ok, d)) (false, d)
  let plain : Copy := { frm := f, cells := cellsFor f.len }
  let (any, d) := ms.foldl (fun (acc : Bool × Dev) m =>
    let (ok, d) := acc.2.mirrorCopy plain m
    (acc.1 || ok, d)) (any, d)
  (d.when (!any) (fun d => d.freeCells f.id)).lowWater

-- ==== ageing (R209) ====

/-- A copy has aged out of queue `i`. -/
def Dev.aged (d : Dev) (i : Nat) (c : Copy) : Bool :=
  decide (d.fld shlPg (R.SHL_Q_AGE_LIMIT.at i) * 16 * usTicks < d.now - c.frm.storedAt)

/-- Discard aged heads of the on-chip part; the next head is examined in turn. -/
def Dev.ageHeads (d : Dev) (i : Nat) : Nat → Dev
  | 0 => d
  | n + 1 =>
    let q := d.queue i
    match q.chip with
    | c :: cs =>
      if d.aged i c then
        Dev.ageHeads ((((d.setQueue i { q with chip := cs }).endOf c).qCnt i 4).shlCnt 6) i n
      else d
    | [] => d

/-- Examine the head of a queue and, where it is discarded, the heads after it. -/
def Dev.examine (d : Dev) (i : Nat) : Dev := (d.ageHeads i (d.queue i).chip.length).lowWater

end Sys2Proof.Machine
end

