-- ==== Sys2Proof/Machine/PmkOps.lean ====
section
/-! DEFINITION. The Postmark (10): anchors and their servo, working clocks, the latch, event outputs,
capture inputs, and the gPTP engine. -/

namespace Sys2Proof.Machine

-- ==== the pairs (R422, R432) ====

/-- STATE of a pair. -/
def Dev.pairState (d : Dev) (n : Nat) : Nat := d.fld cclPg (R.CCL_PAIR_STAT_STATE.at n)

/-- A pair runs. -/
def Dev.pairRuns (d : Dev) (n : Nat) : Bool := d.pairState n == 1 || d.pairState n == 2

/-- The partner of a pair. -/
def partner (n : Nat) : Nat := if n % 2 = 0 then n + 1 else n - 1

/-- The pair that carries the duties of pair `n` now: its partner while that shows COVER (R432, R516). -/
def Dev.carrier (d : Dev) (n : Nat) : Nat :=
  if d.flag cclPg (R.CCL_PAIR_STAT_COVER.at (partner n)) then partner n else n

/-- The pair that carries the duties of pair `n` now, if it runs. -/
def Dev.dutyPair (d : Dev) (n : Nat) : Option Nat :=
  if d.pairRuns (d.carrier n) then some (d.carrier n) else none

/-- The duties of pair `n` are carried now. -/
def Dev.duty (d : Dev) (n : Nat) : Bool := (d.dutyPair n).isSome

-- ==== anchors (R271 to R275) ====

/-- STATE of an anchor: 0 FREE, 1 ACQUIRING, 2 LOCKED, 3 HOLDOVER, 4 FOLLOW. -/
def Dev.ancState (d : Dev) (n : Nat) : Nat := d.fld pmkPg (R.PMK_ANCHOR_STAT_STATE.at n)

/-- Anchor 0 is in FOLLOW after the holder of the pair (R492). -/
def Dev.pairFollow (d : Dev) (n : Nat) : Bool :=
  n == 0 && d.ancState 0 == 4 && (d.adjState == 3 || d.adjState == 4)

/-- An anchor is in FOLLOW after the other (R274). -/
def Dev.follows (d : Dev) (n : Nat) : Bool := d.ancState n == 4 && !d.pairFollow n

/-- The rate an anchor runs at: in FOLLOW after the other anchor, that one's. -/
def Dev.ancRate (d : Dev) (n : Nat) : Int :=
  if d.follows n then (d.anchor (1 - n)).rate else (d.anchor n).rate

/-- Change STATE; each change raises STATEn, and an anchor that follows one that leaves LOCKED keeps
that one's rate in HOLDOVER (R273). -/
def Dev.setAncState (d : Dev) (n st : Nat) : Dev :=
  let old := d.ancState n
  if old = st then d
  else
    let put (d : Dev) (n st : Nat) : Dev := (d.setFld pmkPg (R.PMK_ANCHOR_STAT_STATE.at n) st).raise pmkPg n
    let d := put d n st
    if old = 2 && d.follows (1 - n) then
      let o := 1 - n
      put (d.setAnchor o { d.anchor o with rate := (d.anchor n).rate }) o 3
    else d

/-- Set GOOD, which saturates at 15. -/
def Dev.setGood (d : Dev) (n k : Nat) : Dev := d.setFld pmkPg (R.PMK_ANCHOR_STAT_GOOD.at n) (min k 15)

/-- A value held to ±`ppb`, in 1/256 ppb. -/
def clampPpb (v : Int) (ppb : Nat) : Int := max (-(256 * ppb : Int)) (min v (256 * ppb))

/-- Hold a rate to MAX_PPB. -/
def Dev.maxRate (d : Dev) (n : Nat) (v : Int) : Int := clampPpb v (d.fld pmkPg (R.PMK_ANCHOR_MAXRATE_MAX_PPB.at n))

-- ==== event outputs (R280 to R283) ====

/-- PIN as it reads (R283): the pin is at its pulse level. -/
def Dev.evoPin (d : Dev) (n : Nat) : Bool :=
  let pol := d.fld (evoPg n) R.PMK_EVO_CFG_POLARITY
  if d.evoForced n then d.safeLevel n == 1 - pol
  else if d.evoShared n then false else (d.evo n).high

/-- A counter of an event output: 0 PULSES, 1 LATE_SKIPS, 2 STEPS, 3 FORCED, 4 MUTED. -/
def Dev.evoCnt (d : Dev) (n k : Nat) : Dev := d.bump (evoPg n) 0x100 k

/-- The first START + k × PERIOD at or after `t`. -/
def Dev.evoAfter (d : Dev) (n t : Nat) : Nat :=
  let p := evoPg n
  let s := d.fld p R.PMK_EVO_START_NS
  let per := d.fld p R.PMK_EVO_PERIOD_NS
  if t ≤ s then s else s + (t - s + per - 1) / per * per

/-- Nothing more is due: DONE (R282). -/
def Dev.evoEnd (d : Dev) (n : Nat) (irq : Bool) : Dev :=
  let p := evoPg n
  ((d.setFlag p R.PMK_EVO_STAT_ARMED false).setFlag p R.PMK_EVO_STAT_DONE true).when irq (fun d => d.raise p 2)

/-- A one-shot whose time has gone is skipped (R282). -/
def Dev.evoSkip (d : Dev) (n : Nat) : Dev := ((d.evoCnt n 1).evoEnd n false).raise (evoPg n) 1

/-- A working clock runs. -/
def Dev.wcOn (d : Dev) (c : Nat) : Bool := d.flag pmkPg (R.PMK_WC_CFG_EN.at (c - 2))

/-- The sub-units of clock `c`; 0 for a working clock that does not run. -/
def Dev.clockSub (d : Dev) (c : Nat) : Nat :=
  if c < 2 then (d.anchor c).sub else if d.wcOn c then (d.wclock c).sub else 0

/-- Arm an output (R282): less than 1 µs ahead, a periodic one starts later and a one-shot is
skipped. -/
def Dev.evoArm (d : Dev) (n : Nat) : Dev :=
  let p := evoPg n
  let t := (d.clockSub (d.fld p R.PMK_EVO_CFG_SOURCE) + subPerNs - 1) / subPerNs + 1000
  let s := d.fld p R.PMK_EVO_START_NS
  let d := (d.setEvo n {}).setFlag p R.PMK_EVO_STAT_DONE false
  let arm (d : Dev) (at0 : Nat) : Dev := (d.setFld p R.PMK_EVO_NEXT_NS at0).setFlag p R.PMK_EVO_STAT_ARMED true
  let d := d.evoDrive n false
  if t ≤ s then arm d s
  else if d.fld p R.PMK_EVO_PERIOD_NS = 0 then d.evoSkip n
  else (arm d (d.evoAfter n t)).raise p 1

/-- A leading edge falls due (R282, R283). -/
def Dev.evoLead (d : Dev) (n : Nat) : Dev :=
  let p := evoPg n
  if !d.isOn p || !d.flag p R.PMK_EVO_STAT_ARMED then d
  else
    let forced := d.evoForced n
    let e := d.evo n
    let d :=
      if forced then d.evoCnt n 3
      else
        let d := d.setEvo n { e with emitted := e.emitted + 1 }
        if d.flag p R.PMK_EVO_FLAGS_MUTE then d.evoCnt n 4
        else
          let d := (d.evoDrive n true).when (!d.evoShared n) (fun d => d.evoCnt n 0)
          d.when (d.flag p R.PMK_EVO_CFG_IRQ_EACH) (fun d => d.raise p 0)
    let per := d.fld p R.PMK_EVO_PERIOD_NS
    let count := d.fld p R.PMK_EVO_COUNT_PULSES
    if per = 0 || (count != 0 && decide (count ≤ (d.evo n).emitted)) then
      if (d.evo n).high && !forced then
        (d.setEvo n { d.evo n with last := true }).setFlag p R.PMK_EVO_STAT_ARMED false
      else d.evoEnd n true
    else d.setFld p R.PMK_EVO_NEXT_NS (d.fld p R.PMK_EVO_NEXT_NS + per)

/-- A pulse ends after WIDTH, or at once; with the last one DONE is set (R282). -/
def Dev.evoFall (d : Dev) (n : Nat) : Dev :=
  let last := (d.evo n).last
  if (d.evo n).high then
    ((d.setEvo n { d.evo n with last := false }).evoDrive n false).when last (fun d => d.evoEnd n true)
  else d

/-- The source of an output steps (R282). -/
def Dev.evoStep (d : Dev) (c n : Nat) : Dev :=
  let p := evoPg n
  if !(d.isOn p || d.state p == 3) || d.fld p R.PMK_EVO_CFG_SOURCE != c then d
  else
    let d := ((d.evoFall n).evoCnt n 2).raise p 3
    let t := d.clockNs c + 1
    if !d.flag p R.PMK_EVO_STAT_ARMED || !d.isOn p then d
    else if d.fld p R.PMK_EVO_PERIOD_NS = 0 then
      if t ≤ d.fld p R.PMK_EVO_START_NS then d else d.evoSkip n
    else d.setFld p R.PMK_EVO_NEXT_NS (d.evoAfter n t)

-- ==== steps (R272, R275) ====

/-- The time of an anchor steps to `sub`: every consumer that reads it follows (R275). -/
def Dev.ancStep (d : Dev) (n sub : Nat) : Dev :=
  let d := d.setAnchor n { d.anchor n with sub := sub }
  let d := (d.setFlag pmkPg (R.PMK_ANCHOR_STAT_COARSE.at n) false).bump pmkPg 0x2000 (9 + n)
  let d := (d.raise pmkPg (2 + n)).gclStep n
  (List.range 16).foldl (fun d k => d.evoStep n k) d

/-- Offset of the latest sample in sub-units. -/
def subOf (o : Int) : Int := o * (subPerNs / 65536 : Nat)

/-- Take `o` (2^-16 ns) off the time of an anchor. -/
def Dev.ancBack (d : Dev) (n : Nat) (o : Int) : Dev := d.ancStep n (((d.anchor n).sub : Int) - subOf o).toNat

/-- PMK_HS_DELTA: anchor 0 − anchor 1 in ns (R274). -/
def Dev.hsDelta (d : Dev) : Dev :=
  d.setFld pmkPg R.PMK_HS_DELTA_NS (wrapTo 64 ((((d.anchor 0).sub : Int) - (d.anchor 1).sub) / (subPerNs : Nat)))

/-- The log2 of the Sync interval of an anchor's domain. -/
def Dev.syncLog (d : Dev) (n : Nat) : Int :=
  signed 4 (d.fld pmkPg (if n = 0 then R.PMK_GPTP_CFG_SYNC0 else R.PMK_GPTP_CFG_SYNC1))

/-- A share 2^-k of an offset per Sync interval, 2^-32 ppb. -/
def share (o : Int) (k : Nat) (sync : Int) : Int := o * 2 ^ ((16 : Int) - k - sync).toNat

/-- R272: the servo takes offset `o` (2^-16 ns) and rate ratio `rr` (1/256 ppb). -/
def Dev.servo (d : Dev) (n : Nat) (o rr : Int) : Dev :=
  let at' (f : Fld) : Nat := d.fld pmkPg (f.at n)
  if 65536 * at' R.PMK_ANCHOR_LIMITS_STEP_NS < o.natAbs then
    let d := d.ancBack n o
    d.setAnchor n { d.anchor n with integ := 0, rate := d.maxRate n rr }
  else
    let a := d.anchor n
    let ki := at' R.PMK_ANCHOR_CFG_KI_LOG2
    let integ := if ki = 0xF then a.integ else a.integ - share o ki (d.syncLog n)
    let adj := integ - share o (at' R.PMK_ANCHOR_CFG_KP_LOG2) (d.syncLog n)
    d.setAnchor n { a with integ := integ, rate := d.maxRate n (rr + adj / 2 ^ 24) }

/-- A sample reaches an anchor with TRACK = 1 (R273), which has no row for one in FREE. -/
def Dev.sample (d : Dev) (n : Nat) (o rr : Int) : Dev :=
  let p := pmkPg
  if !d.flag p (R.PMK_ANCHOR_CFG_TRACK.at n) || d.ancState n == 0 || d.pairFollow n then d
  else
    let d := d.setAnchor n { d.anchor n with offset := o }
    let d := d.setFld p (R.PMK_ANCHOR_OFFSET_NS.at n) (satTo 32 (o / 65536))
    let st := d.ancState n
    let within (f : Fld) : Bool := decide (o.natAbs ≤ 65536 * d.fld p (f.at n))
    let big := !within R.PMK_ANCHOR_LIMITS_STEP_NS
    let good := if within R.PMK_ANCHOR_LIMITS_LOCK_NS then d.fld p (R.PMK_ANCHOR_STAT_GOOD.at n) + 1 else 0
    let d :=
      if st = 4 && big then
        (d.setFlag p (R.PMK_ANCHOR_STAT_SPLIT.at n) true).raise p 4
      else
        let d := d.when (st == 4) (fun d =>
          (d.setAnchor n { d.anchor n with integ := ((d.anchor (1 - n)).rate - rr) * 2 ^ 24 }).setFlag p
            (R.PMK_ANCHOR_STAT_SPLIT.at n) false)
        let d := (d.servo n o rr).setGood n good
        if big then (d.setGood n 0).setAncState n 1
        else if st = 1 && within R.PMK_ANCHOR_LIMITS_LOCK_NS
            && decide (d.fld p (R.PMK_ANCHOR_CFG_LOCK_COUNT.at n) ≤ min good 15) then d.setAncState n 2
        else if st = 2 then d else d.setAncState n 1
    d.hsDelta

/-- A timeout of an anchor's domain (R273). -/
def Dev.ancTimeout (d : Dev) (n : Nat) : Dev :=
  let st := d.ancState n
  if !d.isOn pmkPg || !(st == 1 || st == 2) then d
  else
    let d := d.bump pmkPg 0x2000 8
    if d.flag pmkPg R.PMK_HS_CFG_EN && d.ancState (1 - n) == 2 then
      let a := d.anchor n
      ((d.setAnchor n { a with delta := (a.sub : Int) - (d.anchor (1 - n)).sub }).bump pmkPg 0x2000 13).setAncState n 4
    else d.setAncState n 3

/-- A write of PMK_ANCHORn_CMD (R271): SET outside FREE and RESYNC outside SPLIT are refused. -/
def Dev.ancCmd (d : Dev) (n v : Nat) : Dev :=
  let p := pmkPg
  let st := d.ancState n
  let split := d.flag p (R.PMK_ANCHOR_STAT_SPLIT.at n)
  if (bitAt v 31 && !split) || (bitAt v 30 && st != 0) then d.refuse p
  else if bitAt v 31 then
    (((d.ancBack n (d.anchor n).offset).setAncState n 1).setFlag p (R.PMK_ANCHOR_STAT_SPLIT.at n) false)
  else if bitAt v 30 then d.ancStep n (d.fld p (R.PMK_ANCHOR_SET_NS.at n) * subPerNs)
  else d

/-- Role of a port for an anchor's domain: 0 DISABLED, 1 MASTER, 2 SLAVE. -/
def Dev.role (d : Dev) (n p : Nat) : Nat :=
  d.fld pmkPg ((if n = 0 then R.PMK_PORT_CFG_ROLE0 else R.PMK_PORT_CFG_ROLE1).at p)

/-- An anchor is disciplined: TRACK = 1, and its domain has a SLAVE port; without one it is the grandmaster and FREE
(R268). -/
def Dev.tracks (d : Dev) (n : Nat) : Bool :=
  d.flag pmkPg (R.PMK_ANCHOR_CFG_TRACK.at n) && (List.range 40).any (fun p => d.role n p == 2)

/-- After a COMMIT of the core each anchor goes to FREE, or leaves it, as the committed TRACK and roles say (R268,
R273); an anchor that follows the holder of the pair stays so (R492). A grandmaster takes the row of TRACK = 0. DESIGN
CHOICE: assumption 148. -/
def Dev.ancCommitted (d : Dev) : Dev :=
  [0, 1].foldl (fun d n =>
    if d.pairFollow n then d
    else if !d.tracks n then
      let d := d.setAncState n 0
      ((d.setAnchor n { d.anchor n with rate := signed 32 (d.fld pmkPg (R.PMK_ANCHOR_FREE_RATE_RATE.at n)) }).setGood
        n 0).setFlag pmkPg (R.PMK_ANCHOR_STAT_SPLIT.at n) false
    else if d.ancState n = 0 then d.setAncState n 1 else d) d

/-- A COMMIT of the core that would leave an illegal configuration (R268, R271, R274). -/
def Dev.pmkBad (d : Dev) : Bool :=
  let fl (f : Fld) : Nat := d.stagedFld pmkPg f
  let role (n p : Nat) : Nat := fl ((if n = 0 then R.PMK_PORT_CFG_ROLE0 else R.PMK_PORT_CFG_ROLE1).at p)
  let track (n : Nat) : Bool := fl (R.PMK_ANCHOR_CFG_TRACK.at n) == 1
  [0, 1].any (fun n => decide (1 < ((List.range 40).filter (fun p => role n p == 2)).length))
    || (track 0 && track 1 && fl (R.PMK_ANCHOR_CFG_DOMAIN.at 0) == fl (R.PMK_ANCHOR_CFG_DOMAIN.at 1))
    || (fl R.PMK_HS_CFG_EN == 1 && (!d.feature 5 || !track 0 || !track 1))

/-- The time core starts (R263, R287): the carried time, both anchors FREE and COARSE. -/
def Dev.pmkStart (d : Dev) : Dev :=
  let sub := d.pmk.carried + (d.now - d.pmk.carriedAt) * (subPerNs / 4)
  let sub1 := ((sub : Int) - d.pmk.carriedDelta * (subPerNs : Nat)).toNat
  let free (n : Nat) : Int := signed 32 (d.fld pmkPg (R.PMK_ANCHOR_FREE_RATE_RATE.at n))
  let d := (d.setAnchor 0 { sub := sub, rate := free 0 }).setAnchor 1 { sub := sub1, rate := free 1 }
  let d := [0, 1].foldl (fun d n => (d.setFld pmkPg (R.PMK_ANCHOR_STAT_STATE.at n) 0).setFlag pmkPg
    (R.PMK_ANCHOR_STAT_COARSE.at n) true) d
  (List.range 6).foldl (fun d c => d.setFlag pmkPg (R.PMK_WC_CFG_EN.at c) false) (d.withPmk (fun p => { p with wcs := [] }))

/-- The always-on island takes the time to carry (R287). -/
def Dev.carry (d : Dev) : Dev :=
  if !d.isOn pmkPg then d
  else d.withPmk (fun p => { p with
    carried := (d.anchor 0).sub, carriedAt := d.now, carriedDelta := signed 64 (d.fld pmkPg R.PMK_HS_DELTA_NS) })

-- ==== working clocks (R276 to R278) ====

/-- Change a working clock. -/
def Dev.setWc (d : Dev) (c : Nat) (w : WClock) : Dev := d.withPmk (fun p => { p with wcs := p.wcs.set c w })

/-- The source of a working clock. -/
def Dev.wcSource (d : Dev) (c : Nat) : Nat := d.fld pmkPg (R.PMK_WC_CFG_SOURCE.at (c - 2))

/-- The word of a held claim entry (R23). -/
def claimWord (party inst feature : Nat) : Nat := 2 ^ 31 + party * 2 ^ 24 + inst * 2 ^ 16 + feature

/-- Set claim entry `i`. -/
def Dev.setClaim (d : Dev) (i w : Nat) : Dev := d.setWord sysPg (0x1000 + 4 * i) w

/-- Claim entry `i` is held (R23). -/
def Dev.claimHeld (d : Dev) (i : Nat) : Bool := bitAt (d.word sysPg (0x1000 + 4 * i)) 31

/-- SLEWING goes to 0, with WC_DONE where it was 1 (R277). -/
def Dev.wcSettle (d : Dev) (c : Nat) : Dev :=
  let f := R.PMK_WC_STAT_SLEWING.at (c - 2)
  (d.setFlag pmkPg f false).when (d.flag pmkPg f) (fun d => d.raise pmkPg 5)

/-- A write of PMK_WCc_CFG (R276 to R278): EN from 0 to 1 sets the clock to its source. -/
def Dev.wcWrite (d : Dev) (c v : Nat) : Dev :=
  let p := pmkPg
  let f := c - 2
  let on := d.wcOn c
  let src := bits v 30 28
  if 1 < src || 10 < bits v 27 24 || bits v 23 0 = 0 || 1000000 < bits v 23 0
      || (on && src != d.wcSource c) || (on && !bitAt v 31 && d.claimHeld (0x30 + c)) then d.refuse p
  else
    let d := d.setWord p (0x200 + 0x20 * f) v
    if !on && bitAt v 31 then
      (d.setWc c { sub := (d.anchor src).sub, rate := d.ancRate src }).wcSettle c
    else if on && !bitAt v 31 then (d.withPmk (fun x => { x with wcs := x.wcs.erase c })).wcSettle c
    else d

/-- RESTEP (R276, R278). -/
def Dev.wcRestep (d : Dev) (c v : Nat) : Dev :=
  if !bitAt v 31 then d
  else if d.claimHeld (0x30 + c) then d.refuse pmkPg
  else if d.wcOn c then d.setWc c { d.wclock c with sub := (d.anchor (d.wcSource c)).sub } else d

/-- The update of one working clock, every 1 ms (R277). -/
def Dev.wcUpdate (d : Dev) (c : Nat) : Dev :=
  if !d.wcOn c then d
  else
    let p := pmkPg
    let f := c - 2
    let src := d.wcSource c
    let w := d.wclock c
    let o : Int := (w.sub : Int) - (d.anchor src).sub
    let tau := d.fld p (R.PMK_WC_CFG_TAU_LOG2.at f)
    let corr := (-o * 256000) / ((subPerNs * 2 ^ tau : Nat) : Int)
    let d := d.setWc c { w with rate := d.ancRate src + clampPpb corr (d.fld p (R.PMK_WC_CFG_SLEW_PPB.at f)) }
    let d := d.setFld p (R.PMK_WC_OFFSET_NS.at f) (satTo 32 (o.tdiv (subPerNs : Nat)))
    let slew := d.flag p (R.PMK_WC_STAT_SLEWING.at f)
    if !slew && decide (64 * subPerNs < o.natAbs) then d.setFlag p (R.PMK_WC_STAT_SLEWING.at f) true
    else if slew && decide (o.natAbs ≤ 8 * subPerNs) then d.wcSettle c
    else d

/-- Quarter-ns fraction of a time. -/
def quarter (sub : Nat) : Nat := sub / (subPerNs / 4) % 4

/-- PMK_LATCH.GO (R279): all eight clocks at one edge. -/
def Dev.latch (d : Dev) (v : Nat) : Dev :=
  if !bitAt v 0 || !d.isOn pmkPg then d
  else
    let d := (List.range 8).foldl (fun d c => d.setFld pmkPg (R.PMK_LATCHED_NS.at c) (d.clockSub c / subPerNs)) d
    let fr := ((List.range 8).map (fun c => quarter (d.clockSub c) * 4 ^ c)).sum
    (d.setFld pmkPg R.PMK_LATCHED_FRAC_FRAC fr).withPmk (fun p => { p with latching := true })

/-- The latch completes. -/
def Dev.latchDone (d : Dev) : Dev :=
  if d.pmk.latching then
    ((d.withPmk (fun p => { p with latching := false })).incWrap pmkPg R.PMK_LATCH_SEQ_SEQ).raise pmkPg 7
  else d

-- ==== time advances ====

/-- One sub-cycle of 250 ps: device time and, while the core is ON and clocked, every clock (R271, R274,
R277, R322). -/
def Dev.clocks (d : Dev) : Dev :=
  let d := { d with now := d.now + 1 }
  if !d.isOn pmkPg || (!d.mainRun && (d.isOff || d.toSlumber || !d.start.released)) then d
  else
    let go (sub : Nat) (rate : Int) : Nat := ((sub : Int) + (subPerNs / 4 : Nat) + rate).toNat
    let free (n : Nat) (a : Anchor) : Anchor := if d.follows n then a else { a with sub := go a.sub a.rate }
    let a0 := free 0 (d.anchor 0)
    let a1 := free 1 (d.anchor 1)
    let a0 := if d.follows 0 then { a0 with sub := ((a1.sub : Int) + a0.delta).toNat } else a0
    let a1 := if d.follows 1 then { a1 with sub := ((a0.sub : Int) + a1.delta).toNat } else a1
    let d := (d.setAnchor 0 a0).setAnchor 1 a1
    d.withPmk (fun p => { p with wcs := p.wcs.map (fun e => (e.1, { e.2 with sub := go e.2.sub e.2.rate })) })

-- ==== capture inputs (R284, R285) ====

/-- The page of capture input `k`. -/
def capPg (k : Nat) : Page := ⟨.cap, k⟩

/-- An accepted edge on CAPIN k. -/
def Dev.capture (d : Dev) (k : Nat) (rising : Bool) : Dev :=
  let p := capPg k
  let want := d.fld p R.PMK_CAP_CFG_EDGE
  let last := d.pmk.caps.get? k
  if !d.isOn p || !bitAt want (if rising then 0 else 1) then d
  else if (last.map (fun t => decide (d.now < t + 80))).getD false then d.bump p 0x100 1
  else
    let wc := d.fld p R.PMK_CAP_CFG_WC
    let w := if wc = 0 then 0 else d.clockSub wc
    let s (n : Nat) : Nat := (d.anchor n).sub
    let coarse := d.flag pmkPg (R.PMK_ANCHOR_STAT_COARSE.at 0) || d.flag pmkPg (R.PMK_ANCHOR_STAT_COARSE.at 1)
    let w0 := 2 ^ 28 + k * 2 ^ 24 + b2n rising * 2 ^ 23 + d.ancState 0 * 2 ^ 20 + d.ancState 1 * 2 ^ 17
      + b2n coarse * 2 ^ 16 + quarter (s 0) * 64 + quarter (s 1) * 16 + quarter w * 4
    let two (v : Nat) : List Nat := [v / subPerNs % 2 ^ 32, v / subPerNs / 2 ^ 32 % 2 ^ 32]
    let d := d.withPmk (fun x => { x with caps := x.caps.set k d.now })
    let d := d.popPush (2 + d.fld p R.PMK_CAP_CFG_REGION) (w0 :: two (s 0) ++ two (s 1) ++ two w ++ [wc])
    (d.bump p 0x100 0).raise p 0

end Sys2Proof.Machine
end

