-- ==== Sys2Proof/Machine/GptpOps.lean ====
section
/-! DEFINITION. The gPTP engine on pair 1 (R266 to R270): the messages of IEEE 802.1AS-2020 it reads and
sends. The layout of the messages is that standard's. PRESUMED: assumption 11. -/

namespace Sys2Proof.Machine

/-- The destination address of gPTP messages (R267). -/
def gptpDest : List Byte := beBytes 6 0x0180C200000E

/-- A gPTP frame, tagged or not (R267). -/
def isGptp (data : List Byte) : Bool :=
  data.take 6 == gptpDest && beNat (slice data ({ id := 0, inPort := 0, data := data : Frm }).tags.2 2) == 0x88F7

/-- The message of a gPTP frame. -/
def gptpBody (data : List Byte) : List Byte := data.drop (({ id := 0, inPort := 0, data := data : Frm }).tags.2 + 2)

/-- This unit's clock identity: the EUI-64 form of the base of its MAC addresses. -/
def Dev.clockId (d : Dev) : Nat :=
  let m := d.portMac 0
  m / 2 ^ 24 * 2 ^ 40 + 0xFFFE * 2 ^ 24 + m % 2 ^ 24

/-- The port identity of a port. -/
def Dev.portId (d : Dev) (p : Nat) : Nat := d.clockId * 2 ^ 16 + p + 1

/-- The header of a message. -/
def Dev.gptpHead (d : Dev) (p sdo type len domain flags : Nat) (corr : Int) (seq log : Nat) : List Byte :=
  beBytes 1 (sdo * 16 + type) ++ beBytes 1 0x12 ++ beBytes 2 len ++ beBytes 1 domain ++ beBytes 1 0
    ++ beBytes 2 flags ++ beBytes 8 (wrapTo 64 corr) ++ beBytes 4 0 ++ beBytes 10 (d.portId p) ++ beBytes 2 seq
    ++ beBytes 1 0 ++ beBytes 1 log

/-- A timestamp field: seconds and nanoseconds. -/
def stampField (ns : Nat) : List Byte := beBytes 6 (ns / 1000000000) ++ beBytes 4 (ns % 1000000000)

/-- A timestamp field read. -/
def stampRead (bs : List Byte) : Nat := beNat (slice bs 0 6) * 1000000000 + beNat (slice bs 6 4)

/-- cumulativeScaledRateOffset of a rate ratio in 1/256 ppb. -/
def scaledRate (rr : Int) : Nat := wrapTo 32 (rr * 2 ^ 41 / 256000000000)

/-- A Follow_Up information TLV. -/
def followTlv (rr : Int) (rest : List Byte) : List Byte :=
  beBytes 2 3 ++ beBytes 2 28 ++ beBytes 3 0x0080C2 ++ beBytes 3 1 ++ beBytes 4 (scaledRate rr)
    ++ (rest ++ beBytes 18 0).take 18

-- ==== sending (R269) ====

/-- Place a message of the Postmark in its egress queue (R269), counted in message counter `k`: admitted under R206
without the ingress test; `aw` is what its egress stamp is awaited for. None is sent in safe state (R473). -/
def Dev.gptpSend (d : Dev) (p : Nat) (msg : List Byte) (aw : Option Await) (k : Option Nat) : Dev :=
  if d.safe then d
  else
  let d := match k with
    | some i => d.bump pmkPg 0x2000 i
    | none => d
  let data := gptpDest ++ beBytes 6 (d.portMac p) ++ beBytes 2 0x88F7 ++ msg
  let data := data ++ List.replicate (60 - data.length) 0
  let (id, d) := d.newFrame
  let f : Frm := { id := id, inPort := 63, data := data, storedAt := d.now }
  if d.cellFree = 0 then d
  else
    let d := d.takeCells id 63 1
    let (ok, d) := d.admitCopy { frm := f, cells := 1 } p (d.fld pmkPg (R.PMK_PORT_CFG_QUEUE.at p)) true
    if !ok then d.freeCells id
    else match aw with
      | some a => d.withPmk (fun x => { x with awaits := x.awaits.set id a })
      | none => d

/-- The domain of an anchor. -/
def Dev.domainOf (d : Dev) (n : Nat) : Nat := d.fld pmkPg (R.PMK_ANCHOR_CFG_DOMAIN.at n)

/-- The engine is on and pair 1's duties are carried. -/
def Dev.gptpOn (d : Dev) : Bool := d.isOn pmkPg && d.flag pmkPg R.PMK_GPTP_CFG_EN && d.duty 1

/-- logMessageInterval of an anchor's Sync. -/
def Dev.syncField (d : Dev) (n : Nat) : Nat := wrapTo 8 (d.syncLog n)

/-- Send a two-step Sync of anchor `n` on a port; `mk` gives what its stamp is awaited for. -/
def Dev.syncOut (d : Dev) (n p : Nat) (mk : Nat → Await) : Dev :=
  let k := 64 * n + p
  let seq := d.pmk.seqs.getD k 0
  let d := d.withPmk (fun x => { x with seqs := x.seqs.set k ((seq + 1) % 65536) })
  let head := d.gptpHead p 1 0 44 (d.domainOf n) 0x0208 0 seq (d.syncField n)
  d.gptpSend p (head ++ beBytes 10 0) (some (mk seq)) (some 1)

/-- The MASTER ports of an anchor's domain. -/
def Dev.masters (d : Dev) (n : Nat) : List Nat := (List.range 40).filter (fun p => d.role n p == 1)

/-- A grandmaster anchor sends its Sync (R269). -/
def Dev.syncTx (d : Dev) (n : Nat) : Dev :=
  if !d.gptpOn || (List.range 40).any (fun p => d.role n p == 2) then d
  else (d.masters n).foldl (fun d p => d.syncOut n p (.grand n)) d

/-- What a port's link delay measurement keeps. -/
def Dev.link (d : Dev) (p : Nat) : LinkDelay := d.pmk.links.getD p {}

/-- Change it. -/
def Dev.setLink (d : Dev) (p : Nat) (l : LinkDelay) : Dev := d.withPmk (fun x => { x with links := x.links.set p l })

/-- A port takes part in gPTP: its role in either domain is not DISABLED. -/
def Dev.gptpPort (d : Dev) (p : Nat) : Bool := d.role 0 p != 0 || d.role 1 p != 0

/-- Pdelay_Req on every port that measures its delay (R269). -/
def Dev.pdelayTx (d : Dev) : Dev :=
  if !d.gptpOn then d
  else ((List.range 40).filter (fun p => !d.flag pmkPg (R.PMK_PORT_CFG_DELAY_STATIC.at p))).foldl
    (fun d p =>
      let l := d.link p
      let seq := (l.seq + 1) % 65536
      let d := d.setLink p { l with seq := seq, t1 := none, resp := none }
      let log := wrapTo 8 (signed 4 (d.fld pmkPg R.PMK_GPTP_CFG_PDELAY))
      d.gptpSend p (d.gptpHead p 2 2 54 0 0x0008 0 seq log ++ beBytes 20 0) (some (.pdelayReq seq)) (some 5)) d

-- ==== link delay (R269) ====

/-- Mean link delay of a port in quarter-ns. -/
def Dev.meanDelay (d : Dev) (p : Nat) : Nat :=
  if d.flag pmkPg (R.PMK_PORT_CFG_DELAY_STATIC.at p) then 4 * d.fld pmkPg (R.PMK_PORT_DELAY_STATIC_DELAY.at p)
  else (d.link p).mean

/-- AS_CAPABLE as it reads (R269). -/
def Dev.asCapable (d : Dev) (p : Nat) : Bool :=
  d.flag pmkPg (R.PMK_PORT_CFG_DELAY_STATIC.at p)
    || ((d.link p).measured && decide ((d.link p).mean ≤ 4 * d.fld pmkPg (R.PMK_PORT_DELAY_DELAY_THRESH.at p)))

/-- The neighbour rate ratio − 1 of a port, 1/256 ppb. -/
def Dev.nrr (d : Dev) (p : Nat) : Int := signed 32 (d.fld pmkPg (R.PMK_PORT_NRR_NRR.at p))

/-- An interval of sub-cycles in 2^-16 ns at a rate ratio in 1/256 ppb. -/
def scaleTicks (t rr : Int) : Int := t * 16384 + t * 16384 * rr / 256000000000

/-- A complete exchange: t3 in 2^-16 ns; the neighbour rate ratio comes from two exchanges in a row. -/
def Dev.delayTake (d : Dev) (p : Nat) (t3 : Int) : Dev :=
  let l := d.link p
  match l.t1, l.resp with
  | some t1, some (t2, t4) =>
    let d := match l.last with
      | some (p3, p4) =>
        if p4 < t4 then
          d.setFld pmkPg (R.PMK_PORT_NRR_NRR.at p)
            (satTo 32 (((t3 - p3) - (t4 - p4) * 16384) * 256000000000 / ((t4 - p4) * 16384)))
        else d
      | none => d
    let mean := (scaleTicks (t4 - t1) (d.nrr p) - (t3 - t2)) / 2 / 16384
    let d := d.setFld pmkPg (R.PMK_PORT_STAT_MEAN_DELAY.at p) (min mean.toNat 0xFFFF)
    d.setLink p { l with t1 := none, resp := none, last := some (t3, t4), measured := true, mean := mean.toNat }
  | _, _ => d

-- ==== receiving (R267, R270) ====

/-- A frame diverted at an ingress MAC joins the queue of 64 entries (R270); an injected error of the
queue takes it (R289). -/
def Dev.gptpDivert (d : Dev) (m : GptpMsg) : Dev :=
  let lose (d : Dev) : Dev := (d.bump pmkPg 0x2000 12).raise pmkPg 6
  if d.isArmed pmkPg 0 then
    ((lose (d.disarm pmkPg 0)).injected).fault { cls := 0, page := pmkPg, checker := 0, injected := true }
  else if 64 ≤ d.pmk.rx.length then lose d
  else d.withPmk (fun x => { x with rx := x.rx ++ [m] })

/-- Hand the servo its sample and relay the Sync on the MASTER ports (R269, R272). `origin` in ns, `corr`
in 2^-16 ns. -/
def Dev.syncTake (d : Dev) (n : Nat) (m : GptpMsg) (origin : Nat) (corr : Int) (tlv : List Byte) : Dev :=
  let rr := signed 32 (beNat (slice tlv 10 4)) * 256000000000 / 2 ^ 41 + d.nrr m.port
  let corr := corr + 16384 * d.meanDelay m.port
  let stamp := (if n = 0 then m.stamp0 else m.stamp1) * 16384
  let d := d.sample n (stamp - ((origin * 65536 : Nat) + corr)) rr
  (d.masters n).foldl (fun d p => d.syncOut n p (fun seq => .relay n seq origin corr m.at0 rr (slice tlv 14 18))) d

/-- A Sync on the SLAVE port of a domain: one-step, or kept for its Follow_Up. -/
def Dev.syncRx (d : Dev) (n : Nat) (m : GptpMsg) (b : List Byte) : Dev :=
  let corr := signed 64 (beNat (slice b 8 8))
  let d := d.bump pmkPg 0x2000 0
  if bitAt (beNat (slice b 6 2)) 9 then
    d.withPmk (fun x => { x with syncs := x.syncs.set n ⟨m, beNat (slice b 30 2), beNat (slice b 20 10), corr⟩ })
  else d.syncTake n m (stampRead (slice b 34 10)) corr (b.drop 44)

/-- A Follow_Up on the SLAVE port of a domain. -/
def Dev.followRx (d : Dev) (n : Nat) (b : List Byte) : Dev :=
  let d := d.bump pmkPg 0x2000 2
  match d.pmk.syncs.get? n with
  | none => d
  | some x =>
    if x.seq ≠ beNat (slice b 30 2) ∨ x.src ≠ beNat (slice b 20 10) then d
    else
      let d := d.withPmk (fun y => { y with syncs := y.syncs.erase n })
      d.syncTake n x.msg (stampRead (slice b 34 10)) (x.corr + signed 64 (beNat (slice b 8 8))) (b.drop 44)

/-- A link-delay message on a port. -/
def Dev.pdelayRx (d : Dev) (m : GptpMsg) (b : List Byte) : Dev :=
  let type := beNat (slice b 0 1) % 16
  let seq := beNat (slice b 30 2)
  let corr := signed 64 (beNat (slice b 8 8))
  let l := d.link m.port
  let mine := seq == l.seq && beNat (slice b 44 10) == d.portId m.port
  let stamp : Int := (stampRead (slice b 34 10) * 65536 : Nat)
  if type = 2 then
    let d := d.bump pmkPg 0x2000 4
    let sdo := beNat (slice b 0 1) / 16
    let dom := beNat (slice b 4 1)
    let t2 := m.at0 * 16384
    let head := d.gptpHead m.port sdo 3 54 dom 0x0208 (t2 % 65536) seq 0x7F
    d.gptpSend m.port (head ++ stampField (t2 / 65536).toNat ++ slice b 20 10)
      (some (.pdelayResp seq (beNat (slice b 20 10)) dom sdo)) (some 7)
  else if type = 3 then
    (d.bump pmkPg 0x2000 6).when mine (fun d => d.setLink m.port { l with resp := some (stamp + corr, m.at0) })
  else if mine then d.delayTake m.port (stamp + corr) else d

-- ==== egress stamps (R264, R265) ====

/-- Device time of the stamp point of a frame that began at sub-cycle `at0` on a port, with TX_LAT. -/
def Dev.txPoint (d : Dev) (p at0 : Nat) : Int := at0 + signed 16 (d.fld pmkPg (R.PMK_PORT_LAT_TX_LAT.at p))

/-- Time of an anchor in quarter-ns at a device time. -/
def Dev.stampAt (d : Dev) (n : Nat) (at0 : Int) : Int :=
  (((d.anchor n).sub : Int) - ((d.now : Int) - at0) * ((subPerNs / 4 : Nat) + d.ancRate n)) / (subPerNs / 4 : Nat)

/-- The Follow_Up of a Sync of anchor `n`. -/
def Dev.followOut (d : Dev) (n p seq origin : Nat) (corr rr : Int) (rest : List Byte) : Dev :=
  let head := d.gptpHead p 1 8 76 (d.domainOf n) 0x0008 corr seq (d.syncField n)
  d.gptpSend p (head ++ stampField origin ++ followTlv rr rest) none (some 3)

/-- The engine takes the egress stamp of a message it sent. -/
def Dev.gptpTake (d : Dev) (p : Nat) (x : TxSof) (id : Nat) : Dev :=
  match d.pmk.awaits.get? id with
  | none => d
  | some a =>
    let d := d.withPmk (fun x => { x with awaits := x.awaits.erase id })
    let t := x.at0
    match a with
    | .grand n seq =>
      let q := (if n = 0 then x.stamp0 else x.stamp1).toNat
      d.followOut n p seq (q / 4) (q % 4 * 16384 : Nat) (d.ancRate n) []
    | .relay n seq origin corr at1 rr rest =>
      d.followOut n p seq origin (corr + scaleTicks (t - at1) rr) rr rest
    | .pdelayReq seq => if (d.link p).seq = seq then d.setLink p { d.link p with t1 := some t } else d
    | .pdelayResp seq who dom sdo =>
      let t3 := t * 16384
      d.gptpSend p (d.gptpHead p sdo 0xA 54 dom 0x0008 (t3 % 65536) seq 0x7F ++ stampField (t3 / 65536).toNat
        ++ beBytes 10 who) none none

/-- A message the Postmark sent has been stamped at egress: the stamp waits while no message is handled (R270). -/
def Dev.gptpStamped (d : Dev) (p : Nat) (x : TxSof) (id : Nat) : Dev :=
  if (d.pmk.awaits.get? id).isNone then d
  else if d.gptpOn then d.gptpTake p x id
  else d.withPmk (fun y => { y with stamps := y.stamps ++ [(p, id, x)] })

/-- The stamps that have waited are taken. -/
def Dev.gptpStamps (d : Dev) : Dev :=
  d.pmk.stamps.foldl (fun d e => d.gptpTake e.1 e.2.2 e.2.1) (d.withPmk (fun y => { y with stamps := [] }))

/-- GPTP_RX: the engine handles the egress stamps and the oldest message that wait. -/
def Dev.gptpRx (d : Dev) : Dev :=
  if !d.gptpOn then d
  else
    let d := d.gptpStamps
    match d.pmk.rx with
    | [] => d
    | m :: rest =>
      let d := d.withPmk (fun x => { x with rx := rest })
      let b := gptpBody m.data
      let type := beNat (slice b 0 1) % 16
      let drop (d : Dev) : Dev := d.bump pmkPg 0x2000 11
      if type = 2 || type = 3 || type = 0xA then
        if d.gptpPort m.port then d.pdelayRx m b else drop d
      else match [0, 1].find? (fun n =>
          d.flag pmkPg (R.PMK_ANCHOR_CFG_TRACK.at n) && d.domainOf n == beNat (slice b 4 1)) with
        | none => drop d
        | some n =>
          if d.role n m.port = 0 then drop d
          else if type = 0 then if d.role n m.port = 2 then d.syncRx n m b else d
          else if type = 8 then if d.role n m.port = 2 then d.followRx n b else d
          else drop d

end Sys2Proof.Machine
end

