-- ==== Sys2Proof/Machine/EdgeRx.lean ====
section
/-! DEFINITION. Frames that enter the hall from ports 40 to 42, and the paths of a message received on
an edge bus: the route table, the direct path and the bridge (R300 to R306). -/

namespace Sys2Proof.Machine

-- ==== frames from ports 40 to 42 (R201, R202) ====

/-- A whole frame enters the hall at an internal port: it takes cells, or is discarded where they are
missing (R202), and waits for "Stored". -/
def Dev.inject (d : Dev) (inPort : Nat) (data : List Byte) (stamp0 stamp1 : Nat) : Nat × Dev :=
  let (id, d) := d.newFrame
  let f : Frm := { id := id, inPort := inPort, data := data, stamp0 := stamp0, stamp1 := stamp1,
                   deep := inPort == 42 && d.flag (prtPg 0) R.PRT_INTERNAL_CLASS_PORT42_DEEP }
  let n := cellsFor f.len
  if d.cellFree < n then (id, (d.shlCnt 0).raise shlPg 2)
  else (id, (d.takeCells id inPort n).withHall (fun h => { h with stored := h.stored.set id f }))

/-- Both anchor stamps now, in quarter-ns. -/
def Dev.stampNow (d : Dev) (n : Nat) : Nat := (d.stampAt n d.now).toNat

-- ==== the route table (R300, R301) ====

/-- A word of a route entry. -/
def Dev.rtWord (d : Dev) (i w : Nat) : Nat := d.routes.getD (4 * i + w) 0

/-- Entries with a word that is not 0, in index order. -/
def Dev.rtIdx (d : Dev) : List Nat := (d.routes.map (·.1 / 4)).eraseDups

/-- An entry matches a message from a bus (R301). -/
def Dev.rtHits (d : Dev) (bus : Nat) (m : CanMsg) (i : Nat) : Bool :=
  let w0 := d.rtWord i 0
  let w1 := d.rtWord i 1
  let mask := bits (d.rtWord i 2) 28 0
  let ext := m.ext && decide (m.fmt < 2)
  bitAt w0 31 && bits w0 27 23 == bus && (m.id &&& mask) == (bits w1 28 0 &&& mask)
    && (bits w1 31 30 == 2 || bits w1 31 30 == b2n ext)

/-- The first matching entry. -/
def Dev.route (d : Dev) (bus : Nat) (m : CanMsg) : Option Nat := d.rtIdx.find? (d.rtHits bus m)

/-- A message with word 0 of the entry that matches it now: a later table write does not touch it (R301). -/
def Dev.routed (d : Dev) (x : RxMsg) : RxMsg := { x with entry := (d.route x.bus x.msg).map (fun i => d.rtWord i 0) }

/-- A write of a route entry is refused (R300). -/
def rtBad (ws : List Nat) : Bool :=
  let w0 := ws.getD 0 0
  bitAt w0 31 && ((!bitAt w0 30 && !bitAt w0 29) || bits w0 15 0 == 0xFFFF || bits (ws.getD 1 0) 31 30 == 3
    || (bitAt w0 29 && bits w0 22 18 == bits w0 27 23))

/-- The bits a word of a route entry has. -/
def rtMask (w : Nat) : Nat :=
  if w = 0 then 0xEFFCFFFF else if w = 1 then 0xDFFFFFFF else if w = 2 then 0x1FFFFFFF else 0

/-- Put a word into the route table. -/
def Dev.setRt (d : Dev) (i w v : Nat) : Dev :=
  let v := v &&& rtMask w
  { d with routes := if v = 0 then d.routes.erase (4 * i + w) else d.routes.set (4 * i + w) v }

-- ==== the bridge (R304, R305) ====

/-- Count in counter `k` of the CAN controller with this bus number; a LIN bus has no such counter. -/
def Dev.busCnt (d : Dev) (bus k : Nat) : Dev := d.when (bus < 24) (fun d => d.cnt (canPg bus) k)

/-- Bytes that fill up to a multiple of 4. -/
def padOf (n : Nat) : Nat := (4 - n % 4) % 4

/-- The two first bytes of an ACF message: type and length in quadlets. -/
def acfStart (type bytes : Nat) : List Byte := beBytes 2 (type * 512 + bytes / 4)

/-- The ACF message of a received message, with its time stamp in ns. -/
def Dev.acfOf (d : Dev) (bus : Nat) (m : CanMsg) (ns : Nat) : List Byte :=
  let n := m.data.length
  let pad := padOf n
  let tail := m.data ++ List.replicate pad 0
  if m.fmt = 3 then
    acfStart 3 (12 + n + pad) ++ beBytes 1 (pad * 64 + 32 + (bus - 24)) ++ beBytes 1 m.id ++ beBytes 8 ns ++ tail
  else if m.fmt = 2 then
    acfStart (d.fld (canPg 0) R.EDG_BRIDGE_CFG_XL_TYPE) (20 + n + pad)
      ++ beBytes 2 (pad * 2 ^ 14 + 2 ^ 13 + b2n m.sec * 2 ^ 12 + b2n m.rrs * 2 ^ 11 + bus) ++ beBytes 8 ns
      ++ beBytes 4 (m.sdt * 2 ^ 24 + m.vcid * 2 ^ 16 + m.id) ++ beBytes 4 m.af ++ tail
  else
    let fl := b2n m.rtr * 16 + b2n m.ext * 8 + b2n m.brs * 4 + b2n (m.fmt == 1) * 2 + b2n m.esi
    if d.flag (canPg 0) R.EDG_BRIDGE_CFG_BRIEF then
      acfStart 2 (8 + n + pad) ++ beBytes 1 (pad * 64 + fl) ++ beBytes 1 bus ++ beBytes 4 m.id ++ tail
    else
      acfStart 1 (16 + n + pad) ++ beBytes 1 (pad * 64 + 32 + fl) ++ beBytes 1 bus ++ beBytes 8 ns ++ beBytes 4 m.id
        ++ tail

/-- The sequence_num of the next bridged frame of a bus, taken. -/
def Dev.bridgeSeq (d : Dev) (bus : Nat) : Nat × Dev :=
  if bus < 24 then
    let c := d.can bus
    (c.seqNum, d.setCan bus { c with seqNum := (c.seqNum + 1) % 256 })
  else
    let l := d.lin (bus - 24)
    (l.seqNum, d.setLin (bus - 24) { l with seqNum := (l.seqNum + 1) % 256 })

/-- A message is bridged with a unique identifier (R304): its frame enters port 42. -/
def Dev.bridge (d : Dev) (x : RxMsg) (uid : Nat) : Dev :=
  if x.msg.fmt = 2 && 2024 < x.msg.data.length then d.busCnt x.bus 18
  else
    let b := canPg 0
    let s := if d.flag b R.EDG_BRIDGE_CFG_TS_CLOCK then x.stamp1 else x.stamp0
    let acf := d.acfOf x.bus x.msg (s / 4)
    let (seq, d) := d.bridgeSeq x.bus
    let smac := beBytes 6 (d.portMac 42)
    let data := beBytes 6 (d.fld b R.EDG_BRIDGE_DMAC_DMAC) ++ smac ++ beBytes 2 0x22F0
      ++ beBytes 1 0x82 ++ beBytes 2 (0x8000 + acf.length) ++ beBytes 1 seq ++ smac ++ beBytes 2 uid ++ acf
    let data := data ++ List.replicate (64 - data.length) 0
    ((d.inject 42 data x.stamp0 x.stamp1).2).busCnt x.bus 17

-- ==== the direct path (R303) ====

/-- Discard a message whose lanes differ (R303): the comparator that reported is named. R313 gives a LIN bus no
DIRECT_MISMATCH: a mismatch of its messages is counted nowhere. DESIGN CHOICE: assumption 132. -/
def Dev.directBad (d : Dev) (bus checker : Nat) : Dev :=
  ((d.busCnt bus 15).when (bus < 24) (fun d => d.raise (canPg bus) 4)).fault
    { cls := 2, page := canPg 0, checker := checker }

/-- An injection takes a message (R143, R314). -/
def Dev.edgeInject (d : Dev) (p : Page) (c cls : Nat) : Dev :=
  ((d.disarm p c).injected).fault { cls := cls, page := p, checker := c, injected := true }

/-- Judge a message for destination bus `dst` and deliver it; `.one` says that the lanes' verdicts differ. -/
def Dev.direct (d : Dev) (bus dst : Nat) (m : CanMsg) (u : Upset) : Dev :=
  match u with
  | .one c => d.directBad bus (2 + c.val)
  | _ =>
    match [2, 3].find? (d.isArmed (canPg 0)) with
    | some c => d.edgeInject (canPg 0) c 2
    | none =>
      if !d.isOn fwlPg then d.busCnt bus 16
      else
        let v : BusView := { src := bus, zone := d.busZone dst, fmt := m.fmt, ext := m.ext, id := m.id,
                             bytes := m.data, len := m.data.length }
        let (f, used, d') := d.canVerdict v true
        match ([0, 1] ++ used).find? (d.isArmed fwlPg) with
        | some c => d.edgeInject fwlPg c (fwlCls c)
        | none => let d := d'; if f.verdict = 1 || f.verdict = 2 then d.edgeDeliver dst m else d.busCnt bus 16

/-- Send a received message on the ways its route gives (R301 to R304). Its checks find an uncorrectable copy of the
entry (`.table`), copies that differ (`.lanes`: the message goes nowhere), or verdicts that differ (`.one`). -/
def Dev.routeMsg (d : Dev) (x : RxMsg) : Dev :=
  match x.upset with
  | .table c => (d.busCnt x.bus 15).fault { cls := 0, page := canPg 0, checker := c % 2 }
  | .lanes => d.directBad x.bus 2
  | u =>
    match [0, 1].find? (d.isArmed (canPg 0)) with
    | some c => d.edgeInject (canPg 0) c 0
    | none =>
      match x.entry with
      | none =>
        if x.bus < 24 && d.flag (canPg x.bus) R.EDG_CAN_CFG_NOROUTE_BRIDGE then d.bridge x 0xFFFF
        else d.busCnt x.bus 14
      | some w0 =>
        let d := d.when (bitAt w0 29) (fun d => d.direct x.bus (bits w0 22 18) x.msg u)
        d.when (bitAt w0 30) (fun d => d.bridge x (bits w0 15 0))

/-- Where messages of a bus wait for their lookup while an edition pause runs (R154, R303). -/
def Dev.rxWaiting (d : Dev) (bus : Nat) : List RxMsg :=
  if bus < 24 then (d.can bus).rx else (d.lin (bus - 24)).rx

/-- Change it. -/
def Dev.setRxWaiting (d : Dev) (bus : Nat) (l : List RxMsg) : Dev :=
  if bus < 24 then d.setCan bus { d.can bus with rx := l } else d.setLin (bus - 24) { d.lin (bus - 24) with rx := l }

/-- A message is valid on its source bus: looked up, or kept for the end of the pause. R313 gives a LIN bus no
RX_OVERRUN: one that finds its 32 places taken is discarded uncounted. DESIGN CHOICE: assumption 132. -/
def Dev.edgeRx (d : Dev) (x : RxMsg) : Dev :=
  if !d.bur.paused then (d.routeMsg (d.routed x))
  else if (d.rxWaiting x.bus).length < 32 then d.setRxWaiting x.bus (d.rxWaiting x.bus ++ [d.routed x])
  else (d.busCnt x.bus 3).when (x.bus < 24) (fun d => d.raise (canPg x.bus) 5)

/-- The pause has ended: the waiting messages are looked up, in order for each bus. -/
def Dev.edgeResume (d : Dev) : Dev :=
  (List.range 32).foldl (fun d b =>
    let l := d.rxWaiting b
    l.foldl Dev.routeMsg (d.setRxWaiting b [])) d

end Sys2Proof.Machine
end

