-- ==== Sys2Proof/Machine/HallRx.lean ====
section
/-! DEFINITION. A frame from the ingress MAC to its egress queues: reception (R92, R201, R202, R265),
"Stored" (R112, R204), and the hand-over of its result (R111, R206 to R208, R230). -/

namespace Sys2Proof.Machine

-- ==== reception (R90, R92, R264, R265) ====

/-- The MAC of a port receives frames (R92). -/
def Dev.macReceives (d : Dev) (p : Nat) : Bool :=
  (d.state (prtPg p) == 2 || d.state (prtPg p) == 3) && d.flag (prtPg p) R.PRT_LINK_STAT_PCS_LOCK

/-- The stamp point of a delimiter that passes now, as a device time: the pin time less RX_LAT (R264). -/
def Dev.rxPoint (d : Dev) (p : Nat) : Int := d.now - signed 16 (d.fld pmkPg (R.PMK_PORT_LAT_RX_LAT.at p))

/-- The ingress stamp of a port on an anchor now, in quarter-ns (R264). -/
def Dev.rxStamp (d : Dev) (p n : Nat) : Nat := (d.stampAt n (d.rxPoint p)).toNat

/-- A start-of-frame delimiter passes the MAC. -/
def Dev.rxSof (d : Dev) (p : Nat) : Dev :=
  if !d.macReceives p then d
  else
    let r : RxCur :=
      { stamp0 := d.rxStamp p 0
        stamp1 := d.rxStamp p 1
        at0 := d.rxPoint p
        deep := d.flag (prtPg p) R.PRT_CTRL_CLASS_MODE
        maxLen := d.fld (prtPg p) R.PRT_FRAME_MAX_LEN
        stopped := d.state (prtPg p) == 3 }
    d.setPort p { d.port p with rx := some r }

/-- The counter of the first check of R92 that a frame fails. -/
def rxFails (e : RxEnd) (maxLen : Nat) : Option Nat :=
  let n := e.data.length + 4
  let op := beNat (slice e.data 14 2)
  if n < 64 then some 3 else if maxLen < n then some 4 else if !e.fcsGood then some 2
  else if e.codeErr then some 5
  else if etherType e.data = 0x8808 && (op = 1 || op = 0x0101) then some 6 else none

/-- What the code groups and fragments of a frame count (R101, R107). -/
def Dev.rxSymbols (d : Dev) (p : Nat) (e : RxEnd) : Dev :=
  let d := d.when (d.fld (prtPg p) R.PRT_MODE_FEC != 0) (fun d =>
    ((d.prtCnt p 15 e.fecCorrected).prtCnt p 16 e.fecUncorrected).when (e.fecUncorrected != 0) (fun d => d.raise (prtPg p) 9))
  if 24 ≤ p || !d.flag (prtPg p) R.PRT_MM_EN then d
  else
    let d := (d.prtCnt p 18 e.fragments).prtCnt p 21 e.smdErrs
    if e.assemblyErr then d.prtCnt p 20 else d.when (e.fragments != 0) (fun d => d.prtCnt p 19)

/-- A good frame of a port takes its cells and waits for "Stored"; where the free list does not hold
them it is discarded (R202). -/
def Dev.rxTake (d : Dev) (p : Nat) (r : RxCur) (data : List Byte) : Dev :=
  let (id, d) := d.newFrame
  let f : Frm := { id := id, inPort := p, data := data, fcs := true, stamp0 := r.stamp0, stamp1 := r.stamp1, deep := r.deep }
  let n := cellsFor f.len
  if d.cellFree < n then (d.shlCnt 0).raise shlPg 2
  else (d.takeCells id p n).withHall (fun h => { h with stored := h.stored.set id f })

/-- A frame ends at the MAC (R92, R95, R267, R464). -/
def Dev.rxEnd (d : Dev) (p : Nat) (e : RxEnd) : Dev :=
  match (d.port p).rx with
  | none => d
  | some r =>
    let d := d.setPort p { d.port p with rx := none }
    if !d.macReceives p then d
    else
      let d := d.rxSymbols p e
      if r.stopped then d.prtCnt p 7
      else if e.assemblyErr then d
      else match rxFails e r.maxLen with
        | some k => d.prtCnt p k
        | none =>
          match (if p < 24 then d.macsecRx p e.data else (some e.data, d)) with
          | (none, d) => d
          | (some data, d) =>
            if d.flag pmkPg R.PMK_GPTP_CFG_EN && isGptp data then
              (d.prtCnt p 0).gptpDivert { port := p, data := data, stamp0 := r.stamp0, stamp1 := r.stamp1,
                                          at0 := r.at0 }
            else d.rxTake p r data

-- ==== "Stored" (R112, R113, R204, R472) ====

/-- The pipeline a header goes to (R110). -/
def Dev.pipeFor (d : Dev) : Nat :=
  let n (k : Nat) : Nat := (d.bur.flights.filter (fun f => f.pipe == k && f.phase == 0)).length
  if n 1 < n 0 then 1 else 0

/-- The mirror session of an ingress port (R216). -/
def Dev.rxMirrorOf (d : Dev) (p : Nat) : Option Nat :=
  if d.flag shlPg (R.SHL_PORT_MIRROR_RX_EN.at p) then some (d.fld shlPg (R.SHL_PORT_MIRROR_RX_SESSION.at p)) else none

/-- A frame is stored: its header copy goes to the Burin. A frame that meets a Burin that is not ON is discarded, and
mirrored as every stored frame of its port is (R113, R216). -/
def Dev.frameStored (d : Dev) (id : Nat) : Dev :=
  match d.hall.stored.get? id with
  | none => d
  | some f =>
    if d.stalled (portIsland f.inPort) 0 || d.stalled 0 1 then d
    else
    let d := d.withHall (fun h => { h with stored := h.stored.erase id })
    if f.inPort < 40 && d.isoPort f.inPort then (d.freeCells id).prtCnt f.inPort 7
    else
      let d := (d.prtCnt f.inPort 0).prtCnt f.inPort 1 f.len
      let f := { f with storedAt := d.now, rxMirror := d.rxMirrorOf f.inPort, mirrors := d.mirrorsNow }
      if !d.isOn shlPg then (d.freeCells id).shlCnt 1
      else if !d.isOn burPg then (d.bump burPg 0x3000 21).admitAll f f.rxMirror.toList []
      else
        d.withBur (fun b => { b with
          flights := b.flights ++ [{ frm := f, pipe := d.pipeFor, at0 := d.now, portCfg := d.burPortCfg f.inPort }] })

-- ==== the result (R111, R206 to R208, R230) ====

/-- Ports of the multicast group of a result, the ingress port left out (R122). -/
def Res.groupPorts (r : Res) (inPort : Nat) : List Nat := (onesOf r.ports 41).filter (· != inPort)

/-- The copies a metered frame asks for: port, queue, copy. -/
def Dev.copiesOf (d : Dev) (f : Frm) (m : Metered) : List (Nat × Nat × Copy) × Dev :=
  let r := f.res
  let c : Copy := { frm := f, cells := cellsFor f.len, ats := m.ats, colour := b2n m.dei, tagNow := f.seqNo.isSome }
  let one (p sub : Nat) : List (Nat × Nat × Copy) := [(p, r.queue, { c with sub := sub })]
  if r.destType = 1 || r.destType = 3 then (one r.dest 0, d)
  else if r.destType = 2 then ((r.groupPorts f.inPort).map (fun p => (p, r.queue, c)), d)
  else if r.destType = 4 then
    match d.redundant f r.dest with
    | (none, d) => ([], d)
    | (some x, d) => (x.ports.map (fun p => (p, r.queue, { c with rtag := x.rtag, untag := x.untag })), d)
  else if r.destType = 5 || r.destType = 6 then (one 41 r.dest, d)
  else if r.destType = 7 then (one 42 r.dest, d)
  else if r.destType = 8 then (one 40 0, d)
  else ([], d)

/-- The mirror sessions a frame is copied to as it is handed over (R216). -/
def Frm.sessions (f : Frm) : List Nat :=
  (if f.res.mirrorEn then [f.res.mirrorSession] else []) ++ f.rxMirror.toList

/-- An earlier stored frame of the same ingress port still waits for its result (R111). -/
def Dev.resultWaits (d : Dev) (fl : Flight) : Bool :=
  match d.bur.flights.find? (fun x => x.frm.inPort == fl.frm.inPort) with
  | some x => x.frm.id != fl.frm.id
  | none => false

/-- A checked result is handed to the hall. A frame that DROP discards is not metered. -/
def Dev.handOff (d : Dev) (id : Nat) : Dev :=
  match d.bur.flights.find? (fun x => x.frm.id == id && x.phase == 2) with
  | none => d
  | some fl =>
    if d.resultWaits fl || d.stalled 1 0 then d
    else
      let f := fl.frm
      let d := d.withBur (fun b => { b with flights := b.flights.filter (fun x => x.frm.id != id) })
      if f.res.destType = 0 then d.admitAll f f.sessions []
      else match d.meter f with
        | (none, d) => d.admitAll f f.sessions []
        | (some m, d) =>
          let (cs, d) := d.copiesOf f m
          d.admitAll f f.sessions cs

-- ==== refill (R214, R215) ====

/-- The head of the spilled part of a queue is read back. -/
def Dev.refillRead (d : Dev) (i : Nat) : Dev :=
  let q := d.queue i
  match q.spill, q.refill with
  | c :: cs, none =>
    let on := d.fld shlPg (R.SHL_Q_SPILL_ON_ON.at i)
    if d.hall.writing.contains (i, c.frm.id) || d.stalled 0x0E 0 || (on + 1) / 2 ≤ d.depth i
        || d.sharedFree < c.cells then d
    else if d.hall.readBudget ≤ 0 then d.raise shlPg 4
    else
      let d := (d.setQueue i { q with spill := cs, refill := some c }).withHall (fun h => { h with
        readBudget := h.readBudget - 2048 * c.blocks })
      let d := (List.range c.blocks).foldl (fun d _ => d.dsAsk { who := 1, at0 := 0, tag := c.frm.id }) d
      (d.shlCnt 8).lowWater
  | _, _ => d

/-- A read-back frame is back on chip, or is freed. -/
def Dev.refillDone (d : Dev) (i : Nat) (uncorr : Bool) : Dev :=
  let q := d.queue i
  match q.refill with
  | none => d
  | some c =>
    let (poison, d) := d.dsTake 1 c.frm.id
    let d := d.setQueue i { q with refill := none }
    if d.aged i c then (d.qCnt i 4).shlCnt 6
    else if uncorr || poison then ((d.shlCnt 17).raise shlPg 3).fault { cls := 0, page := shlPg }
    else
      let (n, d) := d.newFrame
      let held : Held := { inPort := c.frm.inPort, cells := c.cells, copies := 1 }
      let d := d.withHall (fun h => { h with held := h.held.set n held })
      (d.setQueue i { d.queue i with chip := (d.queue i).chip ++ [{ c with blocks := 0, hold := some n }] }).lowWater

/-- The oldest spill write is in the deep store: its cells are free (R214). The write of a copy that is revoked or has
aged is withdrawn (R407). -/
def Dev.spillWritten (d : Dev) : Dev :=
  match d.hall.writing with
  | [] => d
  | (i, id) :: rest =>
    if d.stalled 0 0x0E then d
    else
      let gone := (d.queue i).spill.any (fun c => c.frm.id == id && (d.revoked c.frm.res || d.aged i c))
      let d := d.withHall (fun h => { h with writing := rest })
      (if gone then d.dsWithdraw 0 id else d.dsFinish 0 id).endCopy id

end Sys2Proof.Machine
end

