-- ==== Sys2Proof/Machine/HallTx.lean ====
section
/-! DEFINITION. A copy from the head of its egress queue to the wire, the host or an edge bus: release
(R241, R242), revocation (R158), ageing (R209), the rewrites at egress (R210, R252, R256), and the end
of transmission (R207, R265, R389). -/

namespace Sys2Proof.Machine

-- ==== rewrites at egress ====

/-- The one's complement sum of two 16-bit numbers. -/
def ocAdd (a b : Nat) : Nat := (a + b) % 65536 + (a + b) / 65536

/-- Put bytes over a frame at a place. -/
def patch (bs : List Byte) (at0 : Nat) (new : List Byte) : List Byte := bs.take at0 ++ new ++ bs.drop (at0 + new.length)

/-- ECT becomes CE at an IP header (R210): the new bytes, where the ECN field changed. -/
def ecnMark (bs : List Byte) (o : Nat) : Option (List Byte) :=
  let w := beNat (slice bs o 2)
  if bits w 15 12 = 4 then
    if bits w 1 0 = 1 || bits w 1 0 = 2 then
      let w' := w ||| 3
      let hc := 65535 - beNat (slice bs (o + 10) 2)
      let sum := 65535 - ocAdd (ocAdd hc (65535 - w)) w'
      some (patch (patch bs o (beBytes 2 w')) (o + 10) (beBytes 2 sum))
    else none
  else if bits w 5 4 = 1 || bits w 5 4 = 2 then some (patch bs o (beBytes 2 (w ||| 0x30))) else none

/-- The R-tag a copy leaves with (R256). -/
def Copy.retag (c : Copy) (bs : List Byte) : List Byte :=
  let o := c.frm.tags.2
  let bs' := if c.untag && c.tagNow then bs.take o ++ bs.drop (o + 6) else bs
  match c.rtag with
  | none => bs'
  | some n =>
    if c.tagNow && !c.untag then patch bs (o + 4) (beBytes 2 n)
    else bs'.take o ++ beBytes 4 0xF1C10000 ++ beBytes 2 n ++ bs'.drop o

/-- The bytes of a copy as its cells are read: truncated, ECN and DEI marked, with its R-tag; and
whether ECN changed. -/
def Copy.read (c : Copy) : List Byte × Bool :=
  let bs := if c.keep = 0 then c.frm.data else c.frm.data.take c.keep
  let e := match c.marked, c.frm.l3 with
    | true, some o => ecnMark bs o
    | _, _ => none
  let bs := e.getD bs
  let bs := if c.colour = 1 && c.frm.tags.1 ≠ 0 then patch bs 14 (beBytes 1 (beNat (slice bs 14 1) ||| 0x10)) else bs
  (c.retag bs, e.isSome)

-- ==== what is examined before a release ====

/-- A head that no gate time admits is discarded (R241). -/
def Dev.tooLong (d : Dev) (n q : Nat) : Dev :=
  match d.head n q with
  | none => d
  | some c =>
    if d.isOn (schPg n) && decide (n < 40) && !d.preemptable n q
        && decide ((d.operCfg n).longest q < d.wireNs n c.outLen) then
      let i := qIdx n q
      let d := (d.setQueue i { d.queue i with chip := (d.queue i).chip.drop 1 }).endOf c
      (d.addCount (schPg n) 0x318 1).raise (schPg n) 2
    else d

/-- A frame for the host waits for descriptors (R388). -/
def Dev.hostWaits (d : Dev) (n q : Nat) : Bool :=
  n == 41 && (match d.head n q with
    | some c => d.rxHolds c.sub c.read.1.length
    | none => false)

/-- Copies queued for a port on chip. -/
def Dev.queued (d : Dev) (n : Nat) : Nat := ((List.range 8).map (fun q => (d.queue (qIdx n q)).chip.length)).sum

/-- The copy a port releases, examined as it is about to be (R158, R209, R241, R242): discarded heads
make way for the next. -/
def Dev.pick (d : Dev) (n : Nat) : Nat → Option (Nat × Copy) × Dev
  | 0 => (none, d)
  | fuel + 1 =>
    let before := d.queued n
    let d := (List.range 8).foldl (fun d q => d.tooLong n q) d
    if d.queued n < before then Dev.pick d n fuel
    else match ((List.range 8).reverse).find? (fun q => d.selectable n q && !d.hostWaits n q) with
      | none => (none, d)
      | some q =>
        match d.head n q with
        | none => (none, d)
        | some c =>
          let i := qIdx n q
          let rest := d.setQueue i { d.queue i with chip := (d.queue i).chip.drop 1 }
          if d.aged i c then Dev.pick (((rest.endOf c).qCnt i 4).shlCnt 6) n fuel
          else if d.revoked c.frm.res then Dev.pick ((rest.endOf c).addCount burPg 0xE8 1) n fuel
          else (some (q, c), rest)

-- ==== release (R242) ====

/-- The ECC checker of the SHL page that meets the frame (R228). -/
def Dev.shlInject (d : Dev) (c : Copy) : Option Dev :=
  match [0x10, 0x11, 0x12].find? (d.isArmed shlPg) with
  | none => none
  | some k => some ((((d.disarm shlPg k).endOf c).injected).fault { cls := 0, page := shlPg, checker := k, injected := true })

/-- A released copy goes to the wire of a port: sealed, held to the MAX_LEN it was queued under, then on its way (R90,
R93, R463). Only a frame that is sent costs credit (R243). -/
def Dev.toWire (d : Dev) (n q : Nat) (c : Copy) (bs : List Byte) (bad : Bool) : Dev :=
  let bs := bs ++ List.replicate (60 - bs.length) 0
  let own := (c.frm.inPort == 40 || c.frm.inPort == 63) && etherType bs == 0x888E
  match (if n < 24 then d.macsecTx n own bs else (some bs, d)) with
  | (none, d) => d.endOf c
  | (some out, d) =>
    if c.maxLen < out.length + 4 then (d.endOf c).prtCnt n 10
    else
      let d := d.creditSpend n q c.outLen
      (d.setTx n (d.txOf n ++ [{ copy := c, queue := q, releasedAt := d.now, bytes := out, bad := bad }])).merge n

/-- A released copy goes where its port leads. -/
def Dev.toPort (d : Dev) (n q : Nat) (c : Copy) (bs : List Byte) (bad : Bool) (h : HostSide) : Dev :=
  if n < 40 then d.toWire n q c bs bad
  else if bad then d.endOf c
  else
    let d := if n = 41 then d.dmaRx c.sub { c.frm with data := bs } h
      else (acfAll (d.fld (canPg 0) R.EDG_BRIDGE_CFG_XL_TYPE) bs).foldl (fun d m => d.edgeDeliver c.sub m) d
    (d.txSettle c.frm.id 0 none).endOf c

/-- What a release counts (R210, R223, R259), and the copy of R216. -/
def Dev.released (d : Dev) (n q : Nat) (c : Copy) (changed : Bool) : Dev :=
  let i := qIdx n q
  let d := (d.qCnt i 2).delaySample n q c
  let d := d.when changed (fun d => (d.qCnt i 7).shlCnt 12)
  if d.flag shlPg (R.SHL_PORT_MIRROR_TX_EN.at n) then
    let s := d.fld shlPg (R.SHL_PORT_MIRROR_TX_SESSION.at n)
    let (ms, d) := d.mirrorDraw (d.mirrorsNow.filter (fun m => m.1 == s))
    ms.foldl (fun d m => (d.mirrorCopy c m (some n)).2) d
  else d

/-- A port may release now: its transmitter sends, or its page is not one that stops it (R95, R97, R98,
R226, R472, R473). -/
def Dev.mayRelease (d : Dev) (n : Nat) : Bool :=
  !d.stalled 0 (portIsland n) && (if n < 40 then (d.state (prtPg n) == 2 || d.state (prtPg n) == 3) && d.portUp n
    && !d.tc10Down n && !d.forcedIdle n else n != 40)

/-- A port releases the head of its highest selectable queue; frames of port 40 leave by
SLOW_PATH_TAKE. `uncorr` is an uncorrectable error in its cells (R215). -/
def Dev.release (d : Dev) (n : Nat) (corrected uncorr : Bool) (h : HostSide) : Dev :=
  if n < 40 && d.state (prtPg n) == 0 then d.flushPort n 12
  else if !d.mayRelease n then d
  else match d.pick n (d.queued n + 1) with
    | (none, d) => d
    | (some (q, c), d) =>
      let (bs, changed) := c.read
      let d := d.released n q c changed
      match d.shlInject c with
      | some d => d
      | none =>
        let d := d.when corrected (fun d => d.shlCnt 16)
        let d := d.when uncorr (fun d => ((d.shlCnt 15).raise shlPg 3).fault { cls := 0, page := shlPg, checker := 0x10 })
        (d.toPort n q c bs uncorr h).lowWater

-- ==== the start and the end of a transmission (R100, R207, R264, R265, R389) ====

/-- The start-of-frame delimiter of a copy passes the MAC of a port: its stamp point with the TX_LAT in force, and
whether it is preemptable (R100, R264). -/
def Dev.txSof (d : Dev) (n : Nat) (t : TxCopy) : TxCopy :=
  if t.sof.isSome then t
  else
    let at0 := t.releasedAt + d.egressDelay
    let x := d.txPoint n at0
    { t with sof := some { at0 := x, stamp0 := d.stampAt 0 x, stamp1 := d.stampAt 1 x }
             pre := d.preemptable n t.queue, since := at0 }

/-- The transmitter of a port is looped back to its receiver (R88). -/
def Dev.looped (d : Dev) (n : Nat) : Bool := d.fld (prtPg n) R.PRT_CTRL_LOOP != 0

/-- A frame starts on the wire of a port where its time has come: it may be pre-empted from then on, and a port in
loopback receives it. -/
def Dev.txStart (d : Dev) (n : Nat) : Dev :=
  match d.txOf n with
  | t :: ts =>
    if t.sof.isSome || !d.due t || d.forcedIdle n then d
    else ((d.setTx n (d.txSof n t :: ts)).when (d.looped n) (fun d => d.rxSof n)).merge n
  | [] => d

/-- One sub-cycle of 250 ps passes: the clocks advance, and frames start on the wire. -/
def Dev.tick (d : Dev) : Dev := (d.hall.tx.map (·.1)).foldl Dev.txStart (d.clocks)

/-- The copy behind the one that has ended starts no sooner than preamble, delimiter and gap of 20 bytes allow (R93). -/
def Dev.txNext (d : Dev) (n : Nat) (ts : List TxCopy) : List TxCopy :=
  match ts with
  | t :: us =>
    if t.sof.isSome then ts
    else { t with releasedAt := max t.releasedAt (d.now + 640000 / d.portRate n - d.egressDelay) } :: us
  | [] => []

/-- The frame on the wire of a port ends: `frags` fragments were sent and `colls` collisions met. A frame that is
pre-empted is not on the wire. A port in loopback takes its own frame back as a reception, and nothing leaves. DESIGN
CHOICE: assumption 143. -/
def Dev.txDone (d : Dev) (n frags colls : Nat) : Dev :=
  match d.txOf n with
  | [] => d
  | t :: ts =>
    if !d.portUp n || d.forcedIdle n || t.cut then d
    else
      let d := d.when (t.sof.isNone && d.looped n) (fun d => d.rxSof n)
      let t := d.txSof n t
      let id := t.copy.frm.id
      let d := (d.setTx n (d.txNext n ts)).merge n
      let d := if d.looped n then d.rxEnd n { data := t.bytes, fcsGood := !t.bad } else d.emit (.frame n t.bytes t.bad)
      let d := if t.bad then d else (d.prtCnt n 8).prtCnt n 9 (t.bytes.length + 4)
      let d := d.when t.pre (fun d => d.prtCnt n 17 frags)
      let d := d.when (decide (32 ≤ n)) (fun d => d.prtCnt n 23 colls)
      match t.sof with
      | some x => ((d.txSettle id 0 (some (x.stamp0.toNat, n))).gptpStamped n x id).endOf t.copy
      | none => d.endOf t.copy

-- ==== ageing and the auditor (R209, R224 to R228) ====

/-- The head of every queue is examined. -/
def Dev.ageScan (d : Dev) : Dev := (d.hall.queues.map (·.1)).foldl Dev.examine d

/-- The fixed total of an auditor kind (R224). -/
def Dev.auditTotal (d : Dev) (k : Nat) : Nat :=
  if k = 0 then 98304 else if k = 1 then d.spillTotal else if k = 2 then 2624 else if k = 3 then 0
  else (((List.range 128).filter (fun i => d.qState i != 0)).map (fun i => d.qf i R.DMA_Q_CFG_SIZE)).sum

/-- What the accounts of an auditor kind add up to (R224). Cells: free, held by frames received or admitted, staged by
refill. Spill blocks: free and spilled. Tokens: every bucket of the shapers and of the policers. Descriptors of a ring:
those of the host, of the device and of a mover. Differences found before stay in them (R226). -/
def Dev.auditSum (d : Dev) (k : Nat) : Int :=
  let drift : Int := d.hall.drift.getD k 0
  if k = 0 then d.cellFree + d.heldCells + d.refillCells
  else if k = 1 then d.spillTotal - d.spillUsed + drift + d.spillUsed
  else if k = 2 then 2624 + drift
  else if k = 3 then
    drift
      + ((List.range 40).map (fun n => ((d.sched n).toks.map (fun e => e.2.sum (d.creditOf n e.1))).sum)).sum
      + (d.frk.toks.map (fun e => e.2.sum (if e.1 % 2 = 0 then d.tcOf (e.1 / 2) else d.teOf (e.1 / 2)))).sum
  else
    drift + (((List.range 128).filter (fun i => d.qState i != 0)).map (fun i =>
      let f := (d.dmaQ i).fetched
      (((d.qf i R.DMA_Q_CFG_SIZE - d.qOwned i) + (d.qOwned i - f) + min f (d.qOwned i) : Nat) : Int))).sum

/-- A difference stays in the accounts it was found in (R226): a crossing that has lost a credit stalls, a ring that has
lost descriptors is shorter by them. -/
def Dev.auditLoss (d : Dev) (k island account : Nat) (diff : Int) : Dev :=
  if k = 2 && decide (diff < 0) then d.withHall (fun h => { h with lostCredits := h.lostCredits ++ [(island, account)] })
  else if k = 4 && decide (account < 128) && decide (diff < 0) then
    d.setDmaQ account { d.dmaQ account with lost := (d.dmaQ account).lost + (-diff).toNat }
  else d

/-- Fill the auditor's record (R226, R227). -/
def Dev.auditRecord (d : Dev) (k island account expected found : Nat) (inj : Bool) : Dev :=
  let p := shlPg
  if d.flag p R.SHL_AUDIT_REC0_VALID then d.setFlag p R.SHL_AUDIT_REC0_OVERRUN true
  else
    let d := ((d.setFld p R.SHL_AUDIT_REC0_KIND k).setFld p R.SHL_AUDIT_REC0_ISLAND island).setFld p
      R.SHL_AUDIT_REC0_ACCOUNT account
    let d := ((d.setFlag p R.SHL_AUDIT_REC0_INJECTED inj).setFld p R.SHL_AUDIT_REC1_EXPECTED expected).setFld p
      R.SHL_AUDIT_REC2_FOUND found
    ((d.setFld p R.SHL_AUDIT_REC_TIME_TIME d.time).setFlag p R.SHL_AUDIT_REC0_VALID true).raise p 1

/-- The auditor meets a difference of kind `k` (R226): record, FAILS, DRIFT and the fault of level 3. -/
def Dev.auditDiff (d : Dev) (k checker island account expected : Nat) (diff : Int) (inj : Bool) : Dev :=
  let p := shlPg
  let d := d.auditRecord k island account expected (wrapTo 32 (expected + diff)) inj
  let d := d.incSat p (R.SHL_AUDIT_STAT_FAILS.at k)
  let d := if inj then d else
    let shown := signed 16 (d.fld p (R.SHL_AUDIT_STAT_DRIFT.at k)) + diff
    ((d.withHall (fun h => { h with drift := h.drift.set k (h.drift.getD k 0 + diff) })).auditLoss k island account
      diff).setFld p (R.SHL_AUDIT_STAT_DRIFT.at k) (satTo 16 shown)
  d.fault { cls := 3, page := p, checker := checker, detail := d.word p 0x180, level := 3, injected := inj }

/-- One check of kind `k` (R225): the sum of the accounts against the total, or against the sum found before (R226).
`lost` is what the hardware has lost or made since, in an account of an island. -/
def Dev.audit (d : Dev) (k island account : Nat) (lost : Int) : Dev :=
  let p := shlPg
  let expected : Int := d.auditTotal k + d.hall.drift.getD k 0
  let (inj, d) := d.check p k
  let found := d.auditSum k + lost
  let d := (d.setFld p (R.SHL_AUDIT_SUM_SUM.at k) (wrapTo 32 (found + (if inj then 1 else 0)))).incWrap p
    (R.SHL_AUDIT_CHECKS_COUNT.at k)
  if inj then d.auditDiff k k island 0 (wrapTo 32 expected) 1 true
  else if found = expected then d
  else d.auditDiff k k island account (wrapTo 32 expected) (found - expected) false

/-- A census of the cell tags ends (R225). -/
def Dev.census (d : Dev) (diff : Int) : Dev :=
  let (inj, d) := d.check shlPg 5
  let expected := wrapTo 32 (98304 + d.hall.drift.getD 0 0)
  if inj then d.auditDiff 0 5 0 0xFFFF expected 1 true
  else if diff = 0 then d else d.auditDiff 0 5 0 0xFFFF expected diff false

/-- A write of SHL_LOW_WATER (R217). -/
def Dev.lowWaterWrite (d : Dev) (v : Nat) : Dev :=
  if bitAt v 31 then d.setFld shlPg R.SHL_LOW_WATER_LOW d.sharedFree else d

end Sys2Proof.Machine
end

