-- ==== Sys2Proof/Machine/Hall.lean ====
section
/-! DEFINITION. The meanings of the commands of the path of a frame (04, 08). -/

namespace Sys2Proof.Machine

/-- RX_SOF (R265): a start-of-frame delimiter passes the MAC of a port; a port in loopback hears itself alone
(assumption 143). -/
def execRxSof (p : Fin 40) (s : State) : Answer := s.runMain (fun d => if d.looped p then d else d.rxSof p)

/-- RX_FRAME_END (R92): the frame in reception ends. -/
def execRxFrameEnd (p : Fin 40) (e : RxEnd) (s : State) : Answer :=
  s.runMain (fun d => if d.looped p then d else d.rxEnd p e)

/-- FRAME_STORED (R201). -/
def execFrameStored (frame : Nat) (s : State) : Answer := s.runMain (fun d => d.frameStored frame)

/-- RESULT_HANDOFF (R111). -/
def execResultHandoff (frame : Nat) (s : State) : Answer := s.runMain (fun d => d.handOff frame)

/-- SPILL_WRITTEN (R214). -/
def execSpillWritten (s : State) : Answer := s.runMain Dev.spillWritten

/-- REFILL_READ (R214): refill of a queue is due. -/
def execRefillRead (p : Fin 43) (q : Fin 8) (s : State) : Answer := s.runMain (fun d => d.refillRead (qIdx p q))

/-- REFILL_DONE (R214, R215): `uncorr` is an uncorrectable error in its blocks. -/
def execRefillDone (p : Fin 43) (q : Fin 8) (uncorr : Bool) (s : State) : Answer :=
  s.runMain (fun d => d.refillDone (qIdx p q) uncorr)

/-- SPILL_BUDGET_CREDIT (R213): 100 ns have passed. -/
def execSpillBudgetCredit (s : State) : Answer := s.runMain (fun d => d.when d.spillOn Dev.spillCredit)

/-- AGE_HEAD_SCAN (R209). -/
def execAgeHeadScan (s : State) : Answer := s.runMain Dev.ageScan

/-- QUEUE_RELEASE (R242): what the cells' ECC finds, and for port 41 what the host answers. -/
def execQueueRelease (p : Fin 43) (corrected uncorr : Bool) (host : HostSide) (s : State) : Answer :=
  s.runMain (fun d => d.release p corrected uncorr host)

/-- TX_FRAME_DONE (R207): the frame on the wire ends, with the fragments it was sent in and the
collisions it met. -/
def execTxFrameDone (p : Fin 40) (fragments collisions : Nat) (s : State) : Answer :=
  s.runMain (fun d => d.txDone p fragments collisions)

/-- AUDIT_CHECK (R34, R225): `diff` is what the hardware has lost or made since the last check. -/
def execAuditCheck (kind : Fin 5) (island : BitVec 8) (account : BitVec 16) (diff : Int) (s : State) : Answer :=
  s.runMain (fun d => d.audit kind island.toNat account.toNat diff)

/-- AUDIT_CENSUS (R225). -/
def execAuditCensus (diff : Int) (s : State) : Answer :=
  s.runMain (fun d => d.census diff)

/-- LOW_WATER_RESTART (R217): a write of SHL_LOW_WATER.RESTART. -/
def execLowWaterRestart (who : Owner) (s : State) : Answer :=
  s.run (fun d => d.gateW who shlPg 0x98 (2 ^ 31) (fun d => d.lowWaterWrite (2 ^ 31)))

end Sys2Proof.Machine
end

