-- ==== Sys2Proof/Machine/MmuOps.lean ====
section
/-! DEFINITION. The device MMU and the movers (R416 to R421). -/

namespace Sys2Proof.Machine

/-- Change what the MMU keeps. -/
def Dev.withMmu (d : Dev) (f : Mmu → Mmu) : Dev := { d with mmu := f d.mmu }

-- ==== translation (R416 to R418) ====

/-- What a translation answers: whether at the host, the address and the bytes left in the page; or the
CAUSE of its fault. -/
inductive Trans where
  | ok (host : Bool) (addr left : Nat)
  | bad (cause : Nat)
  deriving DecidableEq, Repr

/-- ADDR of a table entry, as an address. -/
def entAddr (e : Nat) : Nat := bits e 51 12 * 2 ^ 12

/-- Read a table entry in the cluster memory region (R404, R416): the entry, or the CAUSE where the
place lies outside the region or the block is uncorrectable. -/
def Dev.walkRead (d : Dev) (who addr : Nat) (bad : Bool) : Except Nat Nat × Dev :=
  if 0x10000000 ≤ addr then (.error 4, d)
  else
    let d := d.dsServe { who := who, at0 := 0, bytes := 8 }
    let (inj, d) := d.check dstPg 0
    if inj || bad then (.error 5, d.dsUncorr who (addr / 64 * 64) inj)
    else (.ok (leNat (d.memRead addr 8)), d)

/-- Walk the table of a context (R416, R417): the last entry and the size of its page as a power of
two, or a CAUSE. Any one entry of a CONTIG group may be used. -/
def Dev.walk (d : Dev) (who ctx dva : Nat) (bad : Bool) : Except Nat (Nat × Nat) × Dev :=
  match d.walkRead who (d.fld mmuPg (R.MMU_CTX_BASE_ADDR.at ctx) * 2 ^ 12 + 8 * bits dva 38 30) bad with
    | (.error c, d) => (.error c, d)
    | (.ok e1, d) =>
      if !bitAt e1 0 || !bitAt e1 1 then (.error 1, d)
      else match d.walkRead who (entAddr e1 + 8 * bits dva 29 21) false with
        | (.error c, d) => (.error c, d)
        | (.ok e2, d) =>
          if !bitAt e2 0 then (.error 1, d)
          else if !bitAt e2 1 then (.ok (e2, 21), d)
          else match d.walkRead who (entAddr e2 + 8 * bits dva 20 12) false with
            | (.error c, d) => (.error c, d)
            | (.ok e3, d) =>
              if !bitAt e3 0 then (.error 1, d)
              else if !bitAt e3 4 then (.ok (e3, 12), d)
              else
                let (n, d) := d.draw
                match d.walkRead who (entAddr e2 + 8 * (bits dva 20 16 * 16 + Config.free n % 16)) false with
                | (.error c, d) => (.error c, d)
                | (.ok e, d) => (.ok (e, 16), d)

/-- Use an entry (R417): permission, target and range. A base that its page size does not allow gives an
address the manual does not state; it is drawn. -/
def Dev.useEntry (d : Dev) (e log dva : Nat) (write : Bool) : Trans × Dev :=
  let base := if log = 16 then bits e 51 16 * 2 ^ 16 else entAddr e
  let (base, d) := if base % 2 ^ log = 0 then (base, d) else
    let (n, d) := d.draw
    (Config.free n % 2 ^ (52 - log) * 2 ^ log, d)
  let off := dva % 2 ^ log
  let host := bits e 9 8 == 1
  if 2 ≤ bits e 9 8 then (.bad 4, d)
  else if write && !bitAt e 3 then (.bad 3, d)
  else if !write && !bitAt e 2 then (.bad 2, d)
  else if !host && decide (d.dstSize ≤ base + off) then (.bad 4, d)
  else (.ok host (base + off) (2 ^ log - off), d)

/-- A translation the TLB holds for an address. -/
def Dev.tlbFind (d : Dev) (ctx dva : Nat) : Option Tlb :=
  d.mmu.tlb.find? (fun t => t.ctx == ctx && t.page == dva / 2 ^ t.log)

/-- Translate (R416 to R418): an address whose translation the TLB holds may be translated by it or by
a walk; a translation walked is held. `bad` is an uncorrectable error in the walk. -/
def Dev.translate (d : Dev) (who ctx dva : Nat) (write bad : Bool) : Trans × Dev :=
  if 2 ^ 39 ≤ dva then (.bad 4, d)
  else if !d.flag mmuPg (R.MMU_CTX_BASE_VALID.at ctx) then (.bad 1, d)
  else
    let hit := d.tlbFind ctx dva
    let (n, d) := if hit.isSome then d.draw else (0, d)
    let (inj, d) := if hit.isSome then d.check mmuPg 0 else (false, d)
    let d := d.when inj (fun d => d.injected.fault { cls := 0, page := mmuPg, checker := 0, injected := true })
    match hit, !inj && Config.free n % 2 == 0 with
    | some t, true => d.useEntry t.entry t.log dva write
    | _, _ =>
      match d.walk who ctx dva bad with
      | (.error c, d) => (.bad c, d)
      | (.ok (e, log), d) =>
        let t : Tlb := { ctx := ctx, page := dva / 2 ^ log, log := log, entry := e }
        let d := d.withMmu (fun m => { m with tlb := t :: (m.tlb.filter (fun x =>
          !(x.ctx == ctx && x.page == dva / 2 ^ x.log))).take 1023 })
        d.useEntry e log dva write

/-- Fill the fault record (R418, R421). -/
def Dev.mmuFault (d : Dev) (cause channel ctx dva : Nat) (write : Bool) : Dev :=
  let p := mmuPg
  d.record p R.MMU_FAULT_VALID R.MMU_FAULT_OVERRUN (fun d =>
    let d := ((d.setFld p R.MMU_FAULT_CAUSE cause).setFld p R.MMU_FAULT_CHANNEL channel).setFlag p R.MMU_FAULT_WRITE write
    (d.setFld p R.MMU_FAULT_CTX ctx).setFld p R.MMU_FAULT_DVA_DVA dva)

/-- The parts of `n` bytes at a DVA, at most two pages: where each lies; or the CAUSE and the DVA that
faults (R419). -/
def Dev.segments (d : Dev) (who ctx dva n : Nat) (write bad : Bool) : Except (Nat × Nat) (List (Bool × Nat × Nat)) × Dev :=
  match d.translate who ctx dva write bad with
  | (.bad c, d) => (.error (c, dva), d)
  | (.ok h a left, d) =>
    if n ≤ left then (.ok [(h, a, n)], d)
    else match d.translate who ctx (dva + left) write false with
      | (.bad c, d) => (.error (c, dva + left), d)
      | (.ok h2 a2 _, d) => (.ok [(h, a, left), (h2, a2, n - left)], d)

/-- Bytes of the deep store as a mover or a pair reads them. How connections and spilled frames lie in
their regions is not stated: those bytes are drawn. -/
def Dev.storeBytes (d : Dev) (a n : Nat) : List Byte × Dev :=
  if 0x20000000 ≤ a && a < 0xA0000000 then d.drawBytes n else (d.memRead a n, d)

/-- The requester may write at this device address (R404): movers write cluster memory; pairs that, the
checkpoints and the Letterbox region. -/
def mayStore (who a : Nat) : Bool := if 0x20 ≤ who then decide (a < 0x10000000) else decide (a < 0x15000000)

-- ==== movers (R419) ====

/-- A mover channel. -/
def Dev.mov (d : Dev) (ch : Nat) : Mov := d.mmu.movs.getD ch {}

/-- Change it. -/
def Dev.setMov (d : Dev) (ch : Nat) (m : Mov) : Dev := d.withMmu (fun x => { x with movs := x.movs.set ch m })

/-- STATE of a channel: 0 IDLE, 1 WAITING, 2 RUNNING, 3 PARKED, 4 DONE, 5 ABORTED. -/
def Dev.movState (d : Dev) (ch : Nat) : Nat := d.fld mmuPg (R.MOV_STAT_STATE.at ch)

/-- Move a channel to a STATE. -/
def Dev.setMovState (d : Dev) (ch st : Nat) : Dev := d.setFld mmuPg (R.MOV_STAT_STATE.at ch) st

/-- PRIO of a channel. -/
def Dev.movPrio (d : Dev) (ch : Nat) : Nat := d.fld mmuPg (R.MOV_CTRL_PRIO.at ch)

/-- A channel waits from now on. -/
def Dev.movWait (d : Dev) (ch : Nat) : Dev := (d.setMovState ch 1).setMov ch { since := d.now }

/-- A channel parks with a CAUSE. -/
def Dev.movPark (d : Dev) (ch cause : Nat) : Dev :=
  (((d.dsWithdraw (0x20 + ch) 0).setMovState ch 3).setFld mmuPg (R.MOV_STAT_CAUSE.at ch) cause).setMov ch {}

/-- A channel ends aborted. -/
def Dev.movAborted (d : Dev) (ch : Nat) : Dev := ((d.dsWithdraw (0x20 + ch) 0).setMovState ch 5).setMov ch {}

/-- The writer may command the MMU page (R421). -/
def mmuWriter (who : Owner) : Bool :=
  match who with
  | .pair _ | .boot => true
  | _ => false

/-- The states in which a channel's registers take a new transfer. -/
def Dev.movFree (d : Dev) (ch : Nat) : Bool := d.movState ch == 0 || d.movState ch == 4 || d.movState ch == 5

/-- A write of MOV_CTRL (R419, R421). Of several commands in one write the first of START, RESUME and
ABORT acts. -/
def Dev.movCtrl (d : Dev) (who : Owner) (ch v : Nat) : Dev :=
  let p := mmuPg
  let plain (d : Dev) : Dev := (d.setFld p (R.MOV_CTRL_PRIO.at ch) (bits v 25 24)).setFld p (R.MOV_CTRL_CTX.at ch) (bits v 3 0)
  let st := d.movState ch
  if !mmuWriter who then d.refuse p
  else if bitAt v 31 then
    if !d.movFree ch then d.refuse p
    else
      let d := (plain d).setWord p (0x1004 + 0x40 * ch) (who.code * 2 ^ 24)
      let d := (d.setFld p (R.MOV_CUR_SRC_DVA.at ch) (d.fld p (R.MOV_SRC_DVA.at ch))).setFld p (R.MOV_CUR_DST_DVA.at ch)
        (d.fld p (R.MOV_DST_DVA.at ch))
      (d.setFld p (R.MOV_REMAIN_BYTES.at ch) (d.fld p (R.MOV_LEN_BYTES.at ch))).movWait ch
  else if bitAt v 30 then if st = 3 then d.movWait ch else d.refuse p
  else if bitAt v 29 then
    if st = 2 then d.setMov ch { d.mov ch with abort := true } else if st = 1 || st = 3 then d.movAborted ch else d
  else if d.movFree ch then plain d else d.refuse p

/-- The last byte of a transfer has moved (R419). -/
def Dev.movDone (d : Dev) (ch : Nat) : Dev := ((d.setMovState ch 4).setMov ch {}).raise mmuPg 1

/-- A running channel translates its next block and issues its reads, or parks (R419). -/
def Dev.movIssue (d : Dev) (ch : Nat) (bad : Bool) : Dev :=
  let p := mmuPg
  let who := 0x20 + ch
  let ctx := d.fld p (R.MOV_CTRL_CTX.at ch)
  let n := min 256 (d.fld p (R.MOV_REMAIN_BYTES.at ch))
  let fail (d : Dev) (x : Nat × Nat) (w : Bool) : Dev := (((d.mmuFault x.1 ch ctx x.2 w).movPark ch x.1).raise p 0)
  if n = 0 then d.movDone ch
  else match d.segments who ctx (d.fld p (R.MOV_CUR_SRC_DVA.at ch)) n false bad with
    | (.error x, d) => fail d x false
    | (.ok src, d) =>
      match d.segments who ctx (d.fld p (R.MOV_CUR_DST_DVA.at ch)) n true false with
      | (.error x, d) => fail d x true
      | (.ok dst, d) =>
        let d := d.setMov ch { d.mov ch with src := src, dst := dst }
        src.foldl (fun d s => d.when (!s.1) (fun d =>
          d.dsAsk { who := who, at0 := 0, bytes := s.2.2, addr := some s.2.1 })) d

/-- The waiting channel that is served next: the highest PRIO, then the one that waits longest. -/
def Dev.movNext (d : Dev) : Option Nat :=
  let better (a b : Nat) : Bool := decide (d.movPrio a < d.movPrio b)
    || (d.movPrio a == d.movPrio b && decide ((d.mov b).since < (d.mov a).since))
  match (List.range 32).filter (fun c => d.movState c == 1) with
  | [] => none
  | c :: cs => some (cs.foldl (fun a b => if better a b then b else a) c)

/-- A waiting channel takes a free slot, or the lowest-priority running one is to give up its own
(R419). -/
def Dev.movGrant (d : Dev) (bad : Bool) : Dev :=
  match d.movNext with
  | none => d
  | some c =>
    let run := (List.range 32).filter (fun x => d.movState x == 2)
    if run.length < 4 then (d.setMovState c 2).movIssue c bad
    else
      let low := run.foldl (fun m x => min m (d.movPrio x)) 3
      match run.find? (fun x => d.movPrio x == low && !(d.mov x).preempt) with
      | some x => if low < d.movPrio c then d.setMov x { d.mov x with preempt := true } else d
      | none => d

/-- Read the parts of a block: `host` is what the host answers, in order. -/
def Dev.readParts (d : Dev) : List (Bool × Nat × Nat) → List Byte → List Byte × Dev
  | [], _ => ([], d)
  | (h, a, n) :: ps, host =>
    let (bs, d) : List Byte × Dev := if h then (host.take n ++ List.replicate (n - host.length) 0, d) else d.storeBytes a n
    let (rest, d) := Dev.readParts d ps (if h then host.drop n else host)
    (bs ++ rest, d)

/-- Write the parts of a block. -/
def Dev.writeParts (d : Dev) (who : Nat) : List (Bool × Nat × Nat) → List Byte → Dev
  | [], _ => d
  | (h, a, n) :: ps, bs =>
    let part := bs.take n
    let d := if h then d.emit (.hostWrite a part)
      else if mayStore who a then
        let r : DsReq := { who := who, at0 := d.now, write := true, bytes := n, addr := some a, data := part }
        (d.dsCharge r).dsServe r
      else d
    Dev.writeParts d who ps (bs.drop n)

/-- The current block of a running channel ends (R419): `host` is what the host answered, `fail` that a
host access failed, `bad` that the walk for the next block meets an uncorrectable error. A block whose reads wait for the
limit of R410 goes on waiting. -/
def Dev.movBlock (d : Dev) (ch : Nat) (host : List Byte) (fail bad : Bool) : Dev :=
  let p := mmuPg
  let m := d.mov ch
  if d.movState ch ≠ 2 then d
  else
    let (poison, d) := d.dsTake (0x20 + ch) 0
    let atHost := (m.src ++ m.dst).any (·.1)
    if d.dsPending (0x20 + ch) 0 then d
    else if poison || (atHost && (fail || d.hostBarred.isSome)) then d.movPark ch 7
    else
      let n := (m.src.map (·.2.2)).sum
      let (bs, d) := d.readParts m.src host
      let d := d.writeParts (0x20 + ch) m.dst bs
      let d := (d.setFld p (R.MOV_CUR_SRC_DVA.at ch) (d.fld p (R.MOV_CUR_SRC_DVA.at ch) + n)).setFld p
        (R.MOV_CUR_DST_DVA.at ch) (d.fld p (R.MOV_CUR_DST_DVA.at ch) + n)
      let d := d.setFld p (R.MOV_REMAIN_BYTES.at ch) (d.fld p (R.MOV_REMAIN_BYTES.at ch) - n)
      if d.fld p (R.MOV_REMAIN_BYTES.at ch) = 0 then d.movDone ch
      else if m.abort then d.movAborted ch
      else if m.ownerGone then d.movPark ch 6
      else if m.preempt then (d.incSat p (R.MOV_STAT_PREEMPTS.at ch)).movWait ch
      else d.movIssue ch bad

/-- A channel of an owner waits or runs. -/
def Dev.movsOf (d : Dev) (owner : Nat) : Bool :=
  (List.range 32).any (fun ch =>
    d.fld mmuPg (R.MOV_STAT_OWNER.at ch) == owner && (d.movState ch == 1 || d.movState ch == 2))

/-- An owner reset of the mover engine (R420). -/
def Dev.movOwnerReset (d : Dev) (owner : Nat) : Dev :=
  (List.range 32).foldl (fun d ch =>
    if d.fld mmuPg (R.MOV_STAT_OWNER.at ch) ≠ owner then d
    else if d.movState ch = 1 then d.movPark ch 6
    else if d.movState ch = 2 then d.setMov ch { d.mov ch with ownerGone := true }
    else d) d

-- ==== invalidation (R418, R421) ====

/-- A write of MMU_INV. -/
def Dev.mmuInv (d : Dev) (who : Owner) (v : Nat) : Dev :=
  let p := mmuPg
  let scope := bits v 30 29
  if !mmuWriter who || scope = 3 then d.refuse p
  else
    let d := (d.setFld p R.MMU_INV_SCOPE scope).setFld p R.MMU_INV_CTX (bits v 3 0)
    d.when (bitAt v 31) (fun d =>
      d.withMmu (fun m => { m with invs := m.invs ++ [(scope, bits v 3 0, d.fld p R.MMU_INV_DVA_DVA)] }))

/-- The oldest invalidation completes. -/
def Dev.mmuInvDone (d : Dev) : Dev :=
  match d.mmu.invs with
  | [] => d
  | (scope, ctx, dva) :: rest =>
    let gone (t : Tlb) : Bool :=
      scope == 0 || (t.ctx == ctx && (scope == 1 || t.page == dva / 2 ^ t.log))
    (d.withMmu (fun m => { m with tlb := m.tlb.filter (fun t => !gone t), invs := rest })).raise mmuPg 2

-- ==== requests that arrive on their own (R405) ====

/-- A pair's write becomes requests, part by part; a host part leaves at once. -/
def Dev.askWrites (d : Dev) (who : Nat) : List (Bool × Nat × Nat) → List Byte → Dev
  | [], _ => d
  | (h, a, n) :: ps, bs =>
    let part := bs.take n
    let d := if h then d.emit (.hostWrite a part)
      else if mayStore who a then d.dsAsk { who := who, at0 := 0, write := true, bytes := n, addr := some a, data := part }
      else d
    Dev.askWrites d who ps (bs.drop n)

/-- An access of a pair through the MMU: it becomes a request, or faults with a bus error to the pair (R418). -/
def Dev.pairAsk (d : Dev) (p ctx dva n : Nat) (data : Option (List Byte)) : Dev :=
  let who := 8 + p
  match d.segments who ctx dva n data.isSome false with
  | (.error x, d) => (d.mmuFault x.1 (0x20 + p) ctx x.2 data.isSome).emit (.answer (.pair (Fin.ofNat 4 p)) 0x82 0)
  | (.ok ps, d) =>
    match data with
    | some bs => d.askWrites who ps bs
    | none => ps.foldl (fun d s => d.when (!s.1) (fun d =>
        d.dsAsk { who := who, at0 := 0, bytes := s.2.2, addr := some s.2.1 })) d

/-- A request arrives; a requester keeps within its outstanding requests. -/
def Dev.dsArrive (d : Dev) (x : DsArrival) : Dev :=
  let room (who : Nat) : Bool := d.dsRoom who
  match x with
  | .pair p ctx dva n => if room (8 + p) then d.pairAsk p ctx dva.toNat (min n 256) none else d
  | .pairWrite p ctx dva bs =>
    if room (8 + p) then d.pairAsk p ctx dva.toNat (min bs.length 256) (some (bs.take 256)) else d
  | .sweeper => if room 4 then d.dsAsk { who := 4, at0 := 0 } else d
  | .initialise => if room 5 then d.dsAsk { who := 5, at0 := 0, write := true, tag := 1 } else d

end Sys2Proof.Machine
end

