-- ==== Sys2Proof/Machine/NpOps.lean ====
section
/-! DEFINITION. The Night Post (R335 to R344): checks, relay copies and their attempts. -/

namespace Sys2Proof.Machine

/-- The Night Post drives the mode pins of CAN 0 or CAN 1, while it holds them, for a transceiver state (R335). -/
def Dev.npPins (d : Dev) (n st : Nat) : Dev :=
  let map := d.fld nptPg (if n = 0 then R.NPT_TRX_MAP_A else R.NPT_TRX_MAP_B)
  if d.flag (canPg n) R.EDG_CAN_STAT_PINS then d else d.emit (.pin (0x140 + n) (bits map (7 - 2 * st) (6 - 2 * st)))

-- ==== checks (R337) ====

/-- Byte `i` of a wake frame. -/
def NpFrame.byte (f : NpFrame) (i : Nat) : Nat := beNat (slice f.data i 1)
/-- Its command, sender and counter. -/
def NpFrame.cmd (f : NpFrame) : Nat := f.byte 0 % 16
/-- The sender. -/
def NpFrame.sender (f : NpFrame) : Nat := f.byte 1 % 4
/-- The counter. -/
def NpFrame.counter (f : NpFrame) : Nat := beNat (slice f.data 2 4)

/-- The frame is not well formed (R336, R337 step 1). -/
def NpFrame.bad (f : NpFrame) : Bool :=
  !f.fd || f.data.length != 24 || f.byte 0 / 16 != 1 || f.byte 1 / 4 != 0 || f.byte 6 != 0 || f.byte 7 != 0

/-- Show the outcome of a frame in NPT_RELAY_STAT. -/
def Dev.npShow (d : Dev) (f : NpFrame) (r : Nat) : Dev :=
  let d := (d.setFlag nptPg R.NPT_RELAY_STAT_VALID true).setFld nptPg R.NPT_RELAY_STAT_RESULT r
  ((d.setFld nptPg R.NPT_RELAY_STAT_SENDER f.sender).setFld nptPg R.NPT_RELAY_STAT_CMD f.cmd).setFld nptPg
    R.NPT_RELAY_STAT_COPIES 0

/-- Steps 1 to 4 of R337 for the first frame; it is refused, or its verification waits for Wax. Refused
frames are followed by the next. -/
def Dev.npCheck : Nat → Dev → Dev
  | 0, d => d
  | fuel + 1, d =>
    match d.npt.frames with
    | [] => d
    | f :: rest =>
      let refuse (d : Dev) (r : Nat) : Dev :=
        Dev.npCheck fuel (((d.withNpt (fun n => { n with frames := rest })).npShow f r).raise nptPg 1)
      if d.npt.verify.isSome || d.npt.relay.isSome || !d.isOn nptPg then d
      else if f.bad then refuse (d.cnt nptPg 2) 2
      else if !d.flag nptPg (R.NPT_SENDER_EN.at f.sender) then refuse d 3
      else if !d.flag nptPg (R.NPT_CMD_MAP_EN.at f.cmd) then refuse d 4
      else
        let slot := d.fld nptPg (R.NPT_SENDER_KEY_SLOT.at f.sender)
        let key := d.slotMat slot
        let (ok, d) := d.slotUseOut slot 9
        if !ok then refuse (d.cnt nptPg 12) 7
        else
          let d := (d.withNpt (fun n => { n with verify := some key })).npPins 1 0
          (d.withWax (fun w => { w with npWork := w.npWork + 1 })).waxKick

/-- The next frame is handled. -/
def Dev.npNext (d : Dev) : Dev := Dev.npCheck (d.npt.frames.length + 1) d

-- ==== the relay (R339, R340) ====

/-- The relayed frame of a command. -/
def Dev.relayMsg (d : Dev) (r : Relay) : CanMsg :=
  { ext := d.flag nptPg (R.NPT_CMD_MAP_IDE.at r.cmd), id := d.fld nptPg (R.NPT_CMD_MAP_TX_ID.at r.cmd), data := r.body }

/-- Change the relay. -/
def Dev.setRelay (d : Dev) (r : Option Relay) : Dev := d.withNpt (fun n => { n with relay := r })

/-- A copy is over: the relay ends with its last copy, and the next frame is handled. -/
def Dev.copyOver (d : Dev) (r : Relay) : Dev :=
  if r.left = 0 then ((d.setRelay none).npPins 1 2).npNext else d.setRelay (some { r with onOffer := false, viaCan1 := false })

/-- A copy has been sent (R340): the first fires source 0x28 where the command asks it. -/
def Dev.copySent (d : Dev) (r : Relay) : Dev :=
  let r := { r with sent := r.sent + 1 }
  let d := d.setFld nptPg R.NPT_RELAY_STAT_COPIES r.sent
  let d := d.when (r.sent == 1) (fun d =>
    let d := (((d.setFld nptPg R.NPT_RELAY_STAT_RESULT 1).cnt nptPg 1).raise nptPg 0)
    d.when (d.flag nptPg (R.NPT_CMD_MAP_WAKE.at r.cmd)) (fun d => d.fire 0x28))
  d.copyOver r

/-- An attempt has failed (R339); true where the copy has used up its attempts. -/
def Dev.copyFailed (d : Dev) (r : Relay) : Bool × Dev :=
  let r := { r with attempts := r.attempts + 1 }
  if r.attempts < d.fld nptPg R.NPT_RELAY_CFG_RETRY then (false, d.setRelay (some r))
  else
    let d := (d.cnt nptPg 5).when (r.left == 0 && r.sent == 0) (fun d => d.setFld nptPg R.NPT_RELAY_STAT_RESULT 8)
    (true, d.copyOver r)

/-- Offer the next copy: to CAN 1's transmit buffer while it holds the pins, else through NP-CAN B. -/
def Dev.relayOffer (d : Dev) (r : Relay) : Dev :=
  let r := { r with onOffer := true, attempts := 0, left := r.left - 1 }
  let m := d.relayMsg r
  if d.flag (canPg 1) R.EDG_CAN_STAT_PINS then
    let d := d.canDeliver 1 { msg := m, np := true }
    d.setRelay (some { r with viaCan1 := (d.can 1).tx.any (·.np) })
  else d.setRelay (some { r with viaCan1 := false })

/-- GAP_MS has passed since the copy before. -/
def Dev.relayDue (d : Dev) : Dev :=
  match d.npt.relay with
  | some r => if !r.onOffer && r.left != 0 then d.relayOffer r else d
  | none => d

/-- An attempt through NP-CAN B ends; at level 3 it fails. -/
def Dev.relayTried (d : Dev) (ok : Bool) : Dev :=
  match d.npt.relay with
  | some r =>
    if !r.onOffer || r.viaCan1 || d.flag (canPg 1) R.EDG_CAN_STAT_PINS then d
    else if ok && !d.safe then (d.emit (.can 1 (d.relayMsg r))).copySent r
    else (d.copyFailed r).2
  | none => d

/-- The frames that wait while one is handled, up to the end of its relay (R337). -/
def Dev.npWaiting (d : Dev) : Nat := d.npt.frames.length - (if d.npt.relay.isSome then 0 else 1)

/-- The relay stops (R315): frames that wait or are being verified, and copies not yet begun, are discarded; a copy under
way completes. -/
def Dev.npStop (d : Dev) : Dev :=
  let d := match d.npt.frames, d.npt.verify with
    | f :: _, some _ => d.slotSpent (d.fld nptPg (R.NPT_SENDER_KEY_SLOT.at f.sender))
    | _, _ => d
  let d := d.withNpt (fun n => { n with frames := [], verify := none })
  match d.npt.relay with
  | some r => d.setRelay (if r.onOffer then some { r with left := 0 } else none)
  | none => d

/-- NP-CAN A begins or ends its service of CAN 0: its transceiver is NORMAL in service; CAN 1's is STANDBY. -/
def Dev.npDrive (d : Dev) (on : Bool) : Dev := (d.npPins 0 (if on then 0 else 2)).npPins 1 2

/-- A wake frame becomes valid on CAN 0 (R336, R337). -/
def Dev.wakeFrame (d : Dev) (fd ext : Bool) (id : Nat) (data : List Byte) : Dev :=
  if !d.isOn nptPg || !d.npt.serving || ext != d.flag nptPg R.NPT_RX_ID_IDE || id != d.fld nptPg R.NPT_RX_ID_ID then d
  else
    let d := (d.cnt nptPg 0).withNpt (fun n => { n with oscillator := true })
    if 4 ≤ d.npWaiting then d.cnt nptPg 6
    else (d.withNpt (fun n => { n with frames := n.frames ++ [⟨fd, data⟩] })).npNext

/-- Wax has finished the verification (R337 steps 5 and 6, R341). -/
def Dev.npVerified (d : Dev) : Dev :=
  match d.npt.frames, d.npt.verify with
  | f :: rest, some key =>
    if d.wax.npWork != 0 then d
    else
      let slot := d.fld nptPg (R.NPT_SENDER_KEY_SLOT.at f.sender)
      let d := (d.withNpt (fun n => { n with verify := none, frames := rest })).slotSpent slot
      let refuse (d : Dev) (r : Nat) : Dev := (((d.npShow f r).raise nptPg 1).npPins 1 2).npNext
      let ide := d.fld nptPg R.NPT_RX_ID_IDE * 2 ^ 31 + d.fld nptPg R.NPT_RX_ID_ID
      let text := (beBytes 4 ide ++ f.data.take 16).map (·.toNat)
      if key.isEmpty then refuse (d.cnt nptPg 12) 7
      else if (cmac key text).take 8 ≠ (f.data.drop 16).map (·.toNat) then
        refuse ((d.cnt nptPg 3).fault { cls := 9, page := nptPg }) 5
      else if d.isArmed nptPg 0 then
        refuse (((d.disarm nptPg 0).cnt nptPg 4).fault { cls := 0, page := nptPg, checker := 0, injected := true }) 6
      else
        let last := R.NPT_CNT_LAST_LAST.at f.sender
        let x := (f.counter + 2 ^ 32 - d.fld nptPg last) % 2 ^ 32
        if x = 0 || d.fld nptPg R.NPT_RELAY_CFG_WINDOW < x then refuse (d.cnt nptPg 4) 6
        else
          let d := ((d.setFld nptPg last f.counter).carbon 4 [f.sender, f.counter]).npShow f 1
          if d.npt.peerRelays && !d.mainRun then (d.npPins 1 2).npNext
          else d.relayOffer { cmd := f.cmd, body := slice f.data 8 8, left := d.fld nptPg R.NPT_RELAY_CFG_REPEAT }
  | _, _ => d

end Sys2Proof.Machine
end

