-- ==== Sys2Proof/Machine/HeaderOps.lean ====
section
/-! DEFINITION. The common page header (02): locks, staged writes and COMMIT, the enable state
machine of pages and DMA queues, claims (R22 to R30), and reset events of lock owners (R55). -/

namespace Sys2Proof.Machine

-- ==== locks (R49, R54 to R56) ====

/-- Free the lock of a page. -/
def Dev.lockFree (d : Dev) (p : Page) : Dev := (d.setFlag p R.PAGE_LOCK_HELD false).setFld p R.PAGE_LOCK_OWNER 0

/-- A request for the lock (R49): writes of the administrative list are counted from the grant on (R234). -/
def Dev.lockTake (d : Dev) (who : Owner) (p : Page) : Dev :=
  if !d.flag p R.PAGE_LOCK_HELD then
    let d := ((d.setFlag p R.PAGE_LOCK_HELD true).setFld p R.PAGE_LOCK_OWNER who.code).incWrap p R.PAGE_LOCK_GRANT_SEQ
    d.when (p.kind == .sch) (fun d => d.setSched p.inst { d.sched p.inst with adminWrites := 0 })
  else if d.lockOwner p = who.code then d else d.refuse p

/-- A release (R54): staged writes are discarded, an open shadow of the holder is abandoned (R160). A BUR lock that is
kept until a commit is done because its owner had a reset event (R55) is not released before. DESIGN CHOICE:
assumption 130. -/
def Dev.lockDrop (d : Dev) (who : Owner) (p : Page) : Dev :=
  if !d.holds p who || (p.kind == .bur && d.bur.ownerGone) then d.refuse p
  else
    let d := d.unstage p
    let d := d.when (p.kind == .bur && d.ownsShadow who.code) Dev.edAbandon
    d.lockFree p

/-- Record that a reset event of owner `code` discarded `n` staged writes (R55). -/
def Dev.tornSet (d : Dev) (p : Page) (code n : Nat) : Dev :=
  let was := d.flag p R.PAGE_STAT_TORN
  let old := if was then d.fld p R.PAGE_TORN_OWNER_DISCARDED else 0
  let d := (d.setFld p R.PAGE_TORN_OWNER_OWNER code).setFld p R.PAGE_TORN_OWNER_DISCARDED (min (old + n) 0xFFFF)
  if was then d else (d.setFlag p R.PAGE_STAT_TORN true).raise p 31

/-- The administrative list of a SCH page returns to the operational one (R234). -/
def Dev.adminBack (d : Dev) (n : Nat) : Dev :=
  let p := schPg n
  let x := d.sched n
  let d := d.setSched n { x with admin := x.oper, adminWrites := 0 }
  let d := [0, 8, 12, 16, 20].foldl (fun d o => d.setWord p (0x80 + o) (d.word p (0xA0 + o))) d
  d

/-- A lock is lost to a reset event (R55, R160, R234): staged writes, and the writes counted as staged
for this purpose, are discarded. A commit past its Checks step keeps the BUR lock until it is done. -/
def Dev.lockLost (d : Dev) (p : Page) (code : Nat) : Dev :=
  if p.kind == .bur && d.bur.committing && d.bur.commitBy == code then d.withBur (fun b => { b with ownerGone := true })
  else
    let staged := (d.stagedOf p).length
    let admin := if p.kind == .sch then (d.sched p.inst).adminWrites else 0
    let shadow := if p.kind == .bur && d.ownsShadow code then d.fld burPg R.BUR_EDITION_WRITES_COUNT else 0
    let n := staged + admin + shadow
    let d := d.unstage p
    let d := d.when (admin != 0) (fun d => d.adminBack p.inst)
    let d := d.when (p.kind == .bur && d.ownsShadow code) Dev.edAbandon
    let d := d.lockFree p
    d.when (n != 0) (fun d => d.tornSet p code n)

/-- The pages whose lock an owner holds. -/
def Dev.lockedBy (d : Dev) (code : Nat) : List Page :=
  allPages.filter (fun p => d.flag p R.PAGE_LOCK_HELD && d.lockOwner p == code)

/-- A reset event of a lock owner (R45, R55): its locks are released, a shadow that it owns without the lock is
abandoned (R160), its Wax contexts end (R454). -/
def Dev.ownerReset (d : Dev) (code : Nat) : Dev :=
  let d := (d.lockedBy code).foldl (fun d p => d.lockLost p code) d
  (d.when (d.ownsShadow code) Dev.edAbandon).waxOwnerReset code

/-- The commit of an owner that has had a reset event is over: its BUR lock is released (R55). -/
def Dev.goneDone (d : Dev) : Dev :=
  if d.bur.ownerGone && !d.bur.committing then
    (d.withBur (fun b => { b with ownerGone := false })).lockLost burPg (d.lockOwner burPg)
  else d

/-- A write of 1 to TORN (R56). -/
def Dev.tornClear (d : Dev) (who : Owner) (p : Page) : Dev :=
  if d.holds p who then (d.setFlag p R.PAGE_STAT_TORN false).setWord p 0x14 0 else d.refuse p

/-- A write of PAGE_STAT: W1C of WRITE_REFUSED and CONFLICT by every party, of TORN by the holder. -/
def Dev.pageStat (d : Dev) (who : Owner) (p : Page) (v : Nat) : Dev :=
  let d := d.when (bitAt v 10) (fun d => d.setFlag p R.PAGE_STAT_WRITE_REFUSED false)
  let d := d.when (bitAt v 9) (fun d => d.setFlag p R.PAGE_STAT_CONFLICT false)
  d.when (bitAt v 8) (fun d => d.tornClear who p)

-- ==== COMMIT (R52) ====

/-- What a COMMIT sets off beside the fields it applies; `was` is the device before it. -/
def Dev.committed (d was : Dev) (p : Page) : Dev :=
  match p.kind with
  | .pmk => d.ancCommitted
  | .prt =>
    let mm (x : Dev) : Nat × Nat × Nat := (x.fld p R.PRT_MM_EN, x.fld p R.PRT_MM_VERIFY_DIS, x.fld p R.PRT_MM_VERIFY_MS)
    d.when (mm d != mm was) (fun d => d.mmRestart p.inst)
  | .msc => (List.range 4).foldl (fun d j => d.mscShow (4 * p.inst + j)) d
  | .shl => d.lowWater
  | .flt => ((List.range 16).filter d.evoForced).foldl (fun d n => d.emit (.pin n (d.safeLevel n))) d
  | _ => d

/-- COMMIT (R52): refused without the lock, with TORN, or where the core page would be left in an
illegal configuration. -/
def Dev.commitPage (d : Dev) (who : Owner) (p : Page) : Dev :=
  if !d.holds p who || d.flag p R.PAGE_STAT_TORN || (p.kind == .pmk && d.pmkBad) then d.refuse p
  else d.showPin (fun d => (d.applyStaged p).committed d p)

-- ==== claims (R22 to R30) ====

/-- The word of a claim entry. -/
def Dev.claim (d : Dev) (i : Nat) : Nat := d.word sysPg (0x1000 + 4 * i)

/-- The resources a page's configuration names: index, INSTANCE, FEATURE (R280, R284, R295, R312, R384,
R413). -/
def Dev.claimsOf (d : Dev) (p : Page) : List (Nat × Nat × Nat) :=
  let n := p.inst
  match p.kind with
  | .evo =>
    let c := d.fld p R.PMK_EVO_CFG_SOURCE
    (n, n, 1) :: if 2 ≤ c then [(0x30 + c, 0x40 + n, 7)] else []
  | .cap => [(0x20 + d.fld p R.PMK_CAP_CFG_REGION, n, 6)]
  | .dcap => [(0x20 + d.fld p R.DST_CAP_CFG_REGION, n, 5)]
  | .can => (if n < 2 then [(0x10 + n, n, 3)] else [])
      ++ if d.flag p R.EDG_CAN_CFG_TX_TIME_EN then [(0x30 + d.fld p R.EDG_CAN_CFG_TX_WC, n, 7)] else []
  | .lin =>
    let c := d.fld p R.EDG_LIN_CFG_SCHED_WC
    if c = 0 then [] else [(0x30 + c, 0x18 + n, 7)]
  | .dma => (onesOf (d.fld dmaPg R.DMA_SPREAD_MASK_MASK) 64).map (fun g => (0x40 + g, g, 0xB))
  | _ => []

/-- The first named resource that another feature or instance holds; pins that the Night Post holds are
no conflict (R25, R27, R30). Where several conflict at once, the first in the order of claimsOf is the one recorded.
DESIGN CHOICE: assumption 129. -/
def Dev.claimClash (d : Dev) (p : Page) : Option (Nat × Nat × Nat) :=
  (d.claimsOf p).find? (fun c =>
    let w := d.claim c.1
    bitAt w 31 && w % 256 != 4 && !(w % 256 == c.2.2 && bits w 23 16 == c.2.1))

/-- Take every named resource for a party; the pins of CAN 0 and CAN 1 follow when they pass (R30). -/
def Dev.claimTake (d : Dev) (p : Page) (party : Nat) : Dev :=
  (d.claimsOf p).foldl (fun d c =>
    if c.1 = 0x10 || c.1 = 0x11 then d else d.setClaim c.1 (claimWord party c.2.1 c.2.2)) d

/-- FEATURE and INSTANCE under which a page holds what it holds. -/
def claimTag (p : Page) (feature inst : Nat) : Bool :=
  match p.kind with
  | .evo => (feature == 1 && inst == p.inst) || (feature == 7 && inst == 0x40 + p.inst)
  | .cap => feature == 6 && inst == p.inst
  | .dcap => feature == 5 && inst == p.inst
  | .can => (feature == 3 || feature == 7) && inst == p.inst
  | .lin => feature == 7 && inst == 0x18 + p.inst
  | .dma => feature == 0xB
  | _ => false

/-- The indexes of the claim table (R22). -/
def claimIdx : List Nat :=
  List.range 0x12 ++ (List.range 16).map (· + 0x20) ++ (List.range 6).map (· + 0x32) ++ (List.range 64).map (· + 0x40)

/-- Release what a page holds (R24); the pins of CAN 0 and CAN 1 return to the Night Post (R31). -/
def Dev.claimFree (d : Dev) (p : Page) : Dev :=
  claimIdx.foldl (fun d i =>
    let w := d.claim i
    if bitAt w 31 && claimTag p (w % 256) (bits w 23 16) then
      d.setClaim i (if i = 0x10 || i = 0x11 then claimWord 0 (i - 0x10) 4 else 0)
    else d) d

/-- A refused enable (R25, R26). -/
def Dev.claimRefuse (d : Dev) (p : Page) (party : Nat) (c : Nat × Nat × Nat) : Dev :=
  let s := sysPg
  let d := d.when (!d.flag p R.PAGE_STAT_CONFLICT) (fun d => (d.setFlag p R.PAGE_STAT_CONFLICT true).raise p 28)
  (d.record s R.SYS_CLAIM_CONFLICT_RES_VALID R.SYS_CLAIM_CONFLICT_RES_OVERRUN (fun d =>
    let d := d.setFld s R.SYS_CLAIM_CONFLICT_RES_RESOURCE c.1
    let d := d.setFld s R.SYS_CLAIM_CONFLICT_HOLDER (d.claim c.1)
    d.setFld s R.SYS_CLAIM_CONFLICT_REQ (party * 2 ^ 24 + c.2.1 * 2 ^ 16 + c.2.2))).raise s 0

-- ==== HELLO (R488, R496) ====

/-- The firmware version in force: that of the active image slot (R398). -/
def Dev.fwVersion (d : Dev) : Nat :=
  d.fld updPg (R.UPD_SLOT_VER_VERSION.at (b2n (d.flag updPg (R.UPD_SLOT_STAT_ACTIVE.at 1))))

/-- The words of a HELLO (R488). R488 gives their content and no layout: word 0 FAMILY and DIE; word 1 the
unit state [31:28], HOLD [27], SYS_CHAIN.ADDR [19:16], NUMBER [11:8] and STEP [7:0]; words 2–5 the features;
6–9 the identity; 10 the firmware version. DESIGN CHOICE: assumption 14. -/
def Dev.helloWords (d : Dev) (state : Nat) : List Nat :=
  [0x00033980, state * 2 ^ 28 + b2n d.hasClaim * 2 ^ 27 + d.addr * 2 ^ 16
    + d.fld adjPg R.ADJ_CFG_NUMBER * 2 ^ 8 + d.fld adjPg R.PAGE_VER_STEP]
    ++ (List.range 4).map (fun k => d.fld sysPg (R.SYS_DRV_FEATURES_DRV.at k))
    ++ (List.range 4).map (fun k => Config.unitId / 2 ^ (32 * k) % 2 ^ 32) ++ [d.fwVersion]

-- ==== enabling (R46, R47) ====

/-- Pages that refuse a request OFF by their own chapter (R262, R349, R402, R416, R425, R438, R453, R468,
R505). -/
def staysOn (p : Page) : Bool :=
  match p.kind with
  | .flt | .pwr | .key | .wax | .pmk | .upd | .ccl | .dst | .mmu => true
  | _ => false

/-- A working clock a page names that is not enabled (R278). -/
def Dev.wcMissing (d : Dev) (p : Page) : Bool :=
  (d.claimsOf p).any (fun c => decide (0x32 ≤ c.1) && decide (c.1 ≤ 0x37) && c.2.2 == 7 && !d.wcOn (c.1 - 0x30))

/-- A request ON that is refused with WRITE_REFUSED (R46, R64, R262, R278, R315, R384, R413, R460, R485,
R486). -/
def Dev.enBarred (d : Dev) (p : Page) : Bool :=
  match p.kind with
  | .msc => !d.feature 3
  | .npt => !d.feature 10
  | .dma => !d.feature 13
  | .adj =>
    !d.feature 4 || d.fld adjPg R.ADJ_CFG_NUMBER == 0
      || (onesOf (d.fld adjPg R.ADJ_SHARED_EVO_EVO) 16).any (fun n => d.safeLevel n != 2)
      || (onesOf (d.fld adjPg R.ADJ_SHARED_CAN_CAN) 24).any (fun n => decide (64 < d.fld (canPg n) R.EDG_CAN_TRX_SETTLE_US))
  | .evo => !d.isOn pmkPg || d.wcMissing p
  | .cap => !d.isOn pmkPg
  | .can | .lin => d.wcMissing p
  | .dcap =>
    let s := d.fld p R.DST_CAP_CFG_SESSION
    d.fld dstPg (R.DST_CAPR_SIZE_MIB.at (d.fld p R.DST_CAP_CFG_REGION)) == 0
      || (List.range 16).any (fun r => r != p.inst && d.state (dcapPg r) != 0 && d.fld (dcapPg r) R.DST_CAP_CFG_SESSION == s)
  | _ => false

/-- The hall starts (R204): the free list is rebuilt, the cell and spill-block accounts take their totals, DRIFT clears
in every kind, and one census runs. -/
def Dev.hallStart (d : Dev) : Dev :=
  let d := d.withHall (fun h => { h with drift := (h.drift.erase 0).erase 1 })
  ((List.range 5).foldl (fun d k => d.setFld shlPg (R.SHL_AUDIT_STAT_DRIFT.at k) 0) d).census 0

/-- What STARTING does as it begins (R166, R204, R232, R248, R262, R284, R293, R295, R413, R460). -/
def Dev.starting (d : Dev) (p : Page) : Dev :=
  let n := p.inst
  match p.kind with
  | .prt => d.portStart n
  | .fwl => d.fwStart
  | .bur => d.emRefill
  | .sch => d.schStart n
  | .frk => d.frkStart
  | .shl => d.hallStart
  | .pmk => d.pmkStart
  | .cap => d.popEmpty (2 + d.fld p R.PMK_CAP_CFG_REGION)
  | .dcap => d.capStart n
  | .msc => d.mscClear (fun port => port / 4 == n)
  | .can =>
    let d := (d.setFlag p R.EDG_CAN_STAT_SYNC false).setFld p R.EDG_CAN_TDC_MEASURED 0
    if n < 2 then d else (d.setFlag p R.EDG_CAN_STAT_PINS true).trxUpdate n
  | _ => d

/-- What a page does as it reaches ON. -/
def Dev.started (d : Dev) (p : Page) : Dev :=
  let n := p.inst
  match p.kind with
  | .evo => d.evoArm n
  | .npt => d.npDrive true
  | .adj => ((d.adjPut 1).setFld adjPg R.ADJ_STAT_LANES 3).shareMute
  | .can =>
    let d := match (d.can n).trxGoing with
      | some g => (d.setCan n { d.can n with trxGoing := none }).setFld p R.EDG_CAN_TRX_STATE g
      | none => d
    d.trxUpdate n
  | .msc => (List.range 4).foldl (fun d j => d.mscShow (4 * n + j)) d
  | _ => d

/-- Free every queued and spilled copy as the hall stops (R204); spill writes and reads under way are withdrawn, and the
cells of those writes are free. -/
def Dev.hallStop (d : Dev) : Dev :=
  let qs := d.hall.queues
  let ws := d.hall.writing
  let d := { d with hall := { d.hall with queues := [], writing := [] } }
  let d := ws.foldl (fun d w => (d.dsWithdraw 0 w.2).endCopy w.2) d
  let d := (qs.flatMap (fun e => e.2.refill.toList)).foldl (fun d c => d.dsWithdraw 1 c.frm.id) d
  qs.foldl (fun d e => e.2.all.foldl (fun d c => (d.endOf c).shlCnt 18) d) d

/-- What STOPPING does as it begins (R95, R204, R232, R295, R315, R384, R486). -/
def Dev.stopping (d : Dev) (p : Page) : Dev :=
  let n := p.inst
  match p.kind with
  | .prt => (d.setTc10 n 0).setPort n { d.port n with closed := true, tc10Drain := false }
  | .shl => d.hallStop
  | .sch => d.schStop n
  | .can => d.canDiscard n 7
  | .lin => d.linStop n
  | .dma => (List.range 128).foldl (fun d i =>
      if d.qState i = 3 then d.setFld dmaPg (R.DMA_Q_STAT_PENDING.at i) 2 else d.qStop i) d
  | .npt => d.npStop
  | .adj =>
    let d := d.claimDrop
    ((d.adjSend 1 (d.helloWords 0)).adjPut 0).setFld adjPg R.ADJ_STAT_LANES 0
  | _ => d

/-- What the stop of a page has to wait for is over. -/
def Dev.stopReady (d : Dev) (p : Page) : Bool :=
  let n := p.inst
  match p.kind with
  | .prt => (d.txOf n).isEmpty && (List.range 8).all (fun q => (d.queue (qIdx n q)).all.isEmpty)
  | .shl => d.hall.held.all (fun e => (d.hall.stored.get? e.1).isSome) && d.hall.queues.all (fun e => e.2.all.isEmpty)
  | .bur => d.bur.flights.isEmpty
  | .can => (d.can n).wire.isNone
  | .dma => (List.range 128).all (fun i => d.qState i == 0)
  | .npt => d.npt.relay.isNone
  | .evo => !(d.evo n).high
  | _ => true

/-- What a page does as it reaches OFF. -/
def Dev.stopped (d : Dev) (p : Page) : Dev :=
  let n := p.inst
  match p.kind with
  | .prt =>
    let d := ((d.setWord p 0xA0 0).setWord p 0x104 0).setWord p 0x128 0
    { d with ports := d.ports.erase n }
  | .can =>
    let st := d.fld p R.EDG_CAN_CFG_STOP_TRX
    let d := (d.modePins n st).setFld p R.EDG_CAN_TRX_STATE st
    let d := (d.setFlag p R.EDG_CAN_STAT_PINS false).setFlag p R.EDG_CAN_STAT_SYNC false
    d.setCan n { d.can n with trxGoing := none, trxPend := none }
  | .lin => d.setLin n { len := (d.lin n).len, seqNum := (d.lin n).seqNum, rx := (d.lin n).rx }
  | .evo => (d.evoDrive n false).setFlag p R.PMK_EVO_STAT_ARMED false
  | .dcap => d.capStop n
  | .npt => d.npDrive false
  | .msc => d.mscClear (fun port => port / 4 == n)
  | .adj => d.withAdj (fun a => { seqs := a.seqs, hello := a.hello, nextTag := a.nextTag, remote := a.remote })
  | _ => d

/-- The shared outputs of a unit that has left the pair are its own again. -/
def Dev.shareBack (d : Dev) : Dev :=
  let d := d.sharedCans.foldl Dev.trxUpdate d
  ((onesOf (d.fld adjPg R.ADJ_SHARED_EVO_EVO) 16).filter (fun n => d.isOn (evoPg n))).foldl
    (fun d n => d.evoDrive n (d.evo n).high) d

/-- A request ON in OFF (R46): refused, refused for a conflict, or STARTING begins. A refused request leaves
EN as it is. -/
def Dev.turnOn (d : Dev) (p : Page) (party : Nat) : Dev :=
  if d.enBarred p then d.refuse p
  else match d.claimClash p with
    | some c => d.claimRefuse p party c
    | none =>
      let d := (d.claimTake p party).setFld p R.PAGE_CTRL_EN 1
      let d := { d with party := d.party.set p.idx party }
      (d.setState p 1).starting p

/-- A request OFF in ON (R46). -/
def Dev.turnOff (d : Dev) (p : Page) : Dev := ((d.setFld p R.PAGE_CTRL_EN 2).setState p 3).stopping p

/-- A request of a party for ON or OFF (R46). The party of a request ON in STARTING is not recorded: the claims
are those of the request that began it. -/
def Dev.enRequest (d : Dev) (party : Nat) (p : Page) (on : Bool) : Dev :=
  let st := d.state p
  if !on && staysOn p then d.refuse p
  else if st = 1 || st = 3 then
    let d := (d.setFld p R.PAGE_STAT_PENDING (if on then 1 else 2)).setFld p R.PAGE_CTRL_EN (if on then 1 else 2)
    d.when (on && st == 3) (fun d => { d with party := d.party.set p.idx party })
  else if st = 0 && on then d.turnOn p party
  else if st = 2 && !on then d.turnOff p
  else d

/-- STARTING ends (R46): ON, or on to STOPPING with OFF pending. -/
def Dev.startEnd (d : Dev) (p : Page) : Dev :=
  let off := d.fld p R.PAGE_STAT_PENDING = 2
  let d := ((d.setFld p R.PAGE_STAT_PENDING 0).setState p 2).started p
  if off then d.turnOff p else d

/-- STOPPING ends (R46): OFF, claims are released, a pending ON is handled as a request in OFF. A pending
ON that is refused leaves EN at 0b10. DESIGN CHOICE: assumption 15. -/
def Dev.stopEnd (d : Dev) (p : Page) : Dev :=
  let on := d.fld p R.PAGE_STAT_PENDING = 1
  let d := ((d.stopped p).claimFree p).setFld p R.PAGE_STAT_PENDING 0
  let d := d.setState p 0
  let d := d.when (p.kind == .adj) Dev.shareBack
  let d := d.when (p.kind == .prt || p.kind == .msc) (fun d => { d with awake := d.awake.filter (· != p.domain) })
  if on then (d.setFld p R.PAGE_CTRL_EN 2).turnOn p (d.party.getD p.idx 0) else d

/-- The start of a page is complete; CAN 0 and CAN 1 wait for their pins (R30). -/
def Dev.startDone (d : Dev) (p : Page) : Dev :=
  if d.state p = 1 && !(p.kind == .can && p.inst < 2 && !d.flag p R.EDG_CAN_STAT_PINS) then d.startEnd p else d

/-- The stop of a page is complete. -/
def Dev.stopDone (d : Dev) (p : Page) : Dev := if d.state p = 3 && d.stopReady p then d.stopEnd p else d

-- ==== DMA queues (R385) ====

/-- A request for ON or OFF of a queue. -/
def Dev.qRequest (d : Dev) (i : Nat) (on : Bool) : Dev :=
  let st := d.qState i
  let en (d : Dev) : Dev := d.setFld dmaPg (R.DMA_Q_CTRL_EN.at i) (if on then 1 else 2)
  if on && !d.isOn dmaPg then d.refuse dmaPg
  else if st = 1 || st = 3 then (en d).setFld dmaPg (R.DMA_Q_STAT_PENDING.at i) (if on then 1 else 2)
  else if st = 0 && on then
    let d := (en d).setQState i 1
    ((d.setFld dmaPg (R.DMA_Q_HEAD_HEAD.at i) 0).setFld dmaPg (R.DMA_Q_TAIL_TAIL.at i) 0).setFld dmaPg
      (R.DMA_Q_STAT_ERR.at i) 0
  else if st = 2 && !on then (en d).setQState i 3
  else d

/-- STARTING of a queue ends. -/
def Dev.qStarted (d : Dev) (i : Nat) : Dev :=
  if d.qState i ≠ 1 then d
  else
    let off := d.qf i R.DMA_Q_STAT_PENDING = 2
    let d := (d.setFld dmaPg (R.DMA_Q_STAT_PENDING.at i) 0).setQState i 2
    if off then d.setQState i 3 else d

/-- STOPPING of a queue ends, once a transmit queue has finished what it reads and waits for. -/
def Dev.qStopped (d : Dev) (i : Nat) : Dev :=
  let q := d.dmaQ i
  if d.qState i ≠ 3 || !q.reads.isEmpty || !q.wbs.isEmpty then d
  else
    let on := d.qf i R.DMA_Q_STAT_PENDING = 1
    let d := ((d.setFld dmaPg (R.DMA_Q_STAT_PENDING.at i) 0).setDmaQ i {}).setQState i 0
    if on then (d.setFld dmaPg (R.DMA_Q_CTRL_EN.at i) 2).qRequest i true else d

-- ==== PAGE_CTRL (R53) ====

/-- A write of PAGE_CTRL: acquisition, COMMIT, EN, release. -/
def Dev.pageCtrl (d : Dev) (who : Owner) (p : Page) (v : Nat) : Dev :=
  let d := d.when (bits v 9 8 == 1) (fun d => d.lockTake who p)
  let d := d.when (bitAt v 4) (fun d => d.commitPage who p)
  let d := d.when (bits v 1 0 == 1 || bits v 1 0 == 2) (fun d =>
    if d.mayWrite p who then d.enRequest who.code p (bits v 1 0 == 1) else d.refuse p)
  d.when (bits v 9 8 == 2) (fun d => d.lockDrop who p)

-- ==== features (R63 to R66) ====

/-- The requested set, as one number. -/
def Dev.wanted (d : Dev) : Nat :=
  (List.range 4).foldl (fun w k => w + d.fld sysPg (R.SYS_DRV_FEATURES_DRV.at k) * 2 ^ (32 * k)) 0

/-- Show a set in SYS_DRV_FEATURES. -/
def Dev.showFeatures (d : Dev) (w : Nat) : Dev :=
  (List.range 4).foldl (fun d k => d.setFld sysPg (R.SYS_DRV_FEATURES_DRV.at k) (w / 2 ^ (32 * k))) d

/-- The lowest set bit below 128. -/
def lowest (w : Nat) : Option Nat := (onesOf w 128).head?

/-- The pages a feature bit governs, as R46 refuses their ON without it. DEDUCED: assumption 16. -/
def governs (bit : Nat) : List Page :=
  if bit = 3 then (List.range 6).map (fun n => ⟨.msc, n⟩)
  else if bit = 4 then [adjPg] else if bit = 10 then [nptPg] else if bit = 13 then [dmaPg] else []

/-- The first test the requested set `w` fails: REASON and BIT (R65). -/
def Dev.featureFault (d : Dev) (w : Nat) : Option (Nat × Nat) :=
  match lowest (w - w % 2 ^ 14) with
  | some b => some (1, b)
  | none =>
    if !bitAt w 0 then some (2, 0)
    else ((onesOf d.features 14).find? (fun b => !bitAt w b && (governs b).any (fun p => d.state p != 0))).map (fun b => (3, b))

/-- A write of ACCEPT (R65). -/
def Dev.featGo (d : Dev) (v : Nat) : Dev :=
  if bitAt v 0 then
    { (d.setFlag sysPg R.SYS_FEATURES_OK_FAILED false).setWord sysPg 0x124 0 with featBusy := some d.wanted }
  else d

/-- The negotiation ends (R65): the set that ACCEPT found is judged. -/
def Dev.featDone (d : Dev) : Dev :=
  match d.featBusy with
  | none => d
  | some w =>
    let d := { d with featBusy := none }
    match d.featureFault w with
    | none => { d.setFlag sysPg R.SYS_FEATURES_OK_OK true with features := w }
    | some (r, b) =>
      let d := (d.setFlag sysPg R.SYS_FEATURES_OK_FAILED true).setFld sysPg R.SYS_FEATURES_FAIL_REASON r
      (d.setFld sysPg R.SYS_FEATURES_FAIL_BIT b).showFeatures d.features

-- ==== fault injection (R143) ====

/-- The checkers each page lists. -/
def checkers (p : Page) : List Nat :=
  match p.kind with
  | .flt | .npt | .mmu | .key | .wax => [0]
  | .pwr | .msc => [0, 1, 2, 3]
  | .can => if p.inst = 0 then [0, 1, 2, 3] else []
  | .adj => [0, 1, 2]
  | .bur => [0, 1, 2, 3] ++ (List.range 14).map (· + 0x10)
  | .fwl => List.range 12
  | .shl => List.range 6 ++ [0x10, 0x11, 0x12]
  | .sch | .dst | .pmk => [0, 1]
  | .frk => List.range 6
  | .ccl => List.range 6 ++ [0x10, 0x11, 0x12, 0x13]
  | _ => []

/-- The time core's checker 1 acts at once: a CLOCK fault (R288). -/
def Dev.injectNow (d : Dev) (p : Page) (c : Nat) : Dev :=
  if p.kind == .pmk && c == 1 then (d.disarm p c).fault { cls := 4, page := p, checker := 1, injected := true } else d

/-- A write of FLT_INJ (R143): CHECKER takes the value, GO arms it for its next use. A GO with the index of
no checker of the page is refused, a second one before the first has acted is ignored. -/
def Dev.fltInj (d : Dev) (p : Page) (v : Nat) : Dev :=
  let c := v % 256
  if bitAt v 31 && !(checkers p).contains c then d.refuse p
  else
    let d := d.setFld p R.FLT_INJ_CHECKER c
    d.when (bitAt v 31 && !d.armed.any (fun x => x.1 == p.idx)) (fun d =>
      Dev.injectNow { d with armed := d.armed ++ [(p.idx, c)] } p c)

-- ==== snapshots (R57, R58) ====

/-- The counters of a page, by offset. -/
def Page.counterOffs (p : Page) : List Nat :=
  p.kind.counterAreas.flatMap (fun a => (List.range (a.2 / 8)).map (fun i => a.1 + 8 * i))

/-- A write of SNAP: every counter of the instance is captured at this edge, accesses decoded later are
held. -/
def Dev.snapGo (d : Dev) (p : Page) (v : Nat) : Dev :=
  if !bitAt v 0 || d.snapBusy.contains p.idx then d
  else
    let mine : NMap Nat := d.counts.filter (fun e => e.1 / pageSpan == p.idx)
    let rest : NMap Nat := d.snaps.filter (fun e => e.1 / pageSpan != p.idx)
    let d : Dev := { d with snaps := mine.foldl (fun m e => m.set e.1 e.2) rest, snapBusy := d.snapBusy ++ [p.idx] }
    let d := d.when (p.kind == .frk) (fun d => { d with frk := { d.frk with snaps := d.frk.cnts } })
    d.setFld p R.SNAP_TIME_TIME d.time

end Sys2Proof.Machine
end

