-- ==== Sys2Proof/Machine/LbxOps.lean ====
section
/-! DEFINITION. The Letterbox (14): mailboxes, their transitions (R396), the framing checks (R395) and
the pair that serves a code (R397, R432, R520). -/

namespace Sys2Proof.Machine

/-- STATE of a mailbox: 0 IDLE, 1 QUEUED, 2 RUNNING, 3 DONE. -/
def Dev.mbState (d : Dev) (m : Nat) : Nat := d.fld lbxPg (R.LBX_MB_STAT_STATE.at m)

/-- Set it. -/
def Dev.setMb (d : Dev) (m st : Nat) : Dev := d.setFld lbxPg (R.LBX_MB_STAT_STATE.at m) st

/-- The party of a mailbox (R394). -/
def mbParty (m : Nat) : Nat := if m < 2 then 1 else if m = 2 then 2 else 7

/-- Offset of word `i` of the request of a mailbox. -/
def reqOff (m i : Nat) : Nat := 0x800 + 0x200 * m + 4 * i
/-- Offset of word `i` of its response. -/
def respOff (m i : Nat) : Nat := 0x900 + 0x200 * m + 4 * i

/-- Set the 64 words of the response. -/
def Dev.setResp (d : Dev) (m : Nat) (ws : List Nat) : Dev :=
  (List.range 64).foldl (fun d i => d.setWord lbxPg (respOff m i) (ws.getD i 0)) d

/-- Change what the Letterbox keeps beside its page. -/
def Dev.withLbx (d : Dev) (f : Lbx → Lbx) : Dev := { d with lbx := f d.lbx }

/-- The pair a code range belongs to (R397); codes outside them are ended by pair 0. -/
def codePair (code : Nat) : Nat :=
  let r := code / 256
  if r = 0x07 ∨ r = 0x09 ∨ r = 0x0B ∨ r = 0x0C then 2 else if r = 0x0F then 3 else 0

/-- The boot loader serves this code in Hold (R520). -/
def Dev.holdServes (d : Dev) (m code : Nat) : Bool :=
  d.flag bootPg R.BOOT_STATUS_HOLD && decide (m < 3) && decide (0x0F01 ≤ code) && decide (code ≤ 0x0F06)

/-- What R395 asks of a code: its lengths (a range), the mailboxes it is open to (bit m), the feature bit
that governs it. The features are DEDUCED: assumption 17. -/
structure CodeRow where
  code : Nat
  lo : Nat
  hi : Nat
  boxes : Nat := 0xF
  feature : Option Nat := none
  deriving DecidableEq, Repr

/-- The commands of the Letterbox (R200, R258, R398, R415, R437, R466, R478, R504, R509, R513). -/
def codeRows : List CodeRow :=
  [⟨0x0001, 0, 62, 0xF, none⟩, ⟨0x0002, 0, 0, 0xF, none⟩, ⟨0x0710, 11, 11, 0xF, some 9⟩,
   ⟨0x0711, 1, 1, 0xF, some 9⟩, ⟨0x0712, 4, 4, 0x3, some 9⟩, ⟨0x0900, 3, 3, 0x3, none⟩,
   ⟨0x0B01, 10, 10, 0xF, some 3⟩, ⟨0x0B02, 1, 1, 0xF, some 3⟩, ⟨0x0C01, 5, 5, 0x3, none⟩,
   ⟨0x0D01, 0, 0, 0xF, none⟩, ⟨0x0E01, 0, 0, 0xF, some 4⟩, ⟨0x0F01, 2, 2, 0x7, none⟩,
   ⟨0x0F02, 4, 62, 0x7, none⟩, ⟨0x0F03, 1, 1, 0x7, none⟩, ⟨0x0F04, 3, 3, 0x7, none⟩,
   ⟨0x0F05, 1, 1, 0x7, none⟩, ⟨0x0F06, 1, 1, 0x7, none⟩, ⟨0x0F10, 4, 4, 0x7, none⟩,
   ⟨0x1001, 4, 4, 0x3, none⟩, ⟨0x1002, 0, 0, 0xF, none⟩]

/-- The row of a code. -/
def codeRow (code : Nat) : Option CodeRow := codeRows.find? (fun r => r.code == code)

/-- FRAMING of a request (R395), 0 OK; the tests in the order of the encoding. UPD_BLOCK with inline data
has the words of its BYTES, with an IOVA six, and is then open to mailboxes 0 and 1 only (R513). -/
def Dev.framing (d : Dev) (m code len : Nat) (body : List Nat) : Nat :=
  match codeRow code with
  | none => 1
  | some r =>
    let w0 := body.getD 0 0
    let inline := bitAt w0 1
    let blockLen := if inline then len == 4 + (min (body.getD 2 0 % 2 ^ 17) 232 + 3) / 4 else len == 6
    if len < r.lo ∨ r.hi < len then 2
    else if code = 0x0F02 ∧ !blockLen then 2
    else if !bitAt r.boxes m || (code == 0x0F02 && !inline && decide (1 < m)) then 3
    else match r.feature with
      | some f => if d.feature f then 0 else 4
      | none => 0

/-- A mailbox reaches DONE with its response (R395, R399). -/
def Dev.mbDone (d : Dev) (m code seq goAt framing : Nat) (body : List Nat) : Dev :=
  let us := min ((d.now - goAt) / usTicks) 0xFFFF
  let h0 := code * 2 ^ 16 + seq * 2 ^ 8 + body.length
  let h1 := us * 2 ^ 16 + framing * 2 ^ 8 + d.addr
  ((d.setResp m (h0 :: h1 :: body)).setMb m 3).raise lbxPg m

/-- A request is submitted (R396); an event that ends Idle where pair 2 or 3 serves it (R346). -/
def Dev.mbGo (d : Dev) (m : Nat) : Dev :=
  let st := d.mbState m
  if st = 1 || st = 2 then d.refuse lbxPg
  else
    let d := (d.setResp m []).setMb m 1
    let d := d.withLbx (fun l => { l with go := l.go.set m (l.order, d.now), order := l.order + 1 })
    d.when (decide (2 ≤ codePair (d.word lbxPg (reqOff m 0) / 2 ^ 16))) Dev.idleReturn

/-- A write of LBX_MBm_CTRL by `who` (R394, R396). -/
def Dev.mbCtrl (d : Dev) (who : Owner) (m v : Nat) : Dev :=
  if who.code ≠ mbParty m then d.refuse lbxPg else d.when (bitAt v 31) (fun d => d.mbGo m)

/-- A write of a word of the request area of mailbox `m` (R394, R396). -/
def Dev.mbReq (d : Dev) (who : Owner) (m off v : Nat) : Dev :=
  let st := d.mbState m
  if who.code ≠ mbParty m || st = 1 || st = 2 then d.refuse lbxPg else d.setWord lbxPg off v

/-- Mailboxes QUEUED before `m` for the same pair. -/
def Dev.mbAhead (d : Dev) (m : Nat) : Bool :=
  let pairOf (k : Nat) : Nat := codePair (d.word lbxPg (reqOff k 0) / 2 ^ 16)
  let ord (k : Nat) : Nat := (d.lbx.go.getD k (0, 0)).1
  (List.range 4).any (fun k => d.mbState k == 1 && pairOf k == pairOf m && decide (ord k < ord m))

/-- The serving pair takes the request of a mailbox (R396, R397, R432): the framing checks come first; with
both pairs 2 and 3 FAILED a command of their codes ends with RESTARTED. -/
def Dev.mbTake (d : Dev) (m : Nat) : Dev :=
  let w := d.word lbxPg (reqOff m 0)
  let code := w / 2 ^ 16
  let seq := bits w 15 8
  let len := w % 64
  let body := (List.range len).map (fun i => d.word lbxPg (reqOff m (2 + i)))
  let goAt := (d.lbx.go.getD m (0, 0)).2
  let n := codePair code
  let k := d.carrier n
  let held := d.flag bootPg R.BOOT_STATUS_HOLD
  let dead := decide (2 ≤ n) && d.pairState 2 == 5 && d.pairState 3 == 5
  if d.mbState m ≠ 1 || d.mbAhead m then d
  else if held && !d.holdServes m code then d
  else if !held && !dead && d.pairState k != 1 then d
  else
    let fr := d.framing m code len body
    if fr ≠ 0 then d.mbDone m code seq goAt fr []
    else if dead then d.mbDone m code seq goAt 5 []
    else (d.setMb m 2).withLbx (fun l => { l with runs := l.runs ++ [⟨m, code, seq, body, goAt, k, false, d.now⟩] })

/-- Codes whose end writes the flash: the update's, CONFIG_SAVE and ARCHIVE_NOW (R478, R509, R511, R514). -/
def flashCode (code : Nat) : Bool := (decide (0x0F01 ≤ code) && decide (code ≤ 0x0F10)) || code == 0x1002

/-- The command with this code that a mailbox runs and may end: one that writes the flash waits for the end of a PFAIL
warning before which it had not begun (R481). -/
def Dev.mbRun (d : Dev) (m code : Nat) : Option MbRun :=
  d.lbx.runs.find? (fun r => r.box == m && r.code == code && !(flashCode code && d.flashHeld r.since))

/-- A command ends (R396): its response is written, or discarded with its party gone. -/
def Dev.mbEnd (d : Dev) (r : MbRun) (framing : Nat) (body : List Nat) : Dev :=
  let d := d.withLbx (fun l => { l with runs := l.runs.filter (· != r) })
  if r.dead then d else d.mbDone r.box r.code r.seq r.goAt framing body

/-- Run a command that a mailbox has running to its end: `f` answers the response words and the device. -/
def Dev.mbServe (d : Dev) (m code : Nat) (f : Dev → MbRun → List Nat × Dev) : Dev :=
  match d.mbRun m code with
  | some r =>
    let (ws, d) := f d r
    d.mbEnd r 0 ws
  | none => d

/-- A reset event of the party of mailboxes (R396): what is QUEUED is discarded, what runs goes on and its
response is discarded. -/
def Dev.mbOwnerReset (d : Dev) (code : Nat) : Dev :=
  let boxes := (List.range 4).filter (fun m => mbParty m == code && (d.mbState m == 1 || d.mbState m == 2))
  let d := d.withLbx (fun l => { l with
    runs := l.runs.map (fun r => if boxes.contains r.box then { r with dead := true } else r) })
  boxes.foldl (fun d m => d.setMb m 0) d

/-- The commands a pair runs end with RESTARTED (R396, R430). -/
def Dev.mbRestart (d : Dev) (pair : Nat) : Dev :=
  (d.lbx.runs.filter (fun r => r.pair == pair)).foldl (fun d r => d.mbEnd r 5 []) d

/-- A reset event of a party (R45): its locks (R55), Wax contexts (R454), mover channels (R420) and
mailboxes (R396). -/
def Dev.ownerEvent (d : Dev) (code : Nat) : Dev :=
  ((d.ownerReset code).movOwnerReset code).mbOwnerReset code

end Sys2Proof.Machine
end

