-- ==== Sys2Proof/Machine/HeaderCmds.lean ====
section
/-! DEFINITION. The commands of the common page header (02), of claims and of feature negotiation. -/

namespace Sys2Proof.Machine

/-- LOCK_ACQUIRE (R49). -/
def execLockAcquire (who : Owner) (p : Page) (s : State) : Answer :=
  s.run (fun d => d.gateW who p 0x08 0x100 (fun d => d.pageCtrl who p 0x100))

/-- LOCK_RELEASE (R54). -/
def execLockRelease (who : Owner) (p : Page) (s : State) : Answer :=
  s.run (fun d => d.gateW who p 0x08 0x200 (fun d => d.pageCtrl who p 0x200))

/-- COMMIT (R52). -/
def execCommit (who : Owner) (p : Page) (s : State) : Answer :=
  s.run (fun d => d.gateW who p 0x08 0x10 (fun d => d.pageCtrl who p 0x10))

/-- The value of EN that asks for ON or OFF. -/
def enCode (on : Bool) : Nat := if on then 1 else 2

/-- PAGE_EN_REQUEST (R46, R385): a page, or a DMA queue. -/
def execPageEnRequest (who : Owner) (u : Unit') (on : Bool) (s : State) : Answer :=
  s.run (fun d =>
    match u with
    | .page p => d.gateW who p 0x08 (enCode on) (fun d => d.pageCtrl who p (enCode on))
    | .rxq q => d.gateW who dmaPg (0x1000 + 0x40 * q.val) (enCode on) (fun d => d.qRequest q on)
    | .txq q => d.gateW who dmaPg (0x2000 + 0x40 * q.val) (enCode on) (fun d => d.qRequest (64 + q) on))

/-- START_COMPLETE (R46, R385). -/
def execStartComplete (u : Unit') (s : State) : Answer :=
  s.run (fun d =>
    match u with
    | .page p => d.startDone p
    | .rxq q => d.qStarted q
    | .txq q => d.qStarted (64 + q))

/-- STOP_COMPLETE (R46, R385). -/
def execStopComplete (u : Unit') (s : State) : Answer :=
  s.run (fun d =>
    match u with
    | .page p => d.stopDone p
    | .rxq q => d.qStopped q
    | .txq q => d.qStopped (64 + q))

/-- PORT_LANES_DOWN (R95): the lanes of a stopping port that has sent its last frame power down. -/
def execPortLanesDown (p : Fin 40) (s : State) : Answer := s.runMain (fun d => d.stopDone (prtPg p))

/-- TORN_CLEAR (R56). -/
def execTornClear (who : Owner) (p : Page) (s : State) : Answer :=
  s.run (fun d => d.gateW who p 0x0C 0x100 (fun d => d.pageStat who p 0x100))

/-- LOCK_OWNER_RESET (R55). -/
def execLockOwnerReset (owner : Owner) (s : State) : Answer := s.run (fun d => d.ownerEvent owner.code)

/-- SNAPSHOT (R58); a page without counters has no SNAP register (R57). -/
def execSnapshot (who : Owner) (p : Page) (s : State) : Answer :=
  s.run (fun d => d.gateW who p 0x40 1 (fun d => d.when (!p.kind.counterAreas.isEmpty) (fun d => d.snapGo p 1)))

/-- FAULT_INJECT (R143). -/
def execFaultInject (who : Owner) (p : Page) (checker : Byte) (s : State) : Answer :=
  let v := 2 ^ 31 + checker.toNat
  s.run (fun d => d.gateW who p 0x28 v (fun d => d.fltInj p v))

/-- FEATURES_ACCEPT (R65). -/
def execFeaturesAccept (who : Owner) (s : State) : Answer :=
  s.run (fun d => d.gateW who sysPg 0x120 1 (fun d => d.featGo 1))

/-- FEATURES_DONE (R65). -/
def execFeaturesDone (s : State) : Answer := s.runMain Dev.featDone

/-- CAN_PINS_PASS (R31, R298): the pins of CAN 0 or CAN 1 pass from the Night Post once no relay
transaction is in progress and the controller has integrated. -/
def execCanPinsPass (bus : Fin 2) (s : State) : Answer :=
  s.runMain (fun d =>
    let n := bus.val
    let p := canPg n
    let st := d.state p
    let busy := match d.npt.relay with
      | some r => r.onOffer && !r.viaCan1
      | none => false
    if d.round = 2 || d.round = 3 || busy || !(st == 1 || st == 2) || d.flag p R.EDG_CAN_STAT_PINS
        || !d.flag p R.EDG_CAN_STAT_SYNC then d
    else
      let d := d.setClaim (0x10 + n) (claimWord (d.party.getD p.idx 0) n 3)
      let d := (d.setFlag p R.EDG_CAN_STAT_PINS true).raise p 6
      let d := (d.setCan n { d.can n with trxGoing := none, trxPend := none }).setFld p R.EDG_CAN_TRX_STATE 0
      if st = 1 then d.startEnd p else d.trxUpdate n)

end Sys2Proof.Machine
end

