-- ==== Sys2Proof/Machine/KeyCmds.lean ====
section
/-! DEFINITION. The meanings of the key, tamper and Wax commands (17). -/

namespace Sys2Proof.Machine

/-- A write of KEY_CMD. -/
def Dev.keyWrite (d : Dev) (who : Owner) (v : Nat) : Dev :=
  d.gateW who keyPg 0xC0 v (fun d => d.keyGo who v)

/-- GO with an OP of KEY_CMD on a slot. -/
def keyCmd (op : Nat) (slot : BitVec 8) : Nat := 2 ^ 31 + op * 2 ^ 24 + slot.toNat * 2 ^ 16

/-- KEY_GENERATE (R445). -/
def execKeyGenerate (who : Owner) (slot : BitVec 8) (s : State) : Answer :=
  s.run (fun d => d.keyWrite who (keyCmd 1 slot))

/-- KEY_DERIVE (R446): from the root, or from slot `parent`, in FORMAT 0 or 1. -/
def execKeyDerive (who : Owner) (slot : BitVec 8) (root : Bool) (parent : BitVec 8) (format : Fin 2)
    (s : State) : Answer :=
  s.run (fun d => d.keyWrite who
    (keyCmd 2 slot + b2n root * 2 ^ 30 + parent.toNat * 2 ^ 8 + format.val))

/-- KEY_LOAD (R445). -/
def execKeyLoad (who : Owner) (slot : BitVec 8) (s : State) : Answer :=
  s.run (fun d => d.keyWrite who (keyCmd 3 slot))

/-- KEY_IMPORT (R447). -/
def execKeyImport (who : Owner) (slot parent : BitVec 8) (s : State) : Answer :=
  s.run (fun d => d.keyWrite who (keyCmd 4 slot + parent.toNat * 2 ^ 8))

/-- KEY_UNWRAP_KW (R447). -/
def execKeyUnwrapKw (who : Owner) (slot parent : BitVec 8) (s : State) : Answer :=
  s.run (fun d => d.keyWrite who (keyCmd 5 slot + parent.toNat * 2 ^ 8))

/-- KEY_WRAP_KW (R447). -/
def execKeyWrapKw (who : Owner) (slot parent : BitVec 8) (s : State) : Answer :=
  s.run (fun d => d.keyWrite who (keyCmd 6 slot + parent.toNat * 2 ^ 8))

/-- KEY_SET_ATTR (R445). -/
def execKeySetAttr (who : Owner) (slot : BitVec 8) (s : State) : Answer :=
  s.run (fun d => d.keyWrite who (keyCmd 7 slot))

/-- KEY_DESTROY (R445). -/
def execKeyDestroy (who : Owner) (slot : BitVec 8) (s : State) : Answer :=
  s.run (fun d => d.keyWrite who (keyCmd 8 slot))

/-- KEY_CMD_DONE (R445): the running command completes; `stored` says that a key-record copy, where
one is due, was written (R443). -/
def execKeyCmdDone (stored : Bool) (s : State) : Answer := s.run (fun d => d.keyDone stored)

/-- TAMPER_DETECT (R448): a source fires, 0 PIN, 1 VSTBY, 2 CLOCK, 3 TEMP. -/
def execTamperDetect (source : Fin 4) (s : State) : Answer := s.run (fun d => d.tamper source)

/-- TAMPER_FUSE_DONE (R448): the fuse is programmed and the key record cannot be read. -/
def execTamperFuseDone (s : State) : Answer :=
  s.run (fun d =>
    if d.flag keyPg R.KEY_TAMPER_STAT_FUSE_PENDING then
      let d := d.withKeys (fun k => { k with tamperFuses := min (k.tamperFuses + 1) 32, record := none })
      (d.setFlag keyPg R.KEY_TAMPER_STAT_FUSE_PENDING false).lockoutEnd
    else d)

/-- ROOT_REVOKE_DONE (R448): the revoke fuse of the bank in use is programmed, after the tamper fuse. -/
def execRootRevokeDone (s : State) : Answer :=
  s.run (fun d =>
    if d.keys.revokeDue && !d.flag keyPg R.KEY_TAMPER_STAT_FUSE_PENDING then
      d.withKeys (fun k => { k with revokeDue := false, revA := k.revA || k.bank == some 0,
                                    revB := k.revB || k.bank == some 1 })
    else d)

/-- TAMPER_SOURCE_INACTIVE (R450). -/
def execTamperSourceInactive (source : Fin 4) (s : State) : Answer :=
  s.run (fun d => (d.withKeys (fun k => { k with active := k.active &&& (0xF - 2 ^ source.val) })).lockoutEnd)

/-- A write of WAX_CTXc_CTRL. -/
def Dev.waxWrite (d : Dev) (who : Owner) (c v : Nat) : Dev :=
  d.gateW who waxPg (0x800 + 0x80 * c) v (fun d => d.waxCtrl who c v)

/-- WAX_GO (R454): GO with the other fields of the write. -/
def execWaxGo (who : Owner) (c : Fin 4) (ctrl : BitVec 29) (s : State) : Answer :=
  s.run (fun d => d.waxWrite who c (2 ^ 31 + ctrl.toNat))

/-- WAX_ABORT (R454). -/
def execWaxAbort (who : Owner) (c : Fin 4) (s : State) : Answer :=
  s.run (fun d => d.waxWrite who c (2 ^ 30))

/-- WAX_RELEASE (R454). -/
def execWaxRelease (who : Owner) (c : Fin 4) (s : State) : Answer :=
  s.run (fun d => d.waxWrite who c (2 ^ 29))

/-- WAX_BLOCK_BOUNDARY (R453): `last` says that the block which ends is the last of the work in
process. -/
def execWaxBlockBoundary (last : Bool) (s : State) : Answer := s.run (fun d => d.waxBoundary last)

end Sys2Proof.Machine
end

