-- ==== Sys2Proof/Machine/Macsec.lean ====
section
/-! DEFINITION. The meanings of the SA commands of MACsec (R462). -/

namespace Sys2Proof.Machine

/-- A write of MSC_SA_CMD of instance `k`. -/
def Dev.saCmd (d : Dev) (who : Owner) (k v : Nat) : Dev :=
  d.gateW who ⟨.msc, k⟩ 0x104 v (fun d => d.saGo k v)

/-- MACSEC_SA_READ (R462). -/
def execMacsecSaRead (who : Owner) (k : Fin 6) (s : State) : Answer := s.run (fun d => d.saCmd who k (2 ^ 31))

/-- MACSEC_SA_WRITE (R462). -/
def execMacsecSaWrite (who : Owner) (k : Fin 6) (s : State) : Answer :=
  s.run (fun d => d.saCmd who k (2 ^ 31 + 1))

/-- MACSEC_SA_DONE (R462). -/
def execMacsecSaDone (k : Fin 6) (s : State) : Answer := s.runMain (fun d => d.saDone k)

end Sys2Proof.Machine
end

