-- ==== Sys2Proof/Machine/Postmark.lean ====
section
/-! DEFINITION. The commands of the Postmark (10). -/

namespace Sys2Proof.Machine

/-- GPTP_RX (R267, R270): the engine handles the oldest message that waits. -/
def execGptpRx (s : State) : Answer := s.runMain Dev.gptpRx

/-- SYNC_TX (R269): the Sync interval of a grandmaster anchor has passed. -/
def execSyncTx (anchor : Fin 2) (s : State) : Answer := s.runMain (fun d => d.syncTx anchor)

/-- PDELAY_REQ_TX (R269): the Pdelay_Req interval has passed. -/
def execPdelayReqTx (s : State) : Answer := s.runMain Dev.pdelayTx

/-- ANCHOR_TIMEOUT (R273): TIMEOUT Sync intervals have passed without a sample. -/
def execAnchorTimeout (anchor : Fin 2) (s : State) : Answer := s.runMain (fun d => d.ancTimeout anchor)

/-- ANCHOR_SET (R271, R273): a write of PMK_ANCHORn_CMD.SET. -/
def execAnchorSet (who : Owner) (anchor : Fin 2) (s : State) : Answer :=
  s.run (fun d => d.gateW who pmkPg (0xA8 + 0x40 * anchor) (2 ^ 30) (fun d => d.ancCmd anchor (2 ^ 30)))

/-- ANCHOR_RESYNC (R271, R273): a write of PMK_ANCHORn_CMD.RESYNC. -/
def execAnchorResync (who : Owner) (anchor : Fin 2) (s : State) : Answer :=
  s.run (fun d => d.gateW who pmkPg (0xA8 + 0x40 * anchor) (2 ^ 31) (fun d => d.ancCmd anchor (2 ^ 31)))

/-- WC_ENABLE (R276, R277): a write of PMK_WCc_CFG, with EN in its bit 31. -/
def execWcEnable (who : Owner) (clock : Fin 6) (value : Word) (s : State) : Answer :=
  s.run (fun d => d.gateW who pmkPg (0x200 + 0x20 * clock) value.toNat (fun d => d.wcWrite (clock + 2) value.toNat))

/-- WC_RESTEP (R276, R278): a write of PMK_WCc_CMD.RESTEP. -/
def execWcRestep (who : Owner) (clock : Fin 6) (s : State) : Answer :=
  s.run (fun d => d.gateW who pmkPg (0x204 + 0x20 * clock) (2 ^ 31) (fun d => d.wcRestep (clock + 2) (2 ^ 31)))

/-- WC_UPDATE (R277): the 1 ms update of every working clock. -/
def execWcUpdate (s : State) : Answer :=
  s.runMain (fun d => d.when (d.isOn pmkPg) (fun d => [2, 3, 4, 5, 6, 7].foldl Dev.wcUpdate d))

/-- LATCH (R279): a write of PMK_LATCH.GO. -/
def execLatch (who : Owner) (s : State) : Answer :=
  s.run (fun d => d.gateW who pmkPg 0x60 1 (fun d => d.latch 1))

/-- LATCH_DONE (R279). -/
def execLatchDone (s : State) : Answer := s.runMain Dev.latchDone

/-- EVO_LEADING_EDGE (R282, R283): the next leading edge of an output is due. -/
def execEvoLeadingEdge (output : Fin 16) (s : State) : Answer := s.runMain (fun d => d.evoLead output)

/-- EVO_TRAILING_EDGE (R282): WIDTH has passed since the leading edge. -/
def execEvoTrailingEdge (output : Fin 16) (s : State) : Answer := s.runMain (fun d => d.evoFall output)

/-- CAPTURE_EDGE (R285): an edge on a capture input that its filter accepts. -/
def execCaptureEdge (input : Fin 8) (rising : Bool) (s : State) : Answer :=
  s.runMain (fun d => d.capture input rising)

/-- TIME_CARRY (R287): every 31.25 ms. -/
def execTimeCarry (s : State) : Answer := s.run Dev.carry

end Sys2Proof.Machine
end

