-- ==== Sys2Proof/Machine/StoreCmds.lean ====
section
/-! DEFINITION. The meanings of the commands of the deep store, the MMU and the movers (15). -/

namespace Sys2Proof.Machine

/-- The DST page is ON and its domain runs. -/
def Dev.dstRuns (d : Dev) (f : Dev → Dev) : Dev := if d.isOn dstPg then f d else d

/-- DEEP_STORE_GRANT (R405): `arrived` are the requests of requesters that act on their own; then the
oldest waiting request is granted. -/
def execDeepStoreGrant (arrived : List DsArrival) (s : State) : Answer :=
  s.runMain (fun d => d.dstRuns (fun d => (arrived.foldl Dev.dsArrive d).dsGrant))

/-- DEEP_STORE_READ_DONE (R402): the oldest granted read of a requester returns; `found` is 1 for a
corrected error, 2 for an uncorrectable one. -/
def execDeepStoreReadDone (requester : BitVec 8) (found : Fin 3) (addr : BitVec 64) (s : State) : Answer :=
  s.runMain (fun d => d.dstRuns (fun d => d.dsReturn requester.toNat found addr.toNat))

/-- STARVATION (R408). -/
def execStarvation (s : State) : Answer := s.runMain (fun d => d.dstRuns Dev.dsStarve)

/-- ARBITER_STALL (R408). -/
def execArbiterStall (s : State) : Answer := s.runMain (fun d => d.dstRuns Dev.dsStall)

/-- ARB_LIMIT_CREDIT (R410). -/
def execArbLimitCredit (s : State) : Answer := s.runMain (fun d => d.dstRuns Dev.dsCredit)

/-- MR4_POLL (R403): the code the DRAM reports, and whether it stands for more than 85 °C. -/
def execMr4Poll (code : Fin 8) (hot : Bool) (s : State) : Answer :=
  s.runMain (fun d => d.dstRuns (fun d => d.mr4 code hot))

/-- PATROL_SCRUB (R403). -/
def execPatrolScrub (s : State) : Answer := s.runMain (fun d => d.dstRuns Dev.scrub)

/-- ECC_INIT_GRANULE (R403). -/
def execEccInitGranule (s : State) : Answer := s.runMain (fun d => d.dstRuns Dev.granule)

/-- USE_RESTART (R411): a write of DST_USE.RESTART. -/
def execUseRestart (who : Owner) (s : State) : Answer :=
  s.run (fun d => d.gateW who dstPg 0x84 (2 ^ 31) (fun d => d.useWrite (2 ^ 31)))

/-- MMU_INV (R418): a write of MMU_INV.GO with SCOPE and CTX. -/
def execMmuInv (who : Owner) (scope : Fin 4) (ctx : Fin 16) (s : State) : Answer :=
  let v := 2 ^ 31 + scope.val * 2 ^ 29 + ctx.val
  s.run (fun d => d.gateW who mmuPg 0x180 v (fun d => d.mmuInv who v))

/-- MMU_INV_DONE (R418). -/
def execMmuInvDone (s : State) : Answer := s.runMain Dev.mmuInvDone

/-- MOV_START (R419): START with PRIO and CTX. -/
def execMovStart (who : Owner) (channel : Fin 32) (prio : Fin 4) (ctx : Fin 16) (s : State) : Answer :=
  let v := 2 ^ 31 + prio.val * 2 ^ 24 + ctx.val
  s.run (fun d => d.gateW who mmuPg (0x1000 + 0x40 * channel) v (fun d => d.movCtrl who channel v))

/-- MOV_RESUME (R419). -/
def execMovResume (who : Owner) (channel : Fin 32) (s : State) : Answer :=
  s.run (fun d => d.gateW who mmuPg (0x1000 + 0x40 * channel) (2 ^ 30) (fun d => d.movCtrl who channel (2 ^ 30)))

/-- MOV_ABORT (R419). -/
def execMovAbort (who : Owner) (channel : Fin 32) (s : State) : Answer :=
  s.run (fun d => d.gateW who mmuPg (0x1000 + 0x40 * channel) (2 ^ 29) (fun d => d.movCtrl who channel (2 ^ 29)))

/-- MOV_SLOT_GRANT (R419): `walkBad` is an uncorrectable error in the walk for the block that is issued. -/
def execMovSlotGrant (walkBad : Bool) (s : State) : Answer := s.runMain (fun d => d.movGrant walkBad)

/-- MOV_BLOCK_DONE (R419): what the host answered to the block's read, whether a host access failed, and
whether the walk for the next block meets an uncorrectable error. -/
def execMovBlockDone (channel : Fin 32) (host : List Byte) (fail walkBad : Bool) (s : State) : Answer :=
  s.runMain (fun d => d.movBlock channel host fail walkBad)

end Sys2Proof.Machine
end

