-- ==== Sys2Proof/Machine/Trace.lean ====
section
/-! DEFINITION. The Tracing table (R40, R41): one entry for each page set, for each depth of pop window, for each
table window and for the two remote windows. -/

namespace Sys2Proof.Machine

/-- One Tracing entry. -/
structure TrcEntry where
  kind : Nat
  bar : Nat
  type : Nat
  base : Nat
  count : Nat
  stride : Nat
  size : Nat
  domain : Nat
  param : Nat
  deriving DecidableEq, Repr

/-- PARAM of a page set, where its chapter states it. -/
def Dev.setParam (d : Dev) (k : PageKind) : Nat :=
  match k with
  | .pwr => 4 | .flt => 12 | .key => 0x100 | .wax => 4 | .msc => 36 | .pmk => 8 | .evo => 16 | .cap => 1024
  | .bur => 0x2000 | .fwl => 0x400000 | .shl => 0x18000 | .sch => 0x400 | .frk => 0x1000 | .npt => 0x30
  | .hbr => 0x80 | .dma => 0x40 | .dcap => 16 | .mmu => 0x20 | .ccl => 4 | .adj => 2 | .upd => 2 | .lbx => 4
  | .dst => if d.fld dstPg R.DST_CFG_SIZE = 0 then 0xF00 else 0x1E00
  | _ => Config.traceParam k.type

/-- The entry of a page set. -/
def Dev.setEntry (d : Dev) (r : Region) : TrcEntry :=
  let dom := match r.kind with
    | .prt | .msc => 0xFE
    | k => (pg k).domain
  ⟨1, 0, r.kind.type, r.base, r.count, r.stride, r.size, dom, d.setParam r.kind⟩

/-- The entry of a table window (R149). -/
def winEntry (w : TabWin) : TrcEntry :=
  ⟨3, 4, if w.code < 0x10 then 0x0B else 0x0C, w.base, w.count, w.stride, w.bytes, 3, w.code⟩

/-- The exact-match window in parts: it has 262,144 slots and COUNT 16 bits, so eight entries of 32,768 slots describe
it, which the walk of R42 attaches one after the other and whose COUNTs add up to the stated number (R3). DESIGN CHOICE:
assumption 18. -/
def emParts : List TabWin :=
  (List.range 8).map (fun k => { emWin with base := emWin.base + 0x100000 * k, count := 32768 })

/-- Every entry. The order of the entries, one entry for each depth of pop window (R3, R62), the DOMAIN of windows and a
PARAM not stated are DESIGN CHOICE: assumption 18. -/
def Dev.trcEntries (d : Dev) : List TrcEntry :=
  (bar0Stated ++ bar0Unstated).map d.setEntry
    ++ [⟨2, 2, 0x20, 0, 1, 0x400, 0x400, 1, 256⟩, ⟨2, 2, 0x20, 0x400, 1, 0x400, 0x400, 1, 64⟩,
        ⟨2, 2, 0x20, 0x800, 16, 0x400, 0x400, 1, 1024⟩, ⟨2, 2, 0x20, 0x4800, 1, 0x400, 0x400, 1, 16⟩]
    ++ (tabWins.take 1 ++ emParts ++ tabWins.drop 1).map winEntry
    ++ [⟨3, 4, 0x0B, loadBase, 1, 0x4000000, 0x4000000, 3, Config.traceParam 0x21⟩,
        ⟨4, 0, 0x13, 0x1000000, 1, 0x800000, 0x800000, 1, 1⟩, ⟨4, 0, 0x13, 0x1800000, 1, 0x800000, 0x800000, 1, 2⟩]

/-- The eight words of an entry (R41). -/
def TrcEntry.words (e : TrcEntry) : List Nat :=
  [e.kind * 2 ^ 24 + e.bar * 2 ^ 16 + e.type, e.base % 2 ^ 32, e.count % 2 ^ 16, e.stride, e.size, 0x01000000, e.domain,
   e.param % 2 ^ 32]

/-- A word of the TRC page after its header (R40). -/
def Dev.trcWord (d : Dev) (off : Nat) : Nat :=
  if off = 0x44 then d.trcEntries.length
  else if off = 0x4C then
    crc32cWords 0xFFFFFFFF (d.trcEntries.flatMap TrcEntry.words) ^^^ 0xFFFFFFFF
  else if 0x100 ≤ off then (d.trcEntries.flatMap TrcEntry.words).getD ((off - 0x100) / 4) 0
  else d.word trcPg off

end Sys2Proof.Machine
end

