-- ==== Sys2Proof/Machine/RegRead.lean ====
section
/-! DEFINITION. What a register reads (R8, R9, R57): the stored word, or what the block computes it from. -/

namespace Sys2Proof.Machine

/-- The element of a repeated register an offset lies in. -/
def elem (off base stride : Nat) : Nat := (off - base) / stride

/-- Half of a 64-bit value: the word at `off` of a register at `base`. -/
def half (off base v : Nat) : Nat := if off = base then v % 2 ^ 32 else v / 2 ^ 32 % 2 ^ 32

/-- Days and minutes aside, the minutes a source stays in quarantine (R333). -/
def Dev.quarLeft (d : Dev) (s : Nat) : Nat :=
  d.fld nptPg (R.NPT_SRC_STAT_QUAR_LEFT.at s) - (d.now - d.npt.quarAt.getD s d.now) / (60000 * msTicks)

/-- UPD_CFG_STORE (R508): COMPACTING, NEWER, FREE of the fuller copy in units of 64 KiB. -/
def Dev.cfgStat (d : Dev) : Nat :=
  b2n d.cfg.compact.isSome * 2 ^ 31 + b2n (decide (d.cfg.a.seq < d.cfg.b.seq)) * 2 ^ 30
    + (3584 - max d.cfg.a.used d.cfg.b.used) / 16

/-- CCL_SIG_KEYS (R467). -/
def sigKeys : Nat :=
  ([0, 1, 2, 3] : List (Fin 4)).foldl (fun w i =>
    w + b2n (Config.keyPresent i) * 2 ^ i.val + b2n (Config.keyRevoked i) * 2 ^ (16 + i.val)) 0

/-- Words of the Sorting Hall that are counted as they are read (R226, R213, R205). -/
def Dev.hallWord (d : Dev) (off : Nat) : Option Nat :=
  if off = 0x80 then some d.cellFree
  else if off = 0x84 then some d.sharedFree
  else if off = 0x88 then some d.recvCells
  else if off = 0x8C then some d.multiCells
  else if off = 0x94 then some d.reserved
  else if off = 0xA4 then some (d.fld dstPg R.DST_CFG_VARIANT * 2 ^ 30 + d.spillUsed)
  else if off = 0xA8 then some (d.spillGbps * 2 ^ 8 + d.spillGbps)
  else if 0x100 ≤ off && off < 0x150 && off % 16 = 0 then some (d.auditTotal (elem off 0x100 16))
  else if 0x1000 ≤ off && off < 0x2000 && off % 32 = 0xC then some (d.egressCells (elem off 0x1000 32))
  else if 0x1000 ≤ off && off < 0x2000 && off % 32 = 0x10 then some (d.ingressCells (elem off 0x1000 32))
  else if 0x2000 ≤ off && off % 32 = 0x18 then
    let i := elem off 0x2000 32
    some (b2n (d.spilling i) * 2 ^ 31 + d.depth i)
  else if 0x2000 ≤ off && off % 32 = 0x1C then some (d.spillBlocks (elem off 0x2000 32))
  else none

/-- Words of an SCH page that are not stored: SCH_GCL_ENTRY and SCH_Q_STAT (R234, R242). -/
def Dev.schWord (d : Dev) (n off : Nat) : Option Nat :=
  if off = 0xE0 || off = 0xE4 then some (half off 0xE0 (d.gclRead n))
  else if 0x100 ≤ off && off < 0x200 && off % 32 = 0x14 then
    let q := elem off 0x100 32
    let head := d.head n q
    let ok := match head with
      | some c => d.shaperOk n q c
      | none => !((d.sched n).mode.getD q 0 == 1 && decide (d.creditOf n q < 0))
    some (b2n (bitAt (d.gates n) q) * 2 ^ 31 + b2n ok * 2 ^ 30
      + b2n ((d.sched n).mode.getD q 0 == 2 && !ok) * 2 ^ 29)
  else none

/-- Words of the PMK page that run: the clocks, their rates, AS_CAPABLE (R268, R271, R276). -/
def Dev.pmkWord (d : Dev) (off : Nat) : Option Nat :=
  if 0x80 ≤ off && off < 0x100 then
    let n := elem off 0x80 0x40
    let o := (off - 0x80) % 0x40
    if o = 0x10 || o = 0x14 then some (half o 0x10 (d.anchorNs n))
    else if o = 0x24 then some (wrapTo 32 (d.ancRate n)) else none
  else if 0x200 ≤ off && off < 0x2C0 then
    let c := elem off 0x200 0x20 + 2
    let o := off % 0x20
    if o = 0x10 || o = 0x14 then some (half o 0x10 (d.clockSub c / subPerNs))
    else if o = 0x18 then some (if d.wcOn c then wrapTo 32 (d.wclock c).rate else 0) else none
  else if 0x1000 ≤ off && off < 0x1500 && off % 0x20 = 0xC then
    some (putBits (d.word pmkPg off) 31 31 (b2n (d.asCapable (elem off 0x1000 0x20))))
  else none

/-- The word at an offset of a page before the bits no field covers are cut off. -/
def Dev.rawWord (d : Dev) (p : Page) (off : Nat) : Nat :=
  let w := d.word p off
  let n := p.inst
  if off = 0x20 then d.irqStat p
  else match p.kind with
    | .trc => if 0x40 ≤ off then d.trcWord off else w
    | .sys => if off = 0x308 || off = 0x30C then half off 0x308 d.macBase else w
    | .bur =>
      if off = 0xC0 then d.edCurWord
      else if off = 0xCC then d.edStatWord
      else if off = 0x128 then d.emUsed
      else if off = 0x88 then
        let wait (k : Nat) : Nat := min (d.bur.flights.filter (fun f => f.pipe == k && f.phase == 0)).length 255
        wait 1 * 2 ^ 8 + wait 0
      else if 0x2000 ≤ off && off < 0x3000 && off % 0x40 = 0 then
        putBits w 7 0 (d.claim (0x40 + elem off 0x2000 0x40))
      else w
    | .fwl => if 0xB0 ≤ off && off < 0xC0 then putBits w 15 0 (d.gateLeft (elem off 0xB0 4)) else w
    | .shl => (d.hallWord off).getD w
    | .sch => (d.schWord n off).getD w
    | .frk =>
      if 0xC8 ≤ off && off < 0xF8 then
        let k := elem off 0xC8 8
        half off (0xC8 + 8 * k)
          (d.frk.snaps.getD (frkCnt (d.fld p R.FRK_CNT_SEL_TABLE) (d.fld p R.FRK_CNT_SEL_INDEX) k) 0)
      else w
    | .pmk => (d.pmkWord off).getD w
    | .evo => if off = 0xA8 then putBits w 30 30 (b2n (d.evoPin n)) else w
    | .npt =>
      if off = 0x134 then d.awakeLeft
      else if 0x2C0 ≤ off && off < 0x380 then putBits w 15 0 (d.quarLeft (elem off 0x2C0 4)) else w
    | .pwr => if off = 0x9C then d.readyMask else w
    | .key => if off = 0x80 then d.rootStat else w
    | .wax =>
      if 0x2000 ≤ off then
        let st := d.ctxState (elem off 0x2000 0x800)
        if st = 1 || st = 2 || st = 3 then 0 else w
      else w
    | .hbr => if off = 0xC8 then 0x03C0 * 2 ^ 16 + (flashSize / 65536 - 0x3C0) % 2 ^ 16 else w
    | .upd => if off = 0xB0 then d.cfgStat else w
    | .ccl => if off = 0x3080 then sigKeys else w
    | _ => w

/-- A 32-bit read of a register (R8, R9): fields that cannot be read read 0, and so does an offset at which
no register lies. Counters read their latest snapshot (R58). -/
def Dev.regWord (d : Dev) (p : Page) (off : Nat) : Nat :=
  if p.isCounter off && !absent p off then
    let base := off / 8 * 8
    half off base (d.snaps.getD (p.key base) 0)
  else match regOf p off with
    | some r => d.rawWord p off &&& r.seen
    | none => 0

/-- What a read of `size` bytes gives; it changes nothing (R10). -/
def Dev.regRead (d : Dev) (p : Page) (off size : Nat) : Nat :=
  d.regWord p off + (if size = 8 then 2 ^ 32 * d.regWord p (off + 4) else 0)

end Sys2Proof.Machine
end

