-- ==== Sys2Proof/Machine/RegBad.lean ====
section
/-! DEFINITION. Which writes of a register's fields are refused (R89 and the rule of each page): a value outside
its range, a page in the wrong state, a feature not in force. A write with one bad field changes no field of
its word. DEDUCED: assumption 19. -/

namespace Sys2Proof.Machine

/-- `v` is outside `lo` to `hi`. -/
def outside (lo hi v : Nat) : Bool := decide (v < lo) || decide (hi < v)

/-- A field of a word written. -/
def Fld.of (f : Fld) (v : Nat) : Nat := bits v f.hi f.lo

/-- The page is not OFF. -/
def Dev.notOff (d : Dev) (p : Page) : Bool := d.state p != 0

-- ==== ports (R85, R89, R91, R99, R103, R104) ====

/-- The table of R85. -/
def modeOk (n v : Nat) : Bool :=
  let iface := R.PRT_MODE_IF.of v
  let sp := R.PRT_MODE_SPEED.of v
  let fec := R.PRT_MODE_FEC.of v
  let an := bitAt v 12
  if iface = 1 then n < 8 && sp == 6 && decide (fec < 3) && !an
  else if iface = 2 then n < 24 && sp == 5 && decide (fec < 2) && !an
  else if iface = 3 then n < 24 && (sp == 5 || sp == 4 || sp == 3) && fec == 0
  else if iface = 4 then 8 ≤ n && n < 32 && decide (sp < 3) && fec == 0
  else if iface = 5 then 24 ≤ n && n < 32 && sp == 2 && fec == 0
  else if iface = 6 then 32 ≤ n && sp == 0 && fec == 0 && !an
  else false

/-- Refused writes of a PRT page. -/
def Dev.prtBad (d : Dev) (n off v : Nat) : Bool :=
  let p := prtPg n
  let old := d.word p off
  if off = 0x80 then d.notOff p || !modeOk n v
  else if off = 0x84 then
    let l := R.PRT_CTRL_LOOP.of v
    (l != R.PRT_CTRL_LOOP.of old && d.notOff p) || l == 3 || (l == 2 && decide (32 ≤ n)) || (bitAt v 0 && !d.feature 1)
  else if off = 0x88 then outside 64 9216 (R.PRT_FRAME_MAX_LEN.of v)
  else if off = 0x8C then decide (1000 < R.PRT_LINK_CFG_UP_HOLD.of v) || decide (10000 < R.PRT_LINK_CFG_DRAIN.of v)
  else if off = 0xB0 then
    decide (63 < R.PRT_SERDES_TX_MAIN.of v + R.PRT_SERDES_TX_POST.of v + R.PRT_SERDES_TX_PRE.of v)
  else if off = 0x100 then
    !d.feature 11 || outside 1 128 (R.PRT_MM_VERIFY_MS.of v) || R.PRT_MM_PREEMPTABLE.of v == 0xFF
  else if off = 0x120 then
    d.notOff p || (bitAt v 31 && R.PRT_PLCA_NODE_ID.of v == 0xFF) || R.PRT_PLCA_NODE_COUNT.of v == 0
  else if off = 0x124 then d.notOff p
  else if off = 0x200 then bitAt v 0 || bitAt v 1 || (bitAt v 2 && !d.feature 1)
  else if 0x800 ≤ off && off % 0x40 = 0 then decide (19 < R.PRT_MDIO_CFG_DIV.of v)
  else false

-- ==== Burin, firewall, Sorting Hall (R134, R196, R221) ====

/-- One of the six selectors of a word is reserved (R134). -/
def selBad (v : Nat) : Bool := (List.range 6).any (fun k => !outside 0x14 0x1E (selOf v k))

/-- Refused writes of the BUR page. -/
def Dev.burRegBad (_ : Dev) (off v : Nat) : Bool :=
  if 0x1000 ≤ off && off < 0x1800 && off % 16 = 8 then outside 1 256 (R.BUR_PORT_CFG2_WIN_LEN.of v)
  else if 0x1800 ≤ off && off < 0x2000 && off % 0x20 = 0 then selBad v
  else if 0x2000 ≤ off && off < 0x3000 && off % 0x40 = 8 then selBad v
  else false

/-- Refused writes of the FWL page. -/
def Dev.fwlBad (d : Dev) (off v : Nat) : Bool :=
  if off = 0x84 then d.notOff fwlPg || outside 16 22 (R.FWL_CT_CFG_SIZE_LOG2.of v) || (bitAt v 31 && !d.feature 9)
  else if off = 0xA0 || off = 0xA4 || off = 0xA8 then bits v 31 16 == 0 || bits v 15 0 == 0
  else if off = 0xAC then bits v 15 0 == 0
  else false

/-- Cells the staged values of MIN and HEADROOM reserve (R221). -/
def Dev.minSum (d : Dev) : Nat :=
  ((List.range 344).map (fun i => d.stagedFld shlPg (R.SHL_Q_MIN_MIN.at i))).sum + d.stagedFld shlPg R.SHL_HEADROOM_CELLS

/-- Refused writes of the SHL page. -/
def Dev.shlBad (d : Dev) (off v : Nat) : Bool :=
  let p := shlPg
  let ovf := decide (65536 < (d.stage p off 0x1FFFF v).minSum)
  if off = 0x90 then outside 1024 32768 (bits v 16 0) || ovf
  else if off = 0xA0 then
    let old := d.word p off
    let q := R.SHL_SPILL_CFG_QUOTA16.of v
    ((bitAt v 31 != bitAt old 31 || q != R.SHL_SPILL_CFG_QUOTA16.of old) && d.notOff p)
      || outside 1 100 (R.SHL_SPILL_CFG_RATE_PCT.of v) || outside 1 64 q || (bitAt v 31 && !d.feature 8)
  else if 0x200 ≤ off && off < 0x300 && off % 16 = 0 then
    decide (41 < R.SHL_MIR_CFG_DEST_PORT.of v) || decide (144 < R.SHL_MIR_CFG_TRUNC.of v)
  else if 0x1000 ≤ off && off < 0x2000 then
    (off % 32 = 0 || off % 32 = 4) && outside 36 98304 (bits v 16 0)
  else if 0x2000 ≤ off then
    let o := off % 32
    if o = 0 then decide (4096 < R.SHL_Q_MIN_MIN.of v) || ovf
    else if o = 4 then decide (98304 < R.SHL_Q_MAX_MAX.of v)
    else if o = 8 then outside 1 62500 (R.SHL_Q_AGE_LIMIT.of v)
    else if o = 0xC then outside 1 98304 (R.SHL_Q_ECN_MARK.of v)
    else if o = 0x10 then outside 72 98304 (R.SHL_Q_SPILL_ON_ON.of v)
    else false
  else false

-- ==== scheduling (R234, R246) ====

/-- The rate of a port's class in kbit/s (R13). -/
def classRate (n : Nat) : Nat :=
  if n < 8 then 25000000 else if n < 24 then 10000000 else if n < 32 then 1000000 else if n < 40 then 10000
  else if n = 40 then 10000000 else if n = 41 then 64000000 else 5000000

/-- A register of the administrative configuration (R234). -/
def adminReg (off : Nat) : Bool := off == 0x80 || off == 0x88 || off == 0x8C || off == 0x90 || off == 0x94

/-- Refused writes of an SCH page. -/
def Dev.schBad (d : Dev) (who : Owner) (n off v : Nat) : Bool :=
  let p := schPg n
  if adminReg off then
    decide (39 < n) || !d.holds p who || d.flag p R.SCH_GCL_STAT_COPYING
      || (off == 0x80 && decide (1 < R.SCH_GATE_CFG_CLOCK.of v))
  else if off = 0xE8 then bits v 15 0 == 0
  else if 0x100 ≤ off && off < 0x200 && off % 32 = 0 then
    let m := R.SCH_Q_SHAPER_MODE.of v
    m == 3 || decide (min 25000000 (classRate n) < R.SCH_Q_SHAPER_IDLE_SLOPE.of v) || decide (39 < n)
  else if 0x100 ≤ off && off < 0x200 && off % 32 = 0x10 then
    outside 3 24 (R.SCH_Q_HIST_DELAY_LOG2.of v) || decide (12 < R.SCH_Q_HIST_DEPTH_LOG2.of v)
  else false

-- ==== Postmark (R271, R274, R276, R282, R284, R290) ====

/-- Refused writes of the time core. -/
def Dev.pmkRegBad (d : Dev) (off v : Nat) : Bool :=
  let p := pmkPg
  if 0x80 ≤ off && off < 0x100 then
    let n := elem off 0x80 0x40
    let o := (off - 0x80) % 0x40
    if o = 0 then outside 1 15 (bits v 7 4) || outside 2 15 (bits v 3 0)
    else if o = 4 then decide (bits v 31 16 < 100) || outside 1 (bits v 31 16) (bits v 15 0)
    else if o = 8 then outside 1 1000000 (bits v 23 0)
    else if o = 0x2C then
      decide (256 * d.fld p (R.PMK_ANCHOR_MAXRATE_MAX_PPB.at n) < (signed 32 v).natAbs)
    else false
  else if off = 0x100 then
    bitAt v 31 && (!d.feature 5 || !(d.flag p (R.PMK_ANCHOR_CFG_TRACK.at 0) && d.flag p (R.PMK_ANCHOR_CFG_TRACK.at 1)))
  else if off = 0x120 then
    let syncBad (x : Nat) : Bool := x != 0 && decide (x < 9)
    let pd := bits v 3 0
    syncBad (bits v 11 8) || syncBad (bits v 7 4) || !outside 4 12 pd
  else if 0x1000 ≤ off && off % 0x20 = 0 then bits v 31 30 == 3 || bits v 29 28 == 3
  else if 0x1000 ≤ off && off % 0x20 = 8 then bits v 31 16 == 0
  else false

/-- Refused writes of an event output: all but MUTE are written in OFF only. -/
def Dev.evoBad (d : Dev) (n off v : Nat) : Bool :=
  let p := evoPg n
  if off < 0x80 || 0x9C ≤ off then false
  else d.notOff p ||
    (if off = 0x80 then decide (7 < bits v 31 28)
     else if off = 0x90 then v != 0 && outside 100 4000000000 v
     else if off = 0x94 then
      let per := d.fld p R.PMK_EVO_PERIOD_NS
      outside 20 (if per = 0 then 500000000 else min (per - 20) 500000000) v
     else false)

/-- Refused writes of a capture input. -/
def Dev.capBad (d : Dev) (k off v : Nat) : Bool :=
  off == 0x80 && (d.notOff (capPg k) || bits v 31 30 == 0 || (bits v 19 16 != 0 && outside 2 7 (bits v 19 16)))

-- ==== edge buses (R294, R304, R309, R310) ====

/-- The bit rate of a timing is at most `most`, from a clock. -/
def rateOk (clock most brp t1 t2 : Nat) : Bool := decide (clock ≤ most * (brp * (1 + t1 + t2)))

/-- Nominal timing out of range, from a clock, at most `most` bit/s (R294). -/
def nbtBad (clock most v : Nat) : Bool :=
  let brp := bits v 31 23
  let t1 := bits v 22 14
  let t2 := bits v 13 7
  outside 1 256 brp || outside 2 256 t1 || outside 2 127 t2 || outside 1 t2 (bits v 6 0) || !rateOk clock most brp t1 t2

/-- Data timing out of range, from a clock, at most `most` bit/s (R294). -/
def dbtBad (clock most v : Nat) : Bool :=
  let brp := bits v 31 27
  let t1 := bits v 26 20
  let t2 := bits v 19 13
  outside 1 31 brp || outside 1 127 t1 || outside 1 127 t2 || outside 1 t2 (bits v 12 6) || !rateOk clock most brp t1 t2

/-- The CAN clock (R294). -/
def canClock : Nat := 160000000

/-- XL without transceiver mode switching, at more than 8 Mbit/s (R294). -/
def xlTooFast (cfg xbt : Nat) : Bool :=
  bitAt cfg 31 && !bitAt cfg 28
    && !rateOk canClock 8000000 (bits xbt 31 27) (bits xbt 26 20) (bits xbt 19 13)

/-- Refused writes of a CAN page. -/
def Dev.canBad (d : Dev) (n off v : Nat) : Bool :=
  let p := canPg n
  if off = 0x80 then
    d.notOff p || decide (bits v 14 13 < 2) || (bitAt v 31 && (decide (8 ≤ n) || !d.feature 2))
      || (bitAt v 28 && !bitAt v 31) || xlTooFast v (d.word p 0x8C)
      || (bitAt v 25 && outside 2 7 (bits v 23 20))
  else if off = 0x84 then d.notOff p || nbtBad canClock 1000000 v
  else if off = 0x88 then d.notOff p || dbtBad canClock 8000000 v
  else if off = 0x8C then d.notOff p || dbtBad canClock 20000000 v || xlTooFast (d.word p 0x80) v
  else if off = 0x90 then d.notOff p && bits v 23 16 != d.fld p R.EDG_CAN_TDC_OFFSET
  else if off = 0x800 then
    let t := bits v 22 16
    outside 0x78 0x7F t
      || (t != d.fld p R.EDG_BRIDGE_CFG_XL_TYPE && (List.range 24).any (fun k => d.notOff (canPg k)))
  else false

/-- Refused writes of a LIN page. -/
def Dev.linBad (d : Dev) (m off v : Nat) : Bool :=
  let p := linPg m
  if off = 0x80 then
    d.notOff p || (bits v 27 24 != 0 && outside 2 7 (bits v 27 24)) || outside 13 26 (bits v 20 16)
      || outside 1000 20000 (bits v 14 0)
  else if 0x200 ≤ off && off < 0x300 then d.flag p R.EDG_LIN_SCHED_PENDING
  else if 0x600 ≤ off && off % 16 = 0 then outside 1 8 (bits v 3 0)
  else false

-- ==== power, sleep and Night Post (R316, R317, R321, R331, R338, R361) ====

/-- Refused writes of NPT_SRC_CFG of source `s` (R317). -/
def Dev.srcBad (d : Dev) (boot : Bool) (s v : Nat) : Bool :=
  let f := bits v 15 8
  ((bitAt v 30 || bitAt v 29) && decide (8 ≤ s))
    || f == 0
    || (decide (0x20 ≤ s) && decide (s < 0x28) && outside 150 255 f)
    || (bits v 7 0 != d.fld nptPg (R.NPT_SRC_CFG_RATE_LIMIT.at s) && !boot && !d.inUse)
    || (s == 8 && bitAt v 31 && d.notOff nptPg)

/-- Refused writes of the NPT page. -/
def Dev.nptBad (d : Dev) (boot : Bool) (off v : Nat) : Bool :=
  let p := nptPg
  if 0x80 ≤ off && off < 0xB0 || 0x1C0 ≤ off && off < 0x200 then
    d.notOff p ||
      (if off = 0x84 then nbtBad 40000000 500000 v
       else if off = 0x88 then dbtBad 40000000 2000000 v
       else if off = 0x8C then nbtBad 40000000 1000000 v
       else if off = 0x90 then bits v 31 24 == 0
       else if off = 0x94 then
        outside 1 8 (bits v 31 28) || bits v 27 24 == 0 || outside 1 200 (bits v 23 16) || bits v 15 0 == 0
       else false)
  else if off = 0x104 then
    bits v 31 16 == 0 || decide (bits v 31 16 < bits v 15 8) || decide (bits v 7 0 < 10)
  else if off = 0x114 || off = 0x118 then bits v 10 0 % 32 != 0
  else if off = 0x11C then (onesOf (bits v 23 0) 24).any (fun n => !d.isOn (canPg n))
  else if off = 0x120 then (onesOf v 32).any (fun n => !d.hasTc10 n)
  else if off = 0x124 then (onesOf (bits v 7 0) 8).any (fun n => !d.hasTc10 (32 + n))
  else if off = 0x130 then
    !(d.inUse || boot) || outside 60 65535 (bits v 31 16) || bits v 15 2 == 0 || outside 1 2 (bits v 1 0)
  else if 0x200 ≤ off && off < 0x2C0 then d.srcBad boot (elem off 0x200 4) v
  else false

-- ==== host bridge and DMA (R383, R384, R386) ====

/-- Refused writes of the HBR page. -/
def Dev.hbrBad (_ : Dev) (off v : Nat) : Bool :=
  if off = 0xC0 then
    let sp := bits v 29 28
    let b := bits v 4 0
    sp == 3 || (sp == 0 && decide (3 < b)) || (sp == 1 && b != 0)
  else if off = 0xC4 then decide (flashSize ≤ bits v 5 0 * 2 ^ 23)
  else false

/-- A power of two from 64 to 4,096. -/
def ringSize (n : Nat) : Bool := (List.range 7).any (fun k => n == 64 * 2 ^ k)

/-- Refused writes of a DMA queue `i` at offset `o` of its registers (R386). -/
def Dev.qBad (d : Dev) (i o v : Nat) : Bool :=
  if o = 8 then d.qState i != 0 || v % 4096 != 0
  else if o = 0xC then d.qState i != 0
  else if o = 0x10 then
    d.qState i != 0 || !ringSize (bits v 12 0) || outside 1 (if i < 64 then 64 else 255) (bits v 23 16)
  else if o = 0x14 then
    let size := d.qf i R.DMA_Q_CFG_SIZE
    let t := bits v 11 0
    let left (x : Nat) : Nat := (x + size - d.qf i R.DMA_Q_HEAD_HEAD) % max size 1
    d.qState i != 2 || decide (size ≤ t) || decide (left t < left (d.qf i R.DMA_Q_TAIL_TAIL))
  else if o = 0x1C then bits v 5 0 == 0
  else false

/-- Refused writes of the DMA page. -/
def Dev.dmaBad (d : Dev) (off v : Nat) : Bool :=
  if off = 0x80 || off = 0x84 then d.notOff dmaPg
  else if 0x1000 ≤ off && off < 0x3000 then d.qBad (elem off 0x1000 0x40) (off % 0x40) v
  else false

-- ==== deep store, MMU, control cluster (R411, R421, R434) ====

/-- MiB of the capture region. -/
def Dev.capMib (d : Dev) : Nat := d.dstSize / 2 ^ 20 - 0xA00

/-- Two extents of MiB share one. -/
def meet (b1 s1 b2 s2 : Nat) : Bool := s1 != 0 && s2 != 0 && decide (b1 < b2 + s2) && decide (b2 < b1 + s1)

/-- Region `r` at a base and size would leave the capture region or meet another (R411). -/
def Dev.regionBad (d : Dev) (r base size : Nat) : Bool :=
  d.claimHeld (0x20 + r) || decide (d.capMib < base + size)
    || (List.range 16).any (fun k => k != r &&
      meet base size (d.fld dstPg (R.DST_CAPR_BASE_MIB.at k)) (d.fld dstPg (R.DST_CAPR_SIZE_MIB.at k)))

/-- Refused writes of the DST page. -/
def Dev.dstBad (d : Dev) (off v : Nat) : Bool :=
  if off = 0x88 then outside 10 10000 (bits v 31 16) || outside 500 60000 (bits v 15 0)
  else if 0x90 ≤ off && off < 0x9C then bits v 15 0 == 0
  else if off = 0xB0 then outside 1 168 (bits v 7 0)
  else if 0x100 ≤ off && off < 0x180 then
    let r := elem off 0x100 8
    if off % 8 = 0 then d.regionBad r (bits v 12 0) (d.fld dstPg (R.DST_CAPR_SIZE_MIB.at r))
    else d.regionBad r (d.fld dstPg (R.DST_CAPR_BASE_MIB.at r)) (bits v 12 0)
  else false

/-- Refused writes of the MMU page: its RW and WO fields are the pairs' and the boot loader's; the W1C bits of IRQ_RAW
are open, and PAGE_CTRL and FLT_INJ follow the rules of every header. DEDUCED: assumption 154. -/
def Dev.mmuBad (d : Dev) (who : Owner) (off v : Nat) : Bool :=
  (off != 0x18 && !mmuWriter who) ||
    (decide (0x1000 ≤ off) &&
      (let o := off % 0x40
       decide (8 ≤ o) && decide (o < 0x1C) && (!d.movFree (elem off 0x1000 0x40) || (o == 0x18 && outside 1 (2 ^ 31) v))))

/-- Refused writes of the CCL page. -/
def Dev.cclBad (_ : Dev) (off v : Nat) : Bool :=
  if off = 0xC0 then bits v 31 28 == 0 || bits v 15 0 == 0
  else if 0x1000 ≤ off && off < 0x2000 then bits v 31 30 == 3
  else false

-- ==== keys, Wax, MACsec (R444, R452, R461) ====

/-- Refused writes of the KEY page. -/
def Dev.keyBad (_ : Dev) (boot : Bool) (off v : Nat) : Bool :=
  if off = 0x84 then !boot || bits v 7 0 == 0
  else if off = 0xCC then decide (32 < bits v 21 16) || decide (32 < bits v 13 8)
  else false

/-- The context a WAX offset belongs to. -/
def waxCtx (off : Nat) : Option Nat :=
  if 0x800 ≤ off && off < 0xA00 then some (elem off 0x800 0x80)
  else if 0x2000 ≤ off && off < 0x4000 then some (elem off 0x2000 0x800) else none

/-- Refused writes of the WAX page. -/
def Dev.waxBad (d : Dev) (who : Owner) (off v : Nat) : Bool :=
  if off = 0x80 then outside 2 7 (bits v 2 0)
  else match waxCtx off with
    | none => false
    | some c => !d.ctxWritable c who.code || (decide (off < 0xA00) && off % 0x80 == 8 && outside 2 4 (bits v 31 28))

/-- Refused writes of an MSC page. -/
def Dev.mscBad (d : Dev) (k off v : Nat) : Bool :=
  let p : Page := ⟨.msc, k⟩
  if off = 0x100 then decide (35 < bits v 5 0)
  else if 0x80 ≤ off && off < 0xC0 then
    let j := elem off 0x80 0x10
    if off % 16 = 0 then
      bits v 27 26 == 3 || outside 8 30 (bits v 20 16)
        || (bits v 24 23 != d.fld p (R.MSC_PORT_CFG_CIPHER.at j)
            && (List.range 36).any (fun i => (d.sa (4 * k + j) i).valid))
    else if off % 16 = 4 then d.xpn (4 * k + j) && decide (2 ^ 30 < v)
    else false
  else false

-- ==== faults, the pair (R479, R486) ====

/-- Refused writes of the FLT page. -/
def Dev.fltBad (_ : Dev) (off v : Nat) : Bool :=
  if off = 0x84 then outside 1 4 (bits v 2 0)
  else if off = 0x88 then (List.range 16).any (fun n => bits v (2 * n + 1) (2 * n) == 3)
  else if off = 0x8C then outside 90 135 (bits v 7 0)
  else if 0x100 ≤ off && off < 0x1C0 && off % 16 = 0 then
    let l := bits v 18 16
    outside (clsFloor (elem off 0x100 16)) 4 l || outside l 4 (bits v 22 20) || outside 1 60000 (bits v 15 0)
  else false

/-- Refused writes of the ADJ page. -/
def Dev.adjBad (d : Dev) (off v : Nat) : Bool :=
  (off == 0x80 && (d.notOff adjPg || bits v 3 0 == 0))
    || (off == 0x84 && (d.notOff adjPg || outside 1 10000 (bits v 15 0)))
    || ((off == 0x90 || off == 0x94 || off == 0x98) && d.notOff adjPg)

/-- A write of `v` to the plain fields of a register is refused for what it holds or where the page stands. -/
def Dev.badWrite (d : Dev) (who : Owner) (p : Page) (off v : Nat) : Bool :=
  let n := p.inst
  let boot := who == .boot
  match p.kind with
  | .prt => d.prtBad n off v
  | .bur => d.burRegBad off v
  | .fwl => d.fwlBad off v
  | .shl => d.shlBad off v
  | .sch => d.schBad who n off v
  | .pmk => d.pmkRegBad off v
  | .evo => d.evoBad n off v
  | .cap => d.capBad n off v
  | .can => d.canBad n off v
  | .lin => d.linBad n off v
  | .npt => d.nptBad boot off v
  | .pwr => off == 0x94 && (d.flag pwrPg R.PWR_OP_STAT_BUSY || outside 1 200 (bits v 7 0))
  | .hbr => d.hbrBad off v
  | .dma => d.dmaBad off v
  | .dst => d.dstBad off v
  | .dcap => off == 0x80 && d.notOff p
  | .mmu => d.mmuBad who off v
  | .ccl => d.cclBad off v
  | .key => d.keyBad boot off v
  | .wax => d.waxBad who off v
  | .msc => d.mscBad n off v
  | .flt => d.fltBad off v
  | .adj => d.adjBad off v
  | .trc | .sys | .boot | .frk | .upd | .lbx => false

end Sys2Proof.Machine
end

