-- ==== Sys2Proof/Machine/FlashOps.lean ====
section
/-! DEFINITION. The image flash (R505): the user area and its window (R377 to R382), sector erase (R380). -/

namespace Sys2Proof.Machine

/-- Change what the flash holds. -/
def Dev.withFlash (d : Dev) (f : Flash → Flash) : Dev := { d with flash := f d.flash }

/-- First byte of the user area (R505). -/
def userBase : Nat := 0x3C00000

/-- The byte lies in the user area. -/
def inUser (a : Nat) : Bool := decide (userBase ≤ a) && decide (a < flashSize)

/-- First byte of an image slot (R505). -/
def slotBase (s : Nat) : Nat := if s = 0 then 0x100000 else 0xF00000

/-- Bytes of an image slot. -/
def slotSize : Nat := 0xE00000

/-- The slot an address lies in. -/
def slotOf (a : Nat) : Option Nat :=
  [0, 1].find? (fun s => decide (slotBase s ≤ a) && decide (a < slotBase s + slotSize))

/-- The bytes at an address are held here as bytes: the user area, but for sectors whose last erase failed, and the sectors of a slot that UPD_BEGIN
erased for the image it now takes. -/
def Dev.byteKnown (d : Dev) (a : Nat) : Bool :=
  (inUser a && !d.flash.spoiled.contains (a / 65536)) || match slotOf a with
    | some s => d.upd.known.contains s
        && decide (a - slotBase s < (d.fld updPg (R.UPD_SLOT_LEN_LENGTH.at s) + 65535) / 65536 * 65536)
    | none => false

/-- A byte of the flash; one that is not held as a byte is drawn. DESIGN CHOICE: assumption 21. -/
def Dev.flashByte (d : Dev) (a : Nat) : Nat × Dev :=
  if d.byteKnown a then ((d.flash.mem.getD a 0xFF).toNat, d)
  else
    let (n, d) := d.draw
    (Config.free n % 256, d)

/-- A little-endian number of `n` bytes of the flash. -/
def Dev.flashRead (d : Dev) (a : Nat) : Nat → Nat × Dev
  | 0 => (0, d)
  | n + 1 =>
    let (b, d) := d.flashByte a
    let (v, d) := d.flashRead (a + 1) n
    (b + 256 * v, d)

/-- Write one byte as it is. -/
def Flash.put (f : Flash) (a : Nat) (b : Byte) : Flash :=
  { f with mem := if b = 0xFF then f.mem.erase a else f.mem.set a b }

/-- Program bytes from an address: only bits from 1 to 0 change. -/
def Flash.program (f : Flash) (a : Nat) : List Byte → Flash
  | [] => f
  | b :: bs => (f.put a (f.mem.getD a 0xFF &&& b)).program (a + 1) bs

/-- Set `n` bytes from an address to 0xFF. -/
def Flash.eraseAt (f : Flash) (a n : Nat) : Flash :=
  { f with mem := f.mem.filter (fun e => !(decide (a ≤ e.1) && decide (e.1 < a + n))) }

/-- A bit of the data is 1 where the flash holds 0. -/
def Dev.wouldRaise (d : Dev) (a : Nat) (data : List Byte) : Bool × Dev :=
  let (v, d) := d.flashRead a data.length
  (v &&& leNat data != leNat data, d)

/-- The sector being erased holds the byte. -/
def Dev.sectorBusy (d : Dev) (a : Nat) : Bool := d.flash.erasing == some (a / 65536)

-- ==== the windows (R377 to R382) ====

/-- A window's register, FENCED and FENCE_EN, and the index of its drop counter. -/
structure Window where
  fenced : Fld
  fenceEn : Fld
  drops : Nat
  source : Nat

/-- The peer window. -/
def peerWindow : Window := ⟨R.HBR_RWIN_PEER_FENCED, R.HBR_RWIN_PEER_FENCE_EN, 0, 1⟩
/-- The flash window. -/
def flashWindow : Window := ⟨R.HBR_RWIN_FLASH_FENCED, R.HBR_RWIN_FLASH_FENCE_EN, 1, 2⟩

/-- A posted write through a window fails (R381, R382). -/
def Dev.windowFail (d : Dev) (w : Window) (req cause addr data : Nat) (wide : Bool) : Dev :=
  let d := (d.pwEntry w.source req cause 0 addr data wide).raise hbrPg 0
  d.when (d.flag hbrPg w.fenceEn) (fun d => d.setFlag hbrPg w.fenced true)

/-- The access may use the windows (R378): KIND FEATURE or LOOP and the error otherwise. A write that is
turned away is discarded and its sender told nothing more. -/
def Dev.windowBarred (d : Dev) (a : Access) : Option Nat :=
  if a.who = .peer then some 6 else if !d.feature 7 then some 5 else none

/-- An access that a window turns away. -/
def Dev.windowRefuse (d : Dev) (a : Access) (kind : Nat) : Dev :=
  if a.write then (d.accessErr a kind).written a else d.accessFail a kind 0x87

/-- A read through the flash window (R378 to R380). -/
def Dev.flashGet (d : Dev) (a : Access) (off : Nat) : Dev :=
  let b := d.fld hbrPg R.HBR_RWIN_FLASH_BASE * 2 ^ 23 + off
  if d.sectorBusy b then d.accessFail a 4 0x87
  else
    let (v, d) := d.flashRead b a.size
    d.answer a 0x80 v

/-- A write through the flash window (R380, R382). -/
def Dev.flashPut (d : Dev) (a : Access) (off : Nat) : Dev :=
  let b := d.fld hbrPg R.HBR_RWIN_FLASH_BASE * 2 ^ 23 + off
  let fail (c : Nat) : Dev := d.windowFail flashWindow a.who.code c b a.data (a.size == 8)
  let d := if d.flag hbrPg R.HBR_RWIN_FLASH_FENCED then d.cnt hbrPg 1
    else if !inUser b then fail 0x10
    else if d.sectorBusy b then fail 0x13
    else if 256 ≤ d.flash.queue.length then fail 0x12
    else d.withFlash (fun f => { f with queue := f.queue ++ [⟨b, leBytes a.size a.data, a.who.code, a.size == 8⟩]
                                        headAt := if f.queue.isEmpty then d.now else f.headAt })
  d.written a

/-- An access through the flash window. -/
def Dev.flashAccess (d : Dev) (a : Access) (off : Nat) : Dev :=
  match d.windowBarred a with
  | some k => d.windowRefuse a k
  | none => if a.write then d.flashPut a off else d.flashGet a off

/-- The oldest queued write is programmed (R380), unless a PFAIL warning holds it (R481); `ok`: the flash reported no
failure; what the bytes hold after one, beside the bits that were 0 already, is drawn. DESIGN CHOICE: assumption 152. -/
def Dev.flashProgrammed (d : Dev) (ok : Bool) : Dev :=
  match d.flash.queue with
  | [] => d
  | w :: ws =>
    let held := d.flashHeld d.flash.headAt
    let d := d.when (!held) (fun d => d.withFlash (fun f => { f with queue := ws, headAt := d.now }))
    let fail (d : Dev) (c : Nat) : Dev := d.windowFail flashWindow w.who c w.addr (leNat w.data) w.wide
    if held then d
    else if d.sectorBusy w.addr then fail d 0x13
    else
      let (raises, d) := d.wouldRaise w.addr w.data
      if raises then fail d 0x11
      else if !ok then
        let (bs, d) := d.drawBytes w.data.length
        fail (d.withFlash (fun f => f.program w.addr bs)) 0x14
      else d.withFlash (fun f => f.program w.addr w.data)

-- ==== sector erase (R380, R383) ====

/-- A write of HBR_FLASH_ERASE. -/
def Dev.eraseGo (d : Dev) (v : Nat) : Dev :=
  let s := bits v 15 0
  if bitAt v 31 && (d.flag hbrPg R.HBR_FLASH_STAT_BUSY || !inUser (s * 65536)) then d.refuse hbrPg
  else
    let d := d.setFld hbrPg R.HBR_FLASH_ERASE_SECTOR s
    d.when (bitAt v 31) (fun d =>
      (d.withFlash (fun f => { f with erasing := some s, eraseFrom := d.now })).setFlag hbrPg R.HBR_FLASH_STAT_BUSY true)

/-- A sector erase finishes, unless a PFAIL warning holds it (R481). What a failed one leaves is drawn at each read of
the sector until an erase of it succeeds. DESIGN CHOICE: assumption 152. -/
def Dev.eraseDone (d : Dev) (ok : Bool) : Dev :=
  match d.flash.erasing with
  | none => d
  | some s =>
    if d.flashHeld d.flash.eraseFrom then d
    else
    let d := d.withFlash (fun f =>
      let g : Flash := { f with erasing := none, spoiled := f.spoiled.filter (· != s) ++ (if ok then [] else [s]) }
      if ok then g.eraseAt (s * 65536) 65536 else g)
    let d := (d.setFlag hbrPg R.HBR_FLASH_STAT_BUSY false).setFlag hbrPg R.HBR_FLASH_STAT_DONE true
    (d.setFld hbrPg R.HBR_FLASH_STAT_RESULT (if ok then 0 else 2)).raise hbrPg 2

end Sys2Proof.Machine
end

