-- ==== Sys2Proof/Machine/AdjOps.lean ====
section
/-! DEFINITION. The pair (19): the copy, the orders, the claim round, HELLO and heartbeats, the lanes. -/

namespace Sys2Proof.Machine

/-- The ADJ page is ON. -/
def Dev.adjOn (d : Dev) : Bool := d.isOn adjPg

/-- Set ADJ_ORDER_BEHIND to the orders that wait. -/
def Dev.showBehind (d : Dev) : Dev := d.setFld adjPg R.ADJ_ORDER_BEHIND_COUNT (min d.adj.orders.length 4096)

/-- A PAIR fault (R489, R495, R496, R499). -/
def Dev.pairFault (d : Dev) (detail level : Nat) : Dev :=
  d.fault { cls := 0xB, page := adjPg, detail := detail, level := level }

-- ==== CAN messages as words ====

/-- The words of a message in a TXBUF record. R493 gives no layout. DESIGN CHOICE: assumption 22. -/
def msgWords (m : CanMsg) : List Nat :=
  let t := m.ts.getD 0
  [m.fmt + b2n m.ext * 2 ^ 2 + b2n m.rtr * 2 ^ 3 + b2n m.brs * 2 ^ 4 + b2n m.esi * 2 ^ 5 + b2n m.sec * 2 ^ 6
     + b2n m.rrs * 2 ^ 7 + m.sdt * 2 ^ 8 + m.vcid * 2 ^ 16 + b2n m.ts.isSome * 2 ^ 24,
   m.id, m.af, m.data.length, t % 2 ^ 32, t / 2 ^ 32]
    ++ (List.range ((m.data.length + 3) / 4)).map (fun i => leNat (slice m.data (4 * i) 4))

/-- Messages from the words of a TXBUF record. -/
def msgsOf : Nat → List Nat → List CanMsg
  | 0, _ => []
  | _, [] => []
  | fuel + 1, ws =>
    let w (i : Nat) : Nat := ws.getD i 0
    let n := (w 3 + 3) / 4
    let m : CanMsg :=
      { fmt := w 0 % 4, ext := bitAt (w 0) 2, rtr := bitAt (w 0) 3, brs := bitAt (w 0) 4, esi := bitAt (w 0) 5
        sec := bitAt (w 0) 6, rrs := bitAt (w 0) 7, sdt := bits (w 0) 15 8, vcid := bits (w 0) 23 16
        id := w 1, af := w 2
        data := ((ws.drop 6).take n).flatMap (leBytes 4) |>.take (w 3)
        ts := if bitAt (w 0) 24 then some (w 4 + 2 ^ 32 * w 5) else none }
    m :: msgsOf fuel (ws.drop (6 + n))

-- ==== the copy (R493, R496) ====

/-- The bits of a word of an ordered page that the copy carries: RW bits, and the read-only words that say
which edition and which gate list are in force. DESIGN CHOICE: assumption 22. -/
def copyMask (p : Page) (off : Nat) : Nat :=
  match regOf p off with
  | some r =>
    let all : Bool := match p.kind with
      | .bur => off == 0xC0
      | .fwl => off == R.FWL_CT_REV_GEN_GEN.off
      | .sch => decide (0xA0 ≤ off) && decide (off < 0xB8)
      | _ => false
    if all then r.rw ||| r.ro else if 0x80 ≤ off && !p.isCounter off then r.rw else 0
  | none => 0

/-- The ordered pages. -/
def orderedPages : List Page := allPages.filter isOrdered

/-- The words of a page that are listed and that the copy carries. -/
def Dev.copyWords (d : Dev) (p : Page) : List Nat :=
  ((d.regs.map (·.1)).filter (fun k => k / pageSpan == p.idx && copyMask p (k % pageSpan) != 0)).map (· % pageSpan)

/-- Table code of the administrative list of port `n` (R258), of its operational list and of the route table,
which have none there. DESIGN CHOICE: assumption 22. -/
def codeAdmin (n : Nat) : Nat := 0x40 + n
/-- The operational list. -/
def codeOper (n : Nat) : Nat := 0xC0 + n
/-- The route table. -/
def codeRoute : Nat := 0xB0

/-- The entries of a table that hold something, from the keys of its words. -/
def entries (keys : List Nat) : List Nat := keys.eraseDups

/-- The TABLE records of a copy: code, first index, one entry. -/
def Dev.copyTables (d : Dev) : List (List Nat) :=
  let t := d.bur.cur
  let cls := tabWins.flatMap (fun x =>
    (entries ((t.words.filter (fun e => x.has e.1)).map (fun e => (e.1 - x.base) / x.stride))).map (fun i =>
      [x.code, i] ++ (List.range (x.bytes / 4)).map (t.ent x i)))
  let em := t.em.map (fun e => [0x03, 0] ++ (List.range 8).map e.word)
  let frk := (entries (d.frk.words.map (fun e => e.1 / 8))).map (fun k =>
    [0x2F + k / 4096, k % 4096] ++ (List.range (frkSize (k / 4096)).2).map (d.frkWord (k / 4096) (k % 4096)))
  let lists := d.scheds.flatMap (fun s =>
    let row (code : Nat) (m : NMap Nat) : List (List Nat) := m.map (fun e => [code, e.1, e.2 % 2 ^ 32, e.2 / 2 ^ 32])
    row (codeAdmin s.1) s.2.admin ++ row (codeOper s.1) s.2.oper)
  let routes := (entries (d.routes.map (fun e => e.1 / 4))).map (fun i =>
    [codeRoute, i] ++ (List.range 4).map (fun w => d.routes.getD (4 * i + w) 0))
  cls ++ em ++ frk ++ lists ++ routes

/-- The records of a copy before COPY_END, each KIND and body. R493 gives the body of REGS as one run of words
and of TABLE as a run of entries; here each word and each entry has its own record. -/
def Dev.copyRecords (d : Dev) : List (Nat × List Nat) :=
  let regs := orderedPages.flatMap (fun p =>
    (6, [p.kind.type, p.instance_, 8, b2n (d.state p == 1 || d.state p == 2)])
      :: (d.copyWords p).map (fun o => (6, [p.kind.type, p.instance_, o, d.word p o])))
  let conns := d.fwl.conns.filter (fun c => c.epoch == d.ctEpoch)
  regs ++ d.copyTables.map (fun b => (7, b))
    ++ conns.map (fun c => (1, (c.bucket * 8 + c.slot) :: c.words))
    ++ d.sharedCans.map (fun n => (5, n :: (d.can n).tx.flatMap (fun t => msgWords t.msg)))

/-- The holder sends the copy its peer has asked for; both digests begin at COPY_END (R499). -/
def Dev.copySend (d : Dev) : Dev :=
  let send (d : Dev) (k : Nat) (b : List Nat) : Dev := d.adjSend 4 ((k * 2 ^ 24 + b.length) :: b)
  let d := d.copyRecords.foldl (fun d r => send d r.1 r.2) d
  let i := d.fld adjPg R.ADJ_ORDER_IDX_INDEX
  let d := d.withAdj (fun a => { a with digest := 0xFFFFFFFF, awaited := [], early := none })
  send d 8 [i % 2 ^ 32, i / 2 ^ 32, 0xFFFFFFFF]

/-- Enter COPYING: the copy is requested by the state the heartbeats carry, and anchor 0 follows the holder
(R492, R496). -/
def Dev.copyStart (d : Dev) : Dev :=
  let d := (d.withAdj (fun a => { a with copy := [], markApplied := false, markIssued := none })).adjPut 3
  d.when (d.isOn pmkPg) (fun d => d.setAncState 0 4)

/-- The ordered page of a TYPE and INSTANCE. -/
def orderedOf (type inst : Nat) : Option Page := orderedPages.find? (fun p => p.kind.type == type && p.instance_ == inst)

/-- A REGS record (R493): EN by a request of the peer, other words as they are. -/
def Dev.copyReg (d : Dev) (type inst off w : Nat) : Dev :=
  match orderedOf type inst with
  | none => d
  | some p =>
    if off = 8 then
      let on := d.state p == 1 || d.state p == 2
      if on == (w == 1) then d else d.enRequest 7 p (w == 1)
    else
      let m := copyMask p off
      d.setWord p off ((d.word p off &&& (0xFFFFFFFF - m)) ||| (w &&& m))

/-- A TABLE record (R493). -/
def Dev.copyTable (d : Dev) (code i : Nat) (ws : List Nat) : Dev :=
  let w (k : Nat) : Nat := ws.getD k 0
  if code = 0x03 then
    let (t, _, d) := d.emInsert d.bur.cur (bits (w 0) 19 16) ((List.range 6).map (fun k => w (k + 1))) (w 0 % 2 ^ 15)
    d.withBur (fun b => { b with cur := t })
  else if code = codeRoute then
    { d with routes := (List.range 4).foldl (fun m k => put0 m (4 * i + k) (w k)) d.routes }
  else if 0x30 ≤ code && code ≤ 0x35 then
    (List.range ws.length).foldl (fun d k => d.setFrk (code - 0x2F) i k (w k)) d
  else if 0x40 ≤ code && code < 0x40 + 43 then
    let n := code - 0x40
    d.setSched n { d.sched n with admin := (d.sched n).admin.set i (w 0 + 2 ^ 32 * w 1) }
  else if 0xC0 ≤ code && code < 0xC0 + 43 then
    let n := code - 0xC0
    d.setSched n { d.sched n with oper := (d.sched n).oper.set i (w 0 + 2 ^ 32 * w 1) }
  else match tabOf code with
    | some x => d.withBur (fun b => { b with
        cur := (List.range ws.length).foldl (fun t k => t.putWord x (x.base + i * x.stride + 4 * k) (w k)) b.cur })
    | none => d

/-- Empty what a copy refills. -/
def Dev.copyClear (d : Dev) : Dev :=
  let d := d.regs.foldl (fun d e =>
    let p := Page.ofIdx (e.1 / pageSpan)
    let o := e.1 % pageSpan
    let m := if isOrdered p then copyMask p o else 0
    if m = 0 then d else d.setWord p o ((e.2.toNat &&& (0xFFFFFFFF - m)) ||| (p.resetNat o &&& m))) d
  let d := d.withBur (fun b => { b with cur := {} })
  let d := d.withFrk (fun f => { f with words := [] })
  { d with routes := [], scheds := d.scheds.map (fun s => (s.1, { s.2 with admin := [], oper := [] })) }

/-- Apply one record of a copy. -/
def Dev.copyApply (d : Dev) (r : List Nat) : Dev :=
  match r with
  | h :: t :: i :: ws =>
    if h / 2 ^ 24 = 6 then d.copyReg t i (ws.getD 0 0) (ws.getD 1 0)
    else if h / 2 ^ 24 = 7 then d.copyTable t i ws
    else d
  | _ => d

/-- COPY_END (R493, R496, R499): the copy takes the place of the standby's tables and ordered pages, orders up
to its INDEX are in it, its edition is saved (R155), the digest begins; with equal digests the unit is in step. -/
def Dev.copyEnd (d : Dev) (index digest : Nat) : Dev :=
  if d.adjState ≠ 3 then d
  else
    let rs := d.adj.copy
    let d := rs.foldl Dev.copyApply d.copyClear
    let d := (d.onPages .can).foldl Dev.trxUpdate d
    let d := d.withCfg (fun c => c.edition d.bur.cur (d.fld burPg R.BUR_EDITION_CUR_CUR))
    let d := (d.setFld adjPg R.ADJ_ORDER_IDX_INDEX index).withAdj (fun a => { a with
      copy := [], orders := a.orders.filter (fun o => decide (index < o.index)),
      digest := 0xFFFFFFFF, awaited := [], early := none })
    let d := d.showBehind
    if digest ≠ 0xFFFFFFFF then d
    else ((d.adjPut 4).withAdj (fun a => { a with barred := false })).cnt adjPg 7 |>.raise adjPg 5

-- ==== CARBON (R493) ====

/-- A connection entry from a CONN record. Its EPOCH is this unit's own, since each unit draws its own (R174).
DESIGN CHOICE: assumption 22. -/
def Dev.connOf (d : Dev) (i : Nat) (ws : List Nat) : Conn :=
  let w (k : Nat) : Nat := ws.getD k 0
  let addr (k : Nat) : Nat := ((w k * 2 ^ 32 + w (k + 1)) * 2 ^ 32 + w (k + 2)) * 2 ^ 32 + w (k + 3)
  { bucket := i / 8, slot := i % 8, epoch := d.ctEpoch, proto := bits (w 0) 15 8, l3 := bits (w 0) 7 6
    zone0 := bits (w 1) 31 27, zone1 := bits (w 1) 26 22, addr0 := addr 2, addr1 := addr 6
    port0 := bits (w 10) 31 16, port1 := w 10 % 2 ^ 16, state := bits (w 11) 31 28, orig := bits (w 11) 27 27
    revocable := bitAt (w 11) 26, diag := bits (w 11) 25 24, fin0 := bitAt (w 11) 23, fin1 := bitAt (w 11) 22
    gen := w 12, lastSeen := w 13, nextSeq := w 14, remain := w 15
    frames0 := w 32 + 2 ^ 32 * w 33, frames1 := w 34 + 2 ^ 32 * w 35
    octets0 := w 36 + 2 ^ 32 * w 37, octets1 := w 38 + 2 ^ 32 * w 39 }

/-- A CONN record overwrites the entry in its slot; STATE FREE leaves it free. -/
def Dev.connTake (d : Dev) (i : Nat) (ws : List Nat) : Dev :=
  let c := d.connOf i ws
  let d := match d.fwl.conns.find? (fun x => x.bucket == c.bucket && x.slot == c.slot) with
    | some x => d.ctFree x
    | none => d
  if c.state = 0 then d
  else ((d.withFwl (fun f => { f with conns := f.conns ++ [c] })).zoneUse c.origZone true).ctShow

/-- A CARBON record on a unit in COPYING or STANDBY (R493). -/
def Dev.carbonTake (d : Dev) (r : List Nat) : Dev :=
  let body := r.drop 1
  let w (k : Nat) : Nat := body.getD k 0
  match r.headD 0 / 2 ^ 24 with
  | 1 => d.connTake (w 0) (body.drop 1)
  | 2 => d.setFrk 5 (w 0) 0 ((d.frkWord 5 (w 0) 0) / 2 ^ 16 * 2 ^ 16 + w 1 % 2 ^ 16)
  | 3 => d.withAdj (fun a => { a with mirrored := a.mirrored.set (w 0) (w 2) })
  | 4 => d.setFld nptPg (R.NPT_CNT_LAST_LAST.at (w 0 % 4)) (w 1)
  | 5 =>
    let n := w 0
    if n < 24 then
      let ms := msgsOf body.length (body.drop 1)
      d.setCan n { d.can n with tx := ms.map (fun m => { msg := m, since := d.now }) }
    else d
  | 6 | 7 => d.withAdj (fun a => { a with copy := a.copy ++ [r] })
  | 8 => d.copyEnd (w 0 + 2 ^ 32 * w 1) (w 2)
  | _ => d

/-- The holder sends NEXT of every VALID generator (R493). -/
def Dev.genTx (d : Dev) : Dev :=
  (List.range 1024).foldl (fun d i =>
    let g := d.frkWord 5 i 0
    if bitAt g 31 then d.carbon 2 [i, g % 2 ^ 16] else d) d

-- ==== orders on the standby (R490 to R492, R499) ====

/-- The order an entry of an ORDER frame holds (R491). -/
def orderIn (ws : List Nat) : Order :=
  let w (k : Nat) : Nat := ws.getD k 0
  { kind := bits (w 0) 31 28, origin := bits (w 0) 27 24, space := bits (w 0) 17 16, addr := w 1
    index := w 2 + 2 ^ 32 * w 3, time := w 4 + 2 ^ 32 * w 5, data := w 6 + 2 ^ 32 * w 7 }

/-- Put an order in its place by INDEX; one already held, or applied, is dropped. -/
def orderInsert (o : Order) : List Order → List Order
  | [] => [o]
  | x :: xs => if o.index < x.index then o :: x :: xs else if o.index = x.index then x :: xs else x :: orderInsert o xs

/-- Orders arrive at a unit in COPYING or STANDBY; late ones are counted (R492). -/
def Dev.orderTake (d : Dev) (o : Order) : Dev :=
  if !(d.adjState == 3 || d.adjState == 4) || o.index ≤ d.fld adjPg R.ADJ_ORDER_IDX_INDEX
      || 4096 ≤ d.adj.orders.length then d
  else
    let late := d.adjState == 4 && decide (o.time + 40000 < d.time)
    let d := (d.withAdj (fun a => { a with orders := orderInsert o a.orders })).showBehind
    d.when late (fun d => d.cnt adjPg 11)

/-- A command that an order started still runs; the orders behind it wait (R492). -/
def Dev.orderHeld (d : Dev) : Bool :=
  d.bur.edRun.isSome || d.bur.emRun.isSome || d.bur.committing || d.frk.run.isSome || d.rtRun.isSome

/-- The next order to apply: the one after INDEX, once its time has come (R492). -/
def Dev.orderDue (d : Dev) : Option Order :=
  match d.adj.orders with
  | o :: _ =>
    if d.adjState == 4 && o.index == d.fld adjPg R.ADJ_ORDER_IDX_INDEX + 1 && decide (o.time + 40000 ≤ d.time)
        && !d.orderHeld then some o else none
  | [] => none

/-- DIVERGED (R499): back to COPYING. -/
def Dev.diverge (d : Dev) (injected : Bool) : Dev :=
  let d := ((d.cnt adjPg 6).raise adjPg 3).fault
    { cls := 0xB, page := adjPg, checker := if injected then 1 else 0xFF, detail := 3, injected := injected }
  if d.adjState = 4 then d.copyStart else d

/-- An order has been applied: INDEX and the digest move on; `cmd` is the command it started. -/
def Dev.orderPast (d : Dev) (o : Order) (outcome : Nat) (cmd : Nat := 0) : Dev :=
  Dev.showBehind (((d.setFld adjPg R.ADJ_ORDER_IDX_INDEX o.index).digestStep o cmd outcome).withAdj (fun a =>
    { a with orders := a.orders.filter (fun x => decide (o.index < x.index)) }))

/-- A DIGEST order (R499): the digests are compared at the same INDEX. -/
def Dev.digestTake (d : Dev) (o : Order) : Dev :=
  let inj := d.isArmed adjPg 1
  let bad := inj || d.adj.digest != o.data
  let d := (d.disarm adjPg 1).orderPast o 0
  if bad then d.diverge inj else d

/-- A MARK order (R500). -/
def Dev.markTake (d : Dev) (o : Order) : Dev :=
  (d.orderPast o 0).withAdj (fun a => { a with markApplied := true })

-- ==== the claim (R494, R495, R497, R498, R500) ====

/-- The standby has applied the MARK of a YIELD on this holder. -/
def Dev.yieldDue (d : Dev) : Bool :=
  match d.adj.markIssued with
  | some i => decide (i ≤ d.adj.peerIndex)
  | none => false

/-- The unit enters the round (R495, R500). -/
def Dev.entersRound (d : Dev) : Bool :=
  let st := d.adjState
  let free := d.adj.peerLost || d.flag adjPg R.ADJ_STAT_PEER_SAFE || d.adj.markApplied
  d.adjOn && !d.safe && !d.adj.barred &&
    (((st == 5 || st == 6) && d.hasClaim && !d.yieldDue) || st == 2
      || ((st == 4 || (st == 3 && d.flag adjPg R.ADJ_CFG_UNSYNCED_CLAIM)) && free))

/-- KEEP as the unit sends it: dominant from the holder, and from the standby that takes a YIELD. -/
def Dev.keeps (d : Dev) : Bool := d.hasClaim || (d.adjState == 4 && d.adj.markApplied)

/-- The unit completes the round against another claimant: KEEP, then the lower number, decides (R494). -/
def Dev.winsRound (d : Dev) (other : Option (Bool × Fin 16)) : Bool :=
  match other with
  | none => true
  | some (keep, num) =>
    if d.keeps == keep then decide (d.fld adjPg R.ADJ_CFG_NUMBER ≤ num.val) else d.keeps

/-- The shared event outputs are driven at the levels sampled (R497). -/
def Dev.linesTake (d : Dev) (levels : Nat) : Dev :=
  ((onesOf (d.fld adjPg R.ADJ_SHARED_EVO_EVO) 16).filter (fun n => d.isOn (evoPg n) && !d.evoForced n)).foldl
    (fun d n =>
      let hi := bitAt levels n
      (d.setEvo n { d.evo n with high := hi != d.flag (evoPg n) R.PMK_EVO_CFG_POLARITY }).emit (.pin n (b2n hi))) d

/-- What R498 adds after the peer is lost: locks on ordered pages whose owner an order set are released as at a
reset event, with an open shadow of that owner. On a unit in COPYING or STANDBY only orders set them (R490). -/
def Dev.ordersRelease (d : Dev) : Dev :=
  (orderedPages.filter (fun p => d.flag p R.PAGE_LOCK_HELD)).foldl (fun d p => d.lockLost p (d.lockOwner p)) d

/-- Pairs 2 and 3 of the new holder restart from the latest mirrored checkpoints (R498). -/
def Dev.pairsMirror (d : Dev) : Dev :=
  [2, 3].foldl (fun d n =>
    if d.pairRuns n then
      let p := d.ccl.pairs.getD n {}
      let d : Dev := { d with ccl := { d.ccl with pairs := d.ccl.pairs.set n { p with ckpt := d.adj.mirrored.getD n p.ckpt } } }
      d.setFld cclPg (R.CCL_PAIR_STAT_STATE.at n) 3
    else d) d

/-- A claim gain (R494, R497, R498). `levels`: the levels sampled on the shared event outputs. -/
def Dev.claimGain (d : Dev) (levels : Nat) : Dev :=
  let was := d.adjState
  let yield := d.adj.markApplied
  let lost := d.adj.peerLost
  let ovf := was == 3 || was == 4
  let start := if yield then d.now - 7 * usTicks else d.adj.heardAt
  let d := ((d.setFlag adjPg R.ADJ_STAT_HOLD true).cnt adjPg 2).raise adjPg 1
  let d := (d.adjPut 6).withAdj (fun a => { a with
    markApplied := false, orders := [], copy := [], gapFrom := if ovf then some start else none })
  let d := d.showBehind
  let d := d.when (ovf && lost) (fun d => d.ordersRelease.pairsMirror)
  let d := (d.linesTake levels).when true (fun d => d.sharedCans.foldl Dev.trxUpdate d)
  d.gapCheck 6

/-- CLAIM_LOST on a holder (R495). -/
def Dev.claimLost (d : Dev) (injected : Bool) : Dev :=
  let d := (d.claimDrop.adjPut 7).raise adjPg 2
  d.fault { cls := 0xB, page := adjPg, checker := if injected then 2 else 0xFF, level := 3, injected := injected }

/-- The unit loses a round it entered (R495, R496). -/
def Dev.roundLost (d : Dev) (injected : Bool) : Dev :=
  let d := d.cnt adjPg 3
  if d.hasClaim then d.claimLost injected
  else if d.adjState = 2 then d.copyStart
  else if d.adj.peerLost && (d.adjState == 3 || d.adjState == 4) then (d.adjPut 7).pairFault 0 0
  else d

/-- A holder that has yielded loses the round it did not enter (R500). -/
def Dev.yieldDone (d : Dev) : Dev :=
  let d := (d.claimDrop.adjPut 4).withAdj (fun a => { a with markIssued := none, markApplied := false, orders := [] })
  let d := d.when (d.isOn pmkPg) (fun d => d.setAncState 0 4)
  (d.cnt adjPg 5).raise adjPg 6

/-- A claim round (R494): what the other unit sends, and the levels on the shared event outputs. -/
def Dev.claimRound (d : Dev) (other : Option (Bool × Fin 16)) (levels : Nat) : Dev :=
  let enters := d.entersRound
  if !d.adjOn || (!enters && other.isNone) then d
  else
    let d := d.withAdj (fun a => { a with rounds := (a.rounds + 1) % 65536 })
    if !enters then d.when (d.yieldDue && d.hasClaim) Dev.yieldDone
    else
      let d := (d.emit (.pin 0x21 0)).emit (.pin 0x21 1)
      let inj := d.hasClaim && d.isArmed adjPg 2
      let d := d.when inj (fun d => d.disarm adjPg 2)
      if inj || !d.winsRound other then d.roundLost inj
      else if d.hasClaim then d.cnt adjPg 2
      else d.claimGain levels

-- ==== HELLO (R488, R496) ====

/-- The words of a HELLO that a match compares: FAMILY, DIE, STEP and the features. The MAJOR of every page is
the same on every device of a STEP. -/
def helloKey (ws : List Nat) : List Nat := ws.getD 0 0 :: (ws.getD 1 0 % 256) :: (ws.drop 2).take 4

/-- A HELLO arrives (R496). One with STATE IDLE is a reset event of the peer (R45). -/
def Dev.helloRx (d : Dev) (ws : List Nat) : Dev :=
  let w1 := ws.getD 1 0
  let mine := d.helloWords d.adjState
  let num := bits w1 11 8
  if !d.adjOn then d
  else if helloKey ws ≠ helloKey mine || num == d.fld adjPg R.ADJ_CFG_NUMBER then
    if d.adjState = 1 then d.pairFault 2 0 else d
  else
    let d := (d.withAdj (fun a => { a with hello := some ws })).setFld adjPg R.ADJ_STAT_PEER_NUMBER num
    if bits w1 31 28 = 0 then d.ownerEvent 7
    else if d.adjState = 1 then
      let d := d.withAdj (fun a => { a with peerLost := false, missed := 0, heardAt := d.now })
      if bitAt w1 27 then d.copyStart else d.adjPut 2
    else d

-- ==== heartbeats (R489) ====

/-- The words of a heartbeat. -/
def Dev.heartbeatWords (d : Dev) : List Nat :=
  let i := d.fld adjPg R.ADJ_ORDER_IDX_INDEX
  [d.adjState * 2 ^ 28 + b2n d.hasClaim * 2 ^ 27 + b2n d.safe * 2 ^ 26 + d.fld adjPg R.ADJ_CFG_NUMBER * 2 ^ 16
     + d.adj.rounds, i % 2 ^ 32, i / 2 ^ 32, d.adj.digest]

/-- The peer is lost (R489): its peer-window accesses end by what `ends` makes of each. -/
def Dev.peerLose (d : Dev) (ends : Dev → Access → Dev) : Dev :=
  let rs := d.adj.remote
  let d := d.withAdj (fun a => { a with peerLost := true, remote := [], unacked := [], markIssued := none })
  let d := ((d.raise adjPg 0).cnt adjPg 1).pairFault 0 0
  let d := (d.setFld adjPg R.ADJ_STAT_PEER_STATE 0).ownerEvent 7
  let d := rs.foldl (fun d r => ends d r.2) d
  d.when (d.adjState == 5) (fun d => d.adjPut 6)

/-- ROUNDS of a heartbeat: three in a row that differ report an open or shorted net (R489). -/
def Dev.roundsCheck (d : Dev) (rounds : Nat) : Dev :=
  if !d.hasClaim || rounds == d.adj.rounds then d.withAdj (fun a => { a with roundsDiffer := 0 })
  else
    let n := d.adj.roundsDiffer + 1
    let d := d.withAdj (fun a => { a with roundsDiffer := if n = 3 then 0 else n })
    d.when (n == 3) (fun d => d.pairFault 1 0)

/-- A heartbeat arrives (R489, R496). -/
def Dev.heartbeatRx (d : Dev) (ws : List Nat) : Dev :=
  let w0 := ws.getD 0 0
  let st := bits w0 31 28
  let was := d.fld adjPg R.ADJ_STAT_PEER_STATE
  if !d.adjOn then d
  else
    let d := d.setFld adjPg R.ADJ_STAT_PEER_STATE st
    let d := (d.setFlag adjPg R.ADJ_STAT_PEER_SAFE (bitAt w0 26)).setFld adjPg R.ADJ_STAT_PEER_NUMBER (bits w0 19 16)
    let d := d.withAdj (fun a => { a with
      heardAt := d.now, missed := 0, peerLost := false, peerIndex := ws.getD 1 0 + 2 ^ 32 * ws.getD 2 0 })
    let d := d.roundsCheck (w0 % 65536)
    let own := d.adjState
    if d.issues && st = 3 && was ≠ 3 then d.copySend
    else if own = 6 && st = 4 then d.adjPut 5
    else if bitAt w0 27 && !d.hasClaim && !d.safe && (own == 5 || own == 6 || own == 7) then d.copyStart
    else d

/-- A heartbeat is missed; the third in a row loses the peer (R489). -/
def Dev.heartbeatMissed (d : Dev) (ends : Dev → Access → Dev) : Dev :=
  if !d.adjOn || d.adj.peerLost || d.adj.hello.isNone then d
  else
    let n := d.adj.missed + 1
    let d := (d.withAdj (fun a => { a with missed := n })).cnt adjPg 0
    if n < 3 then d else d.peerLose ends

-- ==== lanes and acknowledges (R487, R488) ====

/-- A lane goes down: its frames move to the other lane. -/
def Dev.laneDown (d : Dev) (l : Fin 2) : Dev :=
  let lanes := d.fld adjPg R.ADJ_STAT_LANES
  if !bitAt lanes l.val then d
  else
    let d := (d.setFld adjPg R.ADJ_STAT_LANES (lanes - 2 ^ l.val)).withAdj (fun a => { a with
      unacked := a.unacked.map (fun u => if u.lane = l.val then { u with lane := 1 - l.val, tries := 0 } else u) })
    (d.cnt adjPg 9).raise adjPg 4

/-- A lane carries frames again. -/
def Dev.laneUp (d : Dev) (l : Fin 2) : Dev :=
  if !d.adjOn then d
  else d.setFld adjPg R.ADJ_STAT_LANES (d.fld adjPg R.ADJ_STAT_LANES ||| 2 ^ l.val)

/-- An ACK arrives. -/
def Dev.ackRx (d : Dev) (type seq : Nat) : Dev :=
  d.withAdj (fun a => { a with unacked := a.unacked.filter (fun u => !(u.type == type && u.seq == seq)) })

/-- A frame is sent again; the ninth failure exhausts its lane. -/
def Dev.resend (d : Dev) (type seq : Nat) : Dev :=
  match d.adj.unacked.find? (fun u => u.type == type && u.seq == seq) with
  | none => d
  | some u =>
    if 8 ≤ u.tries then d.laneDown (if u.lane = 0 then 0 else 1)
    else
      let d := d.withAdj (fun a => { a with
        unacked := a.unacked.map (fun x => if x = u then { x with tries := x.tries + 1 } else x) })
      (d.cnt adjPg 8).when (d.fld adjPg R.ADJ_STAT_LANES != 0) (fun d => d.emit (.adjor type seq true u.words))

/-- A frame that asks an ACK arrives (R488): dropped with a bad CRC or by checker 0, acknowledged otherwise. -/
def Dev.adjRx (d : Dev) (type seq : Nat) (crcGood : Bool) (f : Dev → Dev) : Dev :=
  if !d.adjOn || !crcGood then d
  else if d.isArmed adjPg 0 then d.disarm adjPg 0
  else f (d.adjSend 5 [type, seq])

-- ==== time (R492) ====

/-- The words of a TIME frame, for which R492 gives no layout: anchor 0 of the holder in ns, its rate in 1/256
ppb. DESIGN CHOICE: assumption 22. -/
def Dev.timeFrame (d : Dev) : List Nat := [d.time % 2 ^ 32, d.time / 2 ^ 32 % 2 ^ 32, wrapTo 32 (d.ancRate 0)]

/-- A TIME frame: ADJ_TIME_ERR shows the difference, anchor 0 follows (R492). -/
def Dev.timeRx (d : Dev) (ws : List Nat) : Dev :=
  let ns : Nat := ws.getD 0 0 + 2 ^ 32 * ws.getD 1 0
  if !d.adjOn || !(d.adjState == 3 || d.adjState == 4) then d
  else
    let err : Int := (d.time : Int) - ns
    let d := d.setFld adjPg R.ADJ_TIME_ERR_NS (satTo 32 err)
    if d.pairFollow 0 then
      d.setAnchor 0 { d.anchor 0 with sub := ns * subPerNs, rate := signed 32 (ws.getD 2 0) }
    else d

-- ==== ADJ_CMD (R499, R500) ====

/-- YIELD is refused (R500). The behind count of the peer is 0 when its heartbeat reports the latest INDEX.
DEDUCED: assumption 20. -/
def Dev.yieldBarred (d : Dev) : Bool :=
  d.adjState != 5 || d.fld adjPg R.ADJ_STAT_PEER_STATE != 4 || d.adj.markIssued.isSome
    || d.adj.peerIndex != d.fld adjPg R.ADJ_ORDER_IDX_INDEX
    || orderedPages.any (fun p => d.flag p R.PAGE_LOCK_HELD)

/-- A write of ADJ_CMD. -/
def Dev.adjCmd (d : Dev) (v : Nat) : Dev :=
  if bitAt v 31 then
    if d.yieldBarred then d.refuse adjPg
    else
      let d := d.issue 4 0 0 0 0
      d.withAdj (fun a => { a with markIssued := some (d.fld adjPg R.ADJ_ORDER_IDX_INDEX) })
  else if bitAt v 30 then
    if d.adjState = 4 then d.copyStart else d.refuse adjPg
  else d

end Sys2Proof.Machine
end

