-- ==== Sys2Proof/Machine/Edge.lean ====
section
/-! DEFINITION. The commands of the edge buses (11) and of the Night Post's relay (12). -/

namespace Sys2Proof.Machine

-- ==== error counting (R299) ====

/-- Entry to bus-off: everything that waits is discarded, recovery starts by AUTO_RECOVER. -/
def Dev.busOffEnter (d : Dev) (n : Nat) : Dev :=
  let p := canPg n
  let d := (((d.canCut n).canDiscard n 10).cnt p 13).raise p 0
  let d := d.setFlag p R.EDG_CAN_STAT_RECOVERING (d.flag p R.EDG_CAN_CFG_AUTO_RECOVER)
  (d.trxNext n).fault { cls := 8, page := p, detail := d.word p 0x98 }

/-- Set the two counters and what follows from them: 0 error active, 1 error passive, 2 bus-off. -/
def Dev.canErr (d : Dev) (n tec rec0 : Nat) : Dev :=
  let p := canPg n
  let was := d.fld p R.EDG_CAN_STAT_ERR_STATE
  let st := if 255 < tec then 2 else if 127 < tec || 127 < rec0 then 1 else 0
  let d := (d.setFld p R.EDG_CAN_STAT_TEC (min tec 255)).setFld p R.EDG_CAN_STAT_REC (min rec0 255)
  let d := d.setFld p R.EDG_CAN_STAT_ERR_STATE st
  if st = 2 && was ≠ 2 then d.busOffEnter n
  else d.when (st == 1 && was == 0) (fun d => d.raise p 1)

/-- The transmit and the receive error counter. -/
def Dev.tec (d : Dev) (n : Nat) : Nat := d.fld (canPg n) R.EDG_CAN_STAT_TEC
/-- The receive error counter. -/
def Dev.recErr (d : Dev) (n : Nat) : Nat := d.fld (canPg n) R.EDG_CAN_STAT_REC

/-- A frame received well: REC counts down; from above 127 it takes a value from 119 to 127, which
ISO 11898-1 leaves open (free). -/
def Dev.recGood (d : Dev) (n : Nat) : Dev :=
  if 127 < d.recErr n then (d.draw.2).canErr n (d.tec n) (119 + Config.free d.drawn % 9)
  else d.canErr n (d.tec n) (d.recErr n - 1)

-- ==== receiving (R295, R296, R303, R484) ====

/-- The controller takes part in what goes on on its bus. -/
def Dev.canListens (d : Dev) (n : Nat) : Bool :=
  let p := canPg n
  d.isOn p && d.flag p R.EDG_CAN_STAT_PINS && d.flag p R.EDG_CAN_STAT_SYNC
    && decide (d.fld p R.EDG_CAN_TRX_STATE ≤ 1) && !d.keptAsleep (.can n) && !d.isoCan n && !d.busOff n

/-- A frame with the same identifier, format and data retires the first such message (R484); a relay copy so retired
has been sent by the peer. DESIGN CHOICE: assumption 150. -/
def Dev.txRetire (d : Dev) (n : Nat) (m : CanMsg) : Dev :=
  let c := d.can n
  let same (t : TxMsg) : Bool := t.msg.fmt == m.fmt && t.msg.ext == m.ext && t.msg.id == m.id && t.msg.data == m.data
  match c.tx.find? same with
  | some t =>
    let d := d.setCan n { c with tx := dropTx t c.tx }
    match t.np, d.npt.relay with
    | true, some r => d.copySent r
    | _, _ => d
  | none => d

/-- The format of a message is on at a controller. -/
def Dev.canKnows (d : Dev) (n : Nat) (m : CanMsg) : Bool :=
  m.fmt == 0 || (m.fmt == 1 && d.flag (canPg n) R.EDG_CAN_CFG_FD_EN) || (m.fmt == 2 && d.flag (canPg n) R.EDG_CAN_CFG_XL_EN)

/-- CAN_RX_VALID (R303): a message becomes valid, `ago` sub-cycles after its start of frame; `u` is what
the checks of its lookups find. A frame of a format that is off is a protocol exception unless PXHD. -/
def execCanRxValid (bus : Fin 24) (msg : CanMsg) (ago : Nat) (u : Upset) (s : State) : Answer :=
  s.runMain (fun d =>
    let n := bus.val
    let p := canPg n
    if !d.canListens n then d
    else if !d.canKnows n msg then
      if d.flag p R.EDG_CAN_CFG_PXHD then d
      else (d.cnt p 9).setFlag p R.EDG_CAN_STAT_SYNC false
    else
      let d := ((d.cnt p 0).when (msg.fmt == 1) (fun d => d.cnt p 1)).when (msg.fmt == 2) (fun d => d.cnt p 2)
      let d := (d.recGood n).when (d.canMuted n) (fun d => d.txRetire n msg)
      let at0 : Int := (d.now : Int) - ago
      d.edgeRx ⟨n, { msg with ts := none }, (d.stampAt 0 at0).toNat, (d.stampAt 1 at0).toNat, none, u⟩)

/-- CAN_RX_ERROR (R299): an error in a frame received; `eight` where REC counts up by 8. -/
def execCanRxError (bus : Fin 24) (eight : Bool) (s : State) : Answer :=
  s.runMain (fun d =>
    if d.canListens bus then (d.cnt (canPg bus) 12).canErr bus (d.tec bus) (d.recErr bus + if eight then 8 else 1) else d)

-- ==== sending (R307, R308) ====

/-- The message on the wire has left it. -/
def Dev.wireEnd (d : Dev) (n : Nat) (back : List TxMsg) : Dev :=
  let c := d.can n
  (d.setCan n { c with wire := none, tx := back ++ c.tx }).setFlag (canPg n) R.EDG_CAN_STAT_TX_ACTIVE false

/-- The loop delay is measured at an FD or XL data phase sent (R293); its value is free. -/
def Dev.tdcMeasure (d : Dev) (n : Nat) (m : CanMsg) : Dev :=
  if d.flag (canPg n) R.EDG_CAN_TDC_EN && (m.fmt == 2 || (m.fmt == 1 && m.brs)) then
    (d.draw.2).setFld (canPg n) R.EDG_CAN_TDC_MEASURED (Config.free d.drawn)
  else d

/-- CAN_TX_DONE (R307): the message on the wire has been sent. -/
def execCanTxDone (bus : Fin 24) (s : State) : Answer :=
  s.runMain (fun d =>
    let n := bus.val
    match (d.can n).wire with
    | none => d
    | some t =>
      let d := (((d.wireEnd n []).cnt (canPg n) 4).canErr n (d.tec n - 1) (d.recErr n)).tdcMeasure n t.msg
      let d := match t.np, d.npt.relay with
        | true, some r => d.copySent r
        | _, _ => d
      d.trxNext n)

/-- CAN_TX_ERROR (R307): the message on the wire has lost arbitration or met an error; `exempt` where
ISO 11898-1 leaves TEC as it is. -/
def execCanTxError (bus : Fin 24) (lost exempt : Bool) (s : State) : Answer :=
  s.runMain (fun d =>
    let n := bus.val
    match (d.can n).wire with
    | none => d
    | some t =>
      let (gone, d) : Bool × Dev := match t.np, d.npt.relay with
        | true, some r => d.copyFailed r
        | _, _ => (false, d)
      let d := d.wireEnd n (if gone then [] else [t])
      let d := if lost then d
        else (d.cnt (canPg n) 12).canErr n (d.tec n + if exempt then 0 else 8) (d.recErr n)
      d.trxNext n)

/-- TIMED_TX_DUE (R308): held messages whose time has come enter the transmit buffer. -/
def execTimedTxDue (bus : Fin 24) (s : State) : Answer :=
  s.runMain (fun d =>
    let c := d.can bus
    let now := d.clockNs (d.fld (canPg bus) R.EDG_CAN_CFG_TX_WC)
    let due := c.held.filter (fun m => decide (m.ts.getD 0 ≤ now))
    due.foldl (fun d m => d.txPlace bus { msg := m })
      (d.setCan bus { c with held := c.held.filter (fun m => !decide (m.ts.getD 0 ≤ now)) }))

/-- BUS_OFF_RECOVERED (R299): 128 occurrences of 11 recessive bits have been seen. -/
def execBusOffRecovered (bus : Fin 24) (s : State) : Answer :=
  s.runMain (fun d =>
    let p := canPg bus
    if d.busOff bus && d.flag p R.EDG_CAN_STAT_RECOVERING && !d.keptAsleep (.can bus) then
      ((d.canErr bus 0 0).setFlag p R.EDG_CAN_STAT_RECOVERING false).raise p 2
    else d)

/-- A write of EDG_CAN_CMD (R293, R299). -/
def Dev.canCmd (d : Dev) (n v : Nat) : Dev :=
  let d := d.when (bitAt v 31 && d.busOff n) (fun d => d.setFlag (canPg n) R.EDG_CAN_STAT_RECOVERING true)
  d.when (bitAt v 30) (fun d => d.canDrop n)

/-- CAN_RECOVER (R299). -/
def execCanRecover (who : Owner) (bus : Fin 24) (s : State) : Answer :=
  s.run (fun d => d.gateW who (canPg bus) 0x9C (2 ^ 31) (fun d => d.canCmd bus (2 ^ 31)))

/-- CAN_CLR_TX (R293). -/
def execCanClrTx (who : Owner) (bus : Fin 24) (s : State) : Answer :=
  s.run (fun d => d.gateW who (canPg bus) 0x9C (2 ^ 30) (fun d => d.canCmd bus (2 ^ 30)))

/-- STALE_TX_TIMEOUT (R484): messages of a shared controller without the claim that are unretired 2 ms
after they entered its buffer. -/
def execStaleTxTimeout (bus : Fin 24) (s : State) : Answer :=
  s.runMain (fun d =>
    let c := d.can bus
    let old (t : TxMsg) : Bool := decide (t.since + 2 * msTicks ≤ d.now)
    if d.canMuted bus then (d.canKeep bus (fun t => !old t) false).cnt adjPg 10 (c.tx.filter old).length else d)

-- ==== integration, transceiver and pins (R295 to R298) ====

/-- CAN_INTEGRATED (R295): 11 recessive bits in a row; CAN 0 and CAN 1 integrate in STARTING too (R298). -/
def execCanIntegrated (bus : Fin 24) (s : State) : Answer :=
  s.runMain (fun d =>
    let n := bus.val
    let p := canPg n
    let early := n < 2 && d.state p == 1 && !d.flag p R.EDG_CAN_STAT_PINS
    if early || (d.isOn p && decide (d.fld p R.EDG_CAN_TRX_STATE ≤ 1) && !d.keptAsleep (.can n)) then
      d.setFlag p R.EDG_CAN_STAT_SYNC true
    else d)

/-- A write of EDG_CAN_TRX (R293, R294, R296): SETTLE_US and PIN_MAP only while OFF. -/
def Dev.trxWrite (d : Dev) (n v : Nat) : Dev :=
  let p := canPg n
  let old := d.word p 0x94
  let kept := bits v 23 16 == bits old 23 16 && bits v 7 0 == bits old 7 0
  let ok := kept || (d.state p == 0 && bits v 23 16 != 0)
  if ok then
    let d := d.setFld p R.EDG_CAN_TRX_REQ (bits v 29 28)
    let d := (d.setFld p R.EDG_CAN_TRX_SETTLE_US (bits v 23 16)).setFld p R.EDG_CAN_TRX_PIN_MAP (bits v 7 0)
    d.when (d.isOn p) (fun d => d.trxUpdate n)
  else d.refuse p

/-- CAN_TRX_REQ (R296): a write of EDG_CAN_TRX. -/
def execCanTrxReq (who : Owner) (bus : Fin 24) (value : Word) (s : State) : Answer :=
  s.run (fun d => d.gateW who (canPg bus) 0x94 value.toNat (fun d => d.trxWrite bus value.toNat))

/-- CAN_TRX_SETTLED (R296): SETTLE_US has passed and STATE follows; STANDBY and SLEEP end
synchronisation. -/
def execCanTrxSettled (bus : Fin 24) (s : State) : Answer :=
  s.runMain (fun d =>
    let n := bus.val
    let c := d.can n
    match c.trxGoing with
    | none => d
    | some g =>
      let d := (d.setCan n { c with trxGoing := none }).setFld (canPg n) R.EDG_CAN_TRX_STATE g
      ((d.when (decide (2 ≤ g)) (fun d => d.setFlag (canPg n) R.EDG_CAN_STAT_SYNC false)).trxNext n).gapCheck 4)

-- ==== the route table (R302) ====

/-- A write of EDG_RT_CMD. -/
def Dev.rtGo (d : Dev) (v : Nat) : Dev :=
  let p := canPg 0
  if !bitAt v 31 then d.setWord p 0x830 (v % 2)
  else if d.flag p R.EDG_RT_STAT_BUSY then d.refuse p
  else
    let ws := (List.range 4).map (fun w => d.fld p (R.EDG_RT_W_WORD.at w))
    let d := { d with rtRun := some (bitAt v 0, d.fld p R.EDG_RT_SEL_INDEX, ws) }
    (d.setWord p 0x830 (v % 2)).setFlag p R.EDG_RT_STAT_BUSY true

/-- RT_READ (R302). -/
def execRtRead (who : Owner) (s : State) : Answer :=
  s.run (fun d => d.gateW who (canPg 0) 0x830 (2 ^ 31) (fun d => d.rtGo (2 ^ 31)))

/-- RT_WRITE (R302). -/
def execRtWrite (who : Owner) (s : State) : Answer :=
  s.run (fun d => d.gateW who (canPg 0) 0x830 (2 ^ 31 + 1) (fun d => d.rtGo (2 ^ 31 + 1)))

/-- RT_DONE (R300, R302): the command completes. -/
def execRtDone (s : State) : Answer :=
  s.runMain (fun d =>
    let p := canPg 0
    match d.rtRun with
    | none => d
    | some (write, i, ws) =>
      let bad := write && rtBad ws
      let d := { d with rtRun := none }
      let d := (List.range 4).foldl (fun d w =>
        if !write then d.setFld p (R.EDG_RT_W_WORD.at w) (d.rtWord i w)
        else if bad then d else d.setRt i w (ws.getD w 0)) d
      ((((d.setFlag p R.EDG_RT_STAT_BUSY false).setFlag p R.EDG_RT_STAT_DONE true).setFld p R.EDG_RT_STAT_RESULT
        (b2n bad)).raise p 7).digestResult 4 (b2n bad))

-- ==== LIN (R309 to R312) ====

/-- The controller may drive its bus. -/
def Dev.linDrives (d : Dev) (m : Nat) : Bool :=
  !d.linMuted m && !d.safe && !d.isoLin m && !d.keptAsleep (.lin m)

/-- The publish entry of an identifier: a flag of its word 0. -/
def Dev.pub (d : Dev) (m id : Nat) (f : Fld) : Bool := d.flag (linPg m) (f.at id)

/-- Its data bytes. -/
def Dev.pubData (d : Dev) (m id : Nat) : List Byte :=
  (leBytes 8 (d.fld (linPg m) (R.EDG_LIN_PUB_DATA_DATA.at id))).take (d.fld (linPg m) (R.EDG_LIN_PUB_W0_LEN.at id))

/-- Send the response of an identifier from the publish buffer. -/
def Dev.linRespond (d : Dev) (m id : Nat) : Dev :=
  let d := ((d.emit (.lin m id (d.pubData m id))).cnt (linPg m) 1).setFlag (linPg m) (R.EDG_LIN_PUB_W0_FRESH.at id) false
  d.setLin m { d.lin m with sending := true }

/-- Send a header; then the response, or await one. -/
def Dev.linHeader (d : Dev) (m id : Nat) (own : Bool) : Dev :=
  let await (d : Dev) : Dev := d.setLin m { d.lin m with await := some id }
  if !d.linDrives m then await d
  else
    let d := (d.emit (.lin m id [])).cnt (linPg m) 0
    if own then d.linRespond m id else await d

/-- A slot or frame ends: a response that is still awaited has not come. -/
def Dev.linMissed (d : Dev) (m : Nat) : Dev :=
  let d := d.setLin m { d.lin m with sending := false }
  if (d.lin m).await.isSome then
    ((d.setLin m { d.lin m with await := none }).cnt (linPg m) 3).raise (linPg m) 1
  else d

/-- A slot of the active table starts (R312). -/
def Dev.linSlot (d : Dev) (m i : Nat) : Dev :=
  let p := linPg m
  let d := d.setFld p R.EDG_LIN_SCHED_CUR_SLOT i
  let type := d.fld p (R.EDG_LIN_ACTIVE_TYPE.at i)
  let id := if type = 2 then 0x3C else if type = 3 then 0x3D else d.fld p (R.EDG_LIN_ACTIVE_FRAME_ID.at i)
  let valid := d.pub m id R.EDG_LIN_PUB_W0_VALID
  let own := d.pub m id R.EDG_LIN_PUB_W0_PUBLISH && valid
  if type = 0 then d.linHeader m id own
  else if type = 1 then if d.pub m id R.EDG_LIN_PUB_W0_FRESH then d.linHeader m id own else d.cnt p 7
  else if type = 2 then if valid then d.linHeader m id true else d
  else d.linHeader m id false

/-- The inactive table becomes the active one (R311), and its slot 0 starts; on a page that is not ON the slot waits
for the next LIN_SLOT_START. DESIGN CHOICE: assumption 149. -/
def Dev.linSwap (d : Dev) (m : Nat) : Dev :=
  let p := linPg m
  let d := d.linTables m
  let n := (d.lin m).len
  let d := d.setLin m { d.lin m with running := n != 0, first := false, restart := false }
  if n = 0 then d.setFld p R.EDG_LIN_SCHED_CUR_SLOT 0
  else if d.isOn p then d.linSlot m 0
  else d.setLin m { d.lin m with restart := true }

/-- A slot of the inactive table bars a switch (R310). -/
def Dev.slotBad (d : Dev) (m i : Nat) : Bool :=
  let p := linPg m
  let slot := d.fld p (R.EDG_LIN_INACTIVE_SLOT.at i)
  let n := if 2 ≤ d.fld p (R.EDG_LIN_INACTIVE_TYPE.at i) then 8
    else d.fld p (R.EDG_LIN_PUB_W0_LEN.at (d.fld p (R.EDG_LIN_INACTIVE_FRAME_ID.at i)))
  slot == 0 || decide (slot * d.fld p R.EDG_LIN_CFG_BAUD * 10 < 140000 * (34 + 10 * (n + 1)))

/-- A write of EDG_LIN_SCHED (R309 to R311). -/
def Dev.linSched (d : Dev) (m v : Nat) : Dev :=
  let p := linPg m
  let len := bits v 15 8
  if d.flag p R.EDG_LIN_SCHED_PENDING then if bitAt v 31 then d else d.refuse p
  else if 64 < len then d.refuse p
  else
    let d := d.setFld p R.EDG_LIN_SCHED_LEN len
    if !bitAt v 31 || !d.flag p R.EDG_LIN_CFG_MASTER then d
    else if (List.range len).any (d.slotBad m) then d.refuse p
    else
      let l := d.lin m
      if l.running || d.fld p R.EDG_LIN_CFG_SCHED_WC ≠ 0 then
        (d.setLin m { l with first := !l.running }).setFlag p R.EDG_LIN_SCHED_PENDING true
      else d.linSwap m

/-- LIN_SWITCH (R311): a write of EDG_LIN_SCHED with SWITCH. -/
def execLinSwitch (who : Owner) (bus : Fin 8) (len : BitVec 8) (s : State) : Answer :=
  let v := 2 ^ 31 + len.toNat * 2 ^ 8
  s.run (fun d => d.gateW who (linPg bus) 0x84 v (fun d => d.linSched bus v))

/-- LIN_SLOT_START (R311, R312): the current slot has ended, or the first cycle start is reached: a
pending switch takes effect, else the next slot starts. -/
def execLinSlotStart (bus : Fin 8) (s : State) : Answer :=
  s.runMain (fun d =>
    let m := bus.val
    let p := linPg m
    let l := d.lin m
    if !d.isOn p || !d.flag p R.EDG_LIN_CFG_MASTER || !(l.running || l.first) then d
    else
      let d := d.linMissed m
      if d.keptAsleep (.lin m) then d.setLin m { d.lin m with restart := true }
      else if d.flag p R.EDG_LIN_SCHED_PENDING then
        if l.first && decide (d.clockNs (d.fld p R.EDG_LIN_CFG_SCHED_WC) < d.fld p R.EDG_LIN_SCHED_START_NS) then d
        else d.linSwap m
      else
        let i := if l.restart then 0 else (d.fld p R.EDG_LIN_SCHED_CUR_SLOT + 1) % max l.len 1
        (d.setLin m { d.lin m with restart := false }).linSlot m i)

/-- LIN_HEADER_RX (R312): a slave receives a header: it responds, or awaits the response. -/
def execLinHeaderRx (bus : Fin 8) (id : Fin 64) (s : State) : Answer :=
  s.runMain (fun d =>
    let m := bus.val
    let p := linPg m
    if !d.isOn p || d.flag p R.EDG_LIN_CFG_MASTER || d.keptAsleep (.lin m) then d
    else
      let d := d.linMissed m
      if d.linDrives m && d.pub m id R.EDG_LIN_PUB_W0_PUBLISH && d.pub m id R.EDG_LIN_PUB_W0_VALID then d.linRespond m id
      else d.setLin m { d.lin m with await := some id })

/-- The protected identifier of ISO 17987. -/
def linPid (id : Nat) : Nat :=
  let b (i : Nat) : Nat := b2n (bitAt id i)
  id + (b 0 + b 1 + b 2 + b 4) % 2 * 64 + (1 + b 1 + b 3 + b 4 + b 5) % 2 * 128

/-- The checksum of ISO 17987 over a list of bytes: the sum with carries, inverted. -/
def linSum (bs : List Nat) : Nat :=
  255 - bs.foldl (fun a b => if 255 < a + b then a + b - 255 else a + b) 0

/-- LIN_RESPONSE_RX (R312): the awaited response ends, `bytes` with its checksum last, its start of frame
`ago` sub-cycles back; `err` 1 framing, 2 bit error, which can also meet the node's own response. -/
def execLinResponseRx (bus : Fin 8) (bytes : List Byte) (err : Fin 3) (ago : Nat) (u : Upset) (s : State) : Answer :=
  s.runMain (fun d =>
    let m := bus.val
    let p := linPg m
    match (d.lin m).await with
    | none =>
      if err.val = 2 && (d.lin m).sending then (d.setLin m { d.lin m with sending := false }).cnt p 6 else d
    | some id =>
      let diag := decide (0x3C ≤ id)
      let n := if diag then 8 else d.fld p (R.EDG_LIN_PUB_W0_LEN.at id)
      let data := bytes.take n
      let sum := linSum ((if !diag && d.pub m id R.EDG_LIN_PUB_W0_ENHANCED then [linPid id] else []) ++ data.map (·.toNat))
      let d := d.setLin m { d.lin m with await := none }
      if !d.isOn p then d
      else if err.val = 2 then d.cnt p 6
      else if err.val = 1 || bytes.length ≠ n + 1 then d.cnt p 5
      else if sum ≠ (bytes.getD n 0).toNat then (d.cnt p 4).raise p 2
      else
        let d := d.cnt p 2
        if d.isoLin m then d
        else
          let at0 : Int := (d.now : Int) - ago
          d.edgeRx ⟨24 + m, { fmt := 3, id := id, data := data }, (d.stampAt 0 at0).toNat, (d.stampAt 1 at0).toNat, none, u⟩)

-- ==== the Night Post's relay (R336 to R343) ====

/-- WAKE_FRAME_RX (R336, R337): a frame becomes valid on CAN 0 at NP-CAN A. -/
def execWakeFrameRx (fd ext : Bool) (id : BitVec 29) (data : List Byte) (s : State) : Answer :=
  s.run (fun d => d.wakeFrame fd ext id.toNat data)

/-- NP_VERIFY_DONE (R337, R341): Wax has finished the verification. -/
def execNpVerifyDone (s : State) : Answer := s.run Dev.npVerified

/-- RELAY_COPY_DUE (R339): GAP_MS has passed. -/
def execRelayCopyDue (s : State) : Answer := s.run Dev.relayDue

/-- RELAY_COPY_DONE (R339): an attempt of NP-CAN B ends, well or not. -/
def execRelayCopyDone (ok : Bool) (s : State) : Answer := s.run (fun d => d.relayTried ok)

end Sys2Proof.Machine
end

