-- ==== Sys2Proof/Machine/Ports.lean ====
section
/-! DEFINITION. The meanings of the port commands (04): drain, link state, MDIO, MAC merge, PLCA and
TC10. -/

namespace Sys2Proof.Machine

/-- PORT_DRAIN_TIMEOUT (R95): at T the frames still queued are freed; a frame on the wire
completes. -/
def execPortDrainTimeout (p : Fin 40) (s : State) : Answer :=
  s.runMain (fun d => if d.state (prtPg p) = 3 then d.flushPort p 12 else d)

/-- PCS_LOCK_CHANGE (R96): lock is gained or lost on a port that is not OFF. -/
def execPcsLockChange (p : Fin 40) (lock : Bool) (s : State) : Answer :=
  s.runMain (fun d => if d.state (prtPg p) = 0 then d
    else (d.setFlag (prtPg p) R.PRT_LINK_STAT_PCS_LOCK lock).linkCheck p)

/-- The fault bits of a port take new values (R97): a rise raises its event. -/
def Dev.faultBits (d : Dev) (n : Nat) (lo re : Bool) : Dev :=
  let p := prtPg n
  let lo0 := d.flag p R.PRT_LINK_STAT_LOCAL_FAULT
  let re0 := d.flag p R.PRT_LINK_STAT_REMOTE_FAULT
  let d := (d.setFlag p R.PRT_LINK_STAT_LOCAL_FAULT lo).setFlag p R.PRT_LINK_STAT_REMOTE_FAULT re
  let d := d.setPort n { d.port n with sendRemoteFault := lo }
  let d := d.when (lo && !lo0) (fun d => d.raise p 2)
  let d := d.when (re && !re0) (fun d => d.raise p 3)
  d.linkCheck n

/-- LINK_FAULT_RX (R97): only interfaces with link fault signalling on a port that is not OFF. -/
def execLinkFaultRx (p : Fin 40) (localFault remoteFault : Bool) (s : State) : Answer :=
  s.runMain (fun d => if d.state (prtPg p) ≠ 0 && d.hasFaultSignal p then
    d.faultBits p localFault remoteFault else d)

/-- AN_DONE (R96): auto-negotiation resolves a speed up to SPEED. -/
def execAnDone (p : Fin 40) (speed : Fin 16) (s : State) : Answer :=
  s.runMain (fun d =>
    let g := prtPg p
    if d.state g ≠ 0 && d.flag g R.PRT_MODE_AN then
      (d.setFlag g R.PRT_LINK_STAT_AN_DONE true).setFld g R.PRT_LINK_STAT_RES_SPEED
        (min speed.val (d.fld g R.PRT_MODE_SPEED))
    else d)

/-- LINK_UP (R96): the conditions have held for UP_HOLD. -/
def execLinkUp (p : Fin 40) (s : State) : Answer :=
  s.runMain (fun d =>
    if d.isOn (prtPg p) && d.linkGood p && !d.flag (prtPg p) R.PRT_LINK_STAT_UP then d.upRises p else d)

/-- The ports a master polls: those that name it, ON or STOPPING (R104 states no page state). DESIGN CHOICE: assumption
134. -/
def Dev.polled (d : Dev) (m : Nat) : List Nat :=
  (List.range 40).filter (fun n =>
    d.fld (prtPg n) R.PRT_PHY_MASTER == m && (d.state (prtPg n) == 2 || d.state (prtPg n) == 3))

/-- MDIO_POLL (R104): `reads` gives what the PHY of a port answers, its polled register and its TC10
status; a port it does not name answers 0xFFFF. -/
def execMdioPoll (m : Fin 4) (reads : List (Nat × Nat × Nat)) (s : State) : Answer :=
  s.runMain (fun d =>
    if d.fld (prtPg 0) (R.PRT_MDIO_CFG_POLL_MS.at m) = 0 then d
    else (d.polled m).foldl (fun d n =>
      match reads.find? (fun r => r.1 == n) with
      | some r => d.pollPort n r.2.1 r.2.2
      | none => d.pollPort n 0xFFFF 0xFFFF) d)

/-- The value of PRT_MDIO_CMD for a command (R104). -/
def mdioCmd (op : Nat) (c45 : Bool) (phyad devad : Fin 32) (reg : BitVec 16) : Nat :=
  2 ^ 31 + op * 2 ^ 28 + b2n c45 * 2 ^ 27 + phyad.val * 2 ^ 22 + devad.val * 2 ^ 17 + reg.toNat

/-- MDIO_WRITE (R104): GO with OP write. -/
def execMdioWrite (who : Owner) (m : Fin 4) (c45 : Bool) (phyad devad : Fin 32) (reg : BitVec 16)
    (s : State) : Answer :=
  let v := mdioCmd 0 c45 phyad devad reg
  s.run (fun d => d.gateW who (prtPg 0) (0x804 + 0x40 * m) v (fun d => d.mdioGo m v))

/-- MDIO_READ (R104): GO with OP read. -/
def execMdioRead (who : Owner) (m : Fin 4) (c45 : Bool) (phyad devad : Fin 32) (reg : BitVec 16)
    (s : State) : Answer :=
  let v := mdioCmd 1 c45 phyad devad reg
  s.run (fun d => d.gateW who (prtPg 0) (0x804 + 0x40 * m) v (fun d => d.mdioGo m v))

/-- MDIO_DONE (R104): the command finishes; `answer` is what the PHY drove. -/
def execMdioDone (m : Fin 4) (answer : BitVec 16) (s : State) : Answer :=
  s.runMain (fun d => d.mdioEnd m answer.toNat)

/-- MM_VERIFY_TX (R101): a verify frame is sent, at most three times; then verification fails. -/
def execMmVerifyTx (p : Fin 24) (s : State) : Answer :=
  s.runMain (fun d =>
    let g := prtPg p
    let v := d.fld g R.PRT_MM_STAT_VERIFY
    let x := d.port p
    if !d.flag g R.PRT_LINK_STAT_UP || !(v == 1 || v == 2) then d
    else if x.verifyTries < 3 then
      ((d.setFld g R.PRT_MM_STAT_VERIFY 2).setPort p { x with verifyTries := x.verifyTries + 1 }).emit
        (.mmVerify p)
    else ((d.setFld g R.PRT_MM_STAT_VERIFY 4).mmActive p).raise g 4)

/-- MM_VERIFY_RESPONSE (R101): a matching response is received. -/
def execMmVerifyResponse (p : Fin 24) (s : State) : Answer :=
  s.runMain (fun d =>
    if d.fld (prtPg p) R.PRT_MM_STAT_VERIFY = 2 then
      (d.setFld (prtPg p) R.PRT_MM_STAT_VERIFY 3).mmActive p else d)

/-- A port that runs PLCA: ON with EN = 1 and a node number. -/
def Dev.plcaOn (d : Dev) (n : Nat) : Bool := d.isOn (prtPg n) && d.flag (prtPg n) R.PRT_PLCA_EN

/-- PLCA_BEACON_TX (R103): a coordinator, port 32 + `k`, sends its beacon. -/
def execPlcaBeaconTx (k : Fin 8) (s : State) : Answer :=
  s.runMain (fun d =>
    let n := 32 + k.val
    if d.plcaOn n && d.fld (prtPg n) R.PRT_PLCA_NODE_ID == 0 then
      ((d.setFlag (prtPg n) R.PRT_PLCA_STAT_ACTIVE true).prtCnt n 22).emit (.beacon n) else d)

/-- PLCA_BEACON_RX (R103): a follower receives a beacon. -/
def execPlcaBeaconRx (k : Fin 8) (s : State) : Answer :=
  s.runMain (fun d =>
    let n := 32 + k.val
    if d.plcaOn n && d.fld (prtPg n) R.PRT_PLCA_NODE_ID != 0 then
      (d.setFlag (prtPg n) R.PRT_PLCA_STAT_ACTIVE true).prtCnt n 22 else d)

/-- PLCA_BEACON_LOST (R103): 400 µs without a beacon. -/
def execPlcaBeaconLost (k : Fin 8) (s : State) : Answer :=
  s.runMain (fun d =>
    let n := 32 + k.val
    if d.plcaOn n && d.fld (prtPg n) R.PRT_PLCA_NODE_ID != 0 then
      (d.setFlag (prtPg n) R.PRT_PLCA_STAT_ACTIVE false).raise (prtPg n) 7 else d)

/-- A write of PRT_TC10_CTRL (R105, R106). -/
def Dev.tc10Ctrl (d : Dev) (n v : Nat) : Dev :=
  let cmd := bits v 1 0
  if (cmd = 1 || cmd = 2) && !d.isOn (prtPg n) then d.refuse (prtPg n)
  else
    let d := d.setFld (prtPg n) R.PRT_TC10_CTRL_ACCEPT_REMOTE (bits v 8 8)
    if cmd = 1 then d.tc10Sleep n else if cmd = 2 then d.tc10Wake n else d

/-- TC10_SLEEP_CMD (R105): CMD sleep, with the value of ACCEPT_REMOTE written beside it. -/
def execTc10SleepCmd (who : Owner) (p : Fin 40) (acceptRemote : Bool) (s : State) : Answer :=
  let v := b2n acceptRemote * 2 ^ 8 + 1
  s.run (fun d => d.gateW who (prtPg p) 0xE0 v (fun d => d.tc10Ctrl p v))

/-- TC10_WAKE_CMD (R105): CMD wake. -/
def execTc10WakeCmd (who : Owner) (p : Fin 40) (acceptRemote : Bool) (s : State) : Answer :=
  let v := b2n acceptRemote * 2 ^ 8 + 2
  s.run (fun d => d.gateW who (prtPg p) 0xE0 v (fun d => d.tc10Ctrl p v))

/-- TC10_DRAIN_DONE (R105). -/
def execTc10DrainDone (p : Fin 40) (s : State) : Answer := s.runMain (fun d => d.tc10Drained p)

/-- TC10_SLEEP_TIMEOUT (R105). -/
def execTc10SleepTimeout (p : Fin 40) (s : State) : Answer := s.runMain (fun d => d.tc10SleepTime p)

/-- TC10_WAKE_TIMEOUT (R105). -/
def execTc10WakeTimeout (p : Fin 40) (s : State) : Answer := s.runMain (fun d => d.tc10WakeTime p)

end Sys2Proof.Machine
end

