-- ==== Sys2Proof/Machine/Power.lean ====
section
/-! DEFINITION. The meanings of the power-state, operating-point and supply commands (13). -/

namespace Sys2Proof.Machine

/-- A write of PWR_STATE_REQ: TARGET is kept, GO requests it (R353, R361). -/
def Dev.stateReqWrite (d : Dev) (v : Nat) : Dev :=
  let d' := d.setFld pwrPg R.PWR_STATE_REQ_TARGET (bits v 2 0)
  if bitAt v 31 then d'.stRequest (bits v 2 0) else d'

/-- STATE_REQ_RUN (R353). -/
def execStateReqRun (who : Owner) (s : State) : Answer :=
  s.run (fun d => d.gateW who pwrPg 0x80 (2 ^ 31) (fun d => d.stateReqWrite (2 ^ 31)))

/-- STATE_REQ_IDLE (R346). -/
def execStateReqIdle (who : Owner) (s : State) : Answer :=
  s.run (fun d => d.gateW who pwrPg 0x80 (2 ^ 31 + 1) (fun d => d.stateReqWrite (2 ^ 31 + 1)))

/-- STATE_REQ_OFF (R347). -/
def execStateReqOff (who : Owner) (s : State) : Answer :=
  s.run (fun d => d.gateW who pwrPg 0x80 (2 ^ 31 + 4) (fun d => d.stateReqWrite (2 ^ 31 + 4)))

/-- Off is reached (R347): main-domain state is lost, the event records having gone to retention, and
every WAKE_EN is released; a wake latched during entry is taken at once. -/
def Dev.enterOff (d : Dev) : Dev :=
  let woken := !d.npt.latched.isEmpty
  let d := d.pinsDown.mainClear false
  let d := { d with dst := {}, start := { d.start with released := false, step := 0, barsDecoded := false, spiUp := false } }
  let d := [2, 1, 0, 3].foldl (fun d k => d.wakeEn k false) d
  d.when woken Dev.wakeOff

/-- A write of PWR_OP_REQ: OP is kept, GO requests it. -/
def Dev.opReqWrite (d : Dev) (v : Nat) : Dev :=
  let d' := d.setFld pwrPg R.PWR_OP_REQ_OP (bits v 1 0)
  if bitAt v 31 then d'.opRequest (bits v 1 0) else d'

/-- OP_REQUEST (R353). -/
def execOpRequest (who : Owner) (op : Fin 4) (s : State) : Answer :=
  let v := 2 ^ 31 + op.val
  s.run (fun d => d.gateW who pwrPg 0x88 v (fun d => d.opReqWrite v))

/-- The supply did not settle, or the regulator did not acknowledge (R360). -/
def Dev.voutErr (d : Dev) : Dev :=
  let d := ((d.setFlag pwrPg R.PWR_PMB_STAT_ERR true).cnt pwrPg 4).raise pwrPg 2
  d.fault { cls := 5, page := pwrPg }

/-- OP_TRANSITION_DONE (R357, R360): `settled` says that the voltage settled, which counts under
PMBus control. -/
def execOpTransitionDone (settled : Bool) (s : State) : Answer :=
  s.run (fun d =>
    if d.flag pwrPg R.PWR_OP_STAT_BUSY then
      let d := d.setFld pwrPg R.PWR_OP_STAT_CUR (d.fld pwrPg R.PWR_OP_STAT_NEXT)
      let d := ((d.setFlag pwrPg R.PWR_OP_STAT_BUSY false).cnt pwrPg 1).raise pwrPg 1
      let d := d.when (!settled && d.flag pwrPg R.PWR_VCTRL_PMBUS_EN) Dev.voutErr
      d.opPending
    else d)

/-- TRIM_CHECK (R359): when the margin is too small TRIM is raised by one as a transition to the
present operating point, or beyond 3 a SUPPLY fault is raised. -/
def execTrimCheck (needed : Bool) (s : State) : Answer :=
  s.runMain (fun d =>
    let t := d.fld pwrPg R.PWR_OP_TRIM_TRIM
    if !needed then d
    else if t = 3 then d.fault { cls := 5, page := pwrPg }
    else
      let d := d.setFld pwrPg R.PWR_OP_TRIM_TRIM (t + 1)
      let d := { d with start := { d.start with trimStored := t + 1 } }
      let d := d.raise pwrPg 4
      if d.flag pwrPg R.PWR_OP_STAT_BUSY then
        if d.flag pwrPg R.PWR_OP_STAT_PEND_VALID then d
        else (d.setFld pwrPg R.PWR_OP_STAT_PEND (d.fld pwrPg R.PWR_OP_STAT_NEXT)).setFlag pwrPg
          R.PWR_OP_STAT_PEND_VALID true
      else d.opStart (d.fld pwrPg R.PWR_OP_STAT_CUR))

/-- PMBUS_TELEMETRY (R360): READ_VOUT is read, or the transaction fails. -/
def execPmbusTelemetry (mv : Option (BitVec 16)) (s : State) : Answer :=
  s.runMain (fun d =>
    if !d.flag pwrPg R.PWR_VCTRL_PMBUS_EN then d
    else match mv with
      | some v => d.setFld pwrPg R.PWR_PMB_STAT_VOUT_MV v.toNat
      | none => (d.setFlag pwrPg R.PWR_PMB_STAT_ERR true).cnt pwrPg 4)

/-- The group enabled after another at power-up (R364). -/
def nextGroup (g : Nat) : Option Nat :=
  if g = 3 then some 0 else if g = 0 then some 1 else if g = 1 then some 2 else none

/-- SUPPLY_GOOD (R364): the awaited monitor reports good and the next enable is asserted; with the last one at
the exit from Slumber PCIE_WAKE_N goes low (R348). -/
def execSupplyGood (g : Fin 4) (s : State) : Answer :=
  s.run (fun d =>
    if d.supply.wait = some g.val then
      match nextGroup g with
      | some k => d.supplyFrom k
      | none =>
        let d : Dev := { d with supply := { d.supply with wait := none } }
        d.when (d.round == 4 && d.toSlumber) (fun d =>
          Dev.emit { d with pcie := { d.pcie with wakeLow := true } } (.pin 0x22 0))
    else d)

/-- SUPPLY_TIMEOUT (R364): the awaited group is not good in time. -/
def execSupplyTimeout (g : Fin 4) (s : State) : Answer :=
  s.run (fun d =>
    if d.supply.wait = some g.val then
      let d := { d with supply := { d.supply with wait := none } }
      let d := [2, 1, 0, 3].foldl (fun d k => d.wakeEn k false) d
      let d := d.fault { cls := 5, page := pwrPg }
      let d := (d.setFld pwrPg R.PWR_STATE_STAT_CUR 4).setFld pwrPg R.PWR_STATE_STAT_NEXT 4
      d.setRound 0
    else d)

end Sys2Proof.Machine
end

