-- ==== Sys2Proof/Machine/Sleep.lean ====
section
/-! DEFINITION. The meanings of the wake, sleep-round and awake-time commands (12), but for the end
of entry. -/

namespace Sys2Proof.Machine

/-- WAKE_SOURCE_FIRE (R316, R318): a pin or bus source fires; a CAN source only while its transceiver
is in STANDBY or SLEEP. -/
def execWakeSourceFire (source : Fin 40) (s : State) : Answer :=
  s.run (fun d =>
    let n := source.val
    if 8 ≤ n && n < 32 && d.fld (canPg (n - 8)) R.EDG_CAN_TRX_STATE < 2 then d else d.fire n)

/-- NPT_ALARM (R319): carried anchor 0 time has reached NPT_ALARM; it fires once and reads 0. -/
def execNptAlarm (s : State) : Answer :=
  s.run (fun d =>
    let t := d.fld nptPg R.NPT_ALARM_NS
    if t ≠ 0 ∧ t ≤ d.carriedNs then (d.setFld nptPg R.NPT_ALARM_NS 0).fire 0x29 else d)

/-- A write of NPT_SLEEP_CMD (R320, R322, R501): CANCEL, then GO with FORCE and TARGET. -/
def Dev.sleepCmd (d : Dev) (v : Nat) : Dev :=
  let t := bits v 1 0
  let d := d.when (bitAt v 30) Dev.cancelCmd
  if !bitAt v 31 then d
  else if !(t == 1 || t == 2) || d.adjState == 4 then d.refuse nptPg
  else d.sleepGo t (bitAt v 29)

/-- SLEEP_GO (R322). -/
def execSleepGo (who : Owner) (target : Fin 4) (s : State) : Answer :=
  let v := 2 ^ 31 + target.val
  s.run (fun d => d.gateW who nptPg 0x100 v (fun d => d.sleepCmd v))

/-- SLEEP_GO_FORCE (R322). -/
def execSleepGoForce (who : Owner) (target : Fin 4) (s : State) : Answer :=
  let v := 2 ^ 31 + 2 ^ 29 + target.val
  s.run (fun d => d.gateW who nptPg 0x100 v (fun d => d.sleepCmd v))

/-- SLEEP_CANCEL (R320). -/
def execSleepCancel (who : Owner) (s : State) : Answer :=
  s.run (fun d => d.gateW who nptPg 0x100 (2 ^ 30) (fun d => d.sleepCmd (2 ^ 30)))

/-- PHASE_MSG_REPEAT (R322). -/
def execPhaseMsgRepeat (s : State) : Answer :=
  s.run (fun d => if d.round = 1 then d.phaseMsg 1 else d)

/-- SLEEP_MSG_RX (R321): an 11-bit message on a sleep bus is a ready or a stay-awake message. -/
def execSleepMsgRx (bus : Fin 24) (id : BitVec 11) (s : State) : Answer :=
  s.run (fun d =>
    let i := id.toNat
    let base := i - i % 32
    if !bitAt (d.fld nptPg R.NPT_SLEEP_BUSES_CAN) bus then d
    else if base = d.fld nptPg R.NPT_SLEEP_ID_READY_BASE then
      (d.setFld nptPg R.NPT_READY_READY (d.fld nptPg R.NPT_READY_READY ||| 2 ^ (i % 32))).readyCheck
    else if base = d.fld nptPg R.NPT_STAY_ID_STAY_BASE then d.stayAwake (i % 32)
    else d)

/-- A W1S write of NPT_READY (R320). -/
def Dev.readyWrite (d : Dev) (v : Nat) : Dev :=
  (d.setFld nptPg R.NPT_READY_READY (d.fld nptPg R.NPT_READY_READY ||| v)).readyCheck

/-- READY_REPORT (R320). -/
def execReadyReport (who : Owner) (nodes : Word) (s : State) : Answer :=
  s.run (fun d => d.gateW who nptPg 0x110 nodes.toNat (fun d => d.readyWrite nodes.toNat))

/-- PREP_MIN_EXPIRE (R322). -/
def execPrepMinExpire (s : State) : Answer :=
  s.run (fun d => if d.round = 1 then
    (d.withNpt (fun n => { n with prepMinPassed := true })).readyCheck else d)

/-- PREP_TIMER_EXPIRE (R322). -/
def execPrepTimerExpire (s : State) : Answer :=
  s.run (fun d => if d.round = 1 then (d.cnt nptPg 8).commitPoint else d)

/-- A write of NPT_PN_CTRL (R328): WAKE and SLEEP together are refused. -/
def Dev.pnCtrl (d : Dev) (v : Nat) : Dev :=
  let g := bits v 7 0
  let awake := d.fld nptPg R.NPT_SLEEP_STAT_GROUPS_AWAKE
  if bitAt v 31 && bitAt v 30 then d.refuse nptPg
  else
    let d := d.setFld nptPg R.NPT_PN_CTRL_GROUPS g
    if bitAt v 31 then (d.setGroups (awake ||| g)).members d (fun m => (onesOf g 8).any (d.inGroup m))
    else if bitAt v 30 then (d.setGroups (awake &&& (0xFF - g))).members d (fun _ => false)
    else d

/-- PN_WAKE (R328). -/
def execPnWake (who : Owner) (groups : BitVec 8) (s : State) : Answer :=
  let v := 2 ^ 31 + groups.toNat
  s.run (fun d => d.gateW who nptPg 0x158 v (fun d => d.pnCtrl v))

/-- PN_SLEEP (R328). -/
def execPnSleep (who : Owner) (groups : BitVec 8) (s : State) : Answer :=
  let v := 2 ^ 30 + groups.toNat
  s.run (fun d => d.gateW who nptPg 0x158 v (fun d => d.pnCtrl v))

/-- USE_SOURCE_CHANGE (R331, R333): WAKE_IN `pin` becomes active or inactive. -/
def execUseSourceChange (pin : Fin 8) (active : Bool) (s : State) : Answer :=
  s.run (fun d =>
    let was := d.inUse
    let d := d.awakeHold (fun d => d.setFlag nptPg (R.NPT_SRC_STAT_ACTIVE.at pin) active)
    if d.inUse then d.when (active && d.flag nptPg (R.NPT_SRC_CFG_USE.at pin)) Dev.quarEndAll
    else d.when was Dev.awakeLoad)

/-- The offender of an expired awake timer (R332): source and stay-awake node, 0xFF for none. -/
def Dev.offenderOf (d : Dev) : Nat × Nat :=
  match d.npt.canceller with
  | some c => c
  | none => if d.flag nptPg R.NPT_WAKE_FIRST_VALID then (d.fld nptPg R.NPT_WAKE_FIRST_SOURCE, 0)
            else (0xFF, 0)

/-- Quarantine the offender (R332): a stay-awake node by its identifier, never source 0x2A. -/
def Dev.quarOffender (d : Dev) (s n : Nat) : Dev :=
  if s = 0xFF || s = 0x2A then d
  else if s = 0x2B then
    (d.withNpt (fun x => { x with
      stayQuar := x.stayQuar.set n (d.fld nptPg R.NPT_MAX_AWAKE_QUAR_MIN) })).raise nptPg 5
  else d.quarantine s

/-- MAX_AWAKE (R332): the awake timer has reached 0. -/
def execMaxAwake (s : State) : Answer :=
  s.run (fun d =>
    if d.awakeCounts && d.awakeLeft == 0 then
      let (src, node) := d.offenderOf
      let d := d.awakeHold (fun d => d)
      let d := (d.quarOffender src node).offender src 1 node
      let d := (d.raise nptPg 4).cnt nptPg 11
      d.sleepGo (d.fld nptPg R.NPT_MAX_AWAKE_TARGET) true
    else d)

/-- QUARANTINE_END (R333): of a source, or of stay-awake node `node` for source 0x2B. -/
def execQuarantineEnd (source : Fin 48) (node : Fin 32) (s : State) : Answer :=
  s.run (fun d =>
    if source.val = 0x2B then d.withNpt (fun n => { n with stayQuar := n.stayQuar.erase node })
    else if d.flag nptPg (R.NPT_SRC_STAT_QUAR.at source) then d.quarEnd source else d)

/-- WAKE_HOUR_RESTART (R317): every WAKES_HOUR begins again at 0. -/
def execWakeHourRestart (s : State) : Answer :=
  s.run (fun d => (List.range 48).foldl
    (fun d i => d.setFld nptPg (R.NPT_SRC_STAT_WAKES_HOUR.at i) 0) d)

/-- NP_OSC_STOP (R335): the oscillator stops when no frame waits and no relay runs. -/
def execNpOscStop (s : State) : Answer :=
  s.run (fun d => if d.npt.frames.isEmpty && d.npt.relay.isNone then
    d.withNpt (fun n => { n with oscillator := false }) else d)

end Sys2Proof.Machine
end

