-- ==== Sys2Proof/Machine/RegWrite.lean ====
section
/-! DEFINITION. What a write of any register does once the checks of the gate have passed (R28): the plain
registers (R8, R50), the records cleared through VALID, the registers whose write starts something. -/

namespace Sys2Proof.Machine

-- ==== plain registers (R8, R50, R51, R89) ====

/-- A write of a register that only holds its fields. Of a word that has staged fields beside others, a write by a party
without the lock is refused whole (R88, DESIGN CHOICE: assumption 135). A write of a register that holds no writable
field is ignored, PRT_MM_STAT without F_PREEMPT among them (R8 against R99, DESIGN CHOICE: assumption 136). -/
def Dev.plainWrite (d : Dev) (who : Owner) (p : Page) (off v : Nat) : Dev :=
  match regOf p off with
  | none => d
  | some r =>
    if r.writable = 0 then d
    else if d.badWrite who p off v then d.refuse p
    else if r.staged ≠ 0 && !d.holds p who then d.refuse p
    else
      let d := d.when (r.staged != 0) (fun d => d.stage p off r.staged v)
      d.setWord p off (r.write (d.word p off) v)

/-- Records that a write of 1 to VALID (bit 31) clears: the word of VALID and the words beside it. -/
def recordWords (p : Page) (off : Nat) : List Nat :=
  match p.kind with
  | .shl => if off = 0x180 then [0x184, 0x188, 0x190, 0x194] else []
  | .hbr => if off = 0x90 then [0x98, 0x9C, 0xA0, 0xA4] else []
  | .dst => if off = 0x8C then [0x8C] else if off = 0xA0 then [0xA8, 0xAC] else []
  | .mmu => if off = 0x1A0 then [0x1A8, 0x1AC] else []
  | .ccl => if off = 0xC8 then [0xCC] else []
  | .sys => if off = 0x1400 then [0x1404, 0x1408] else []
  | .npt => if 0x600 ≤ off && off < 0x680 && off % 16 = 0 then [off + 4, off + 8, off + 12] else []
  | _ => []

/-- A write of the word of VALID. -/
def Dev.recordClear (d : Dev) (p : Page) (off v : Nat) : Dev :=
  if bitAt v 31 then (off :: recordWords p off).foldl (fun d o => d.setWord p o 0) d
  else match regOf p off with
    | some r => d.setWord p off (r.write (d.word p off) v)
    | none => d

-- ==== SYS_RESET_CTRL (R69) ====

/-- A write of SYS_RESET_CTRL: with any KEY but the right one it is refused; with the right one DEVICE = 1 resets
the device. -/
def Dev.resetCtrl (d : Dev) (v : Nat) : Dev :=
  if bits v 31 16 ≠ 0x5A17 then d.refuse sysPg
  else if bitAt v 0 then d.deviceReset R.SYS_RESET_CAUSE_SOFTWARE
  else d

-- ==== SCH_MAX_RESTART (R245) ====

/-- A write of SCH_MAX_RESTART. -/
def Dev.maxRestart (d : Dev) (n v : Nat) : Dev :=
  if !bitAt v 0 then d
  else (List.range 8).foldl (fun d q =>
    (d.setFld (schPg n) (R.SCH_Q_MAX_DEPTH_CELLS.at q) 0).setFld (schPg n) (R.SCH_Q_MAX_DELAY_NS.at q) 0) d

-- ==== DMA_Q_TAIL (R386) ====

/-- A write of DMA_Q_TAIL of queue `i`. -/
def Dev.tailWrite (d : Dev) (i v : Nat) : Dev :=
  let off := 0x1014 + 0x40 * i
  if d.badWrite .host dmaPg off v then d.refuse dmaPg else d.setFld dmaPg (R.DMA_Q_TAIL_TAIL.at i) v

-- ==== NPT_SRC_CFG (R331) ====

/-- A write of the configuration of a wake source may begin or end a use of the device. -/
def Dev.srcWrite (d : Dev) (f : Dev → Dev) : Dev :=
  let was := d.inUse
  let d := d.awakeHold f
  if d.inUse && !was then d.quarEndAll else if was && !d.inUse then d.awakeLoad else d

-- ==== registers whose write starts something ====

/-- What a write of a register of a page does. -/
def Dev.pageWrite (d : Dev) (who : Owner) (p : Page) (off v : Nat) : Dev :=
  let n := p.inst
  let plain : Dev := d.plainWrite who p off v
  let col (base stride : Nat) : Nat := elem off base stride
  if !(recordWords p off).isEmpty then d.recordClear p off v
  else match p.kind with
  | .bur => if off = 0x120 then d.emGo who v else if off = 0xC8 then d.edGo who v true else plain
  | .fwl => if 0xB0 ≤ off && off < 0xC0 then d.gateWrite (col 0xB0 4) v else plain
  | .shl => if off = 0x98 then d.lowWaterWrite v else plain
  | .sch =>
    if off = 0xC0 then d.gclCmd who n v
    else if off = 0xE0 then d.gclWrite who n (v + 2 ^ 32 * (d.gclRead n / 2 ^ 32)) false
    else if off = 0xE4 then d.gclWrite who n (d.gclRead n % 2 ^ 32 + 2 ^ 32 * v) true
    else if off = 0xEC then d.maxRestart n v
    else if off = 0x80 || (0x88 ≤ off && off < 0x98) then
      plain.when (plain.refusals == d.refusals) (fun d =>
        d.setSched n { d.sched n with adminWrites := (d.sched n).adminWrites + 1 })
    else plain
  | .frk => if off = 0x84 then d.frkGo v else plain
  | .can =>
    if off = 0x9C then d.canCmd n v else if off = 0x94 then d.trxWrite n v
    else if off = 0x830 && n = 0 then d.rtGo v else plain
  | .lin => if off = 0x84 then d.linSched n v else plain
  | .flt =>
    if 0x100 ≤ off && off < 0x1C0 && off % 16 = 8 then d.clsAck (col 0x100 16) v
    else d.showPin (fun d => d.plainWrite who p off v)
  | .key => if off = 0xC0 then d.keyGo who v else if off = 0x88 then d.tamperAck v else plain
  | .wax =>
    if 0x800 ≤ off && off < 0xA00 && (off - 0x800) % 0x80 = 0 then d.waxCtrl who (col 0x800 0x80) v else plain
  | .msc => if off = 0x104 then d.saGo n v else plain
  | .prt =>
    if off = 0xE0 then d.tc10Ctrl n v
    else if off = 0xC0 then plain.phyWritten n
    else if n = 0 && 0x800 ≤ off && off < 0x900 && off % 0x40 = 4 && bitAt v 31 then d.mdioGo (col 0x804 0x40) v
    else plain
  | .pmk =>
    if off = 0x60 then d.latch v
    else if 0x80 ≤ off && off < 0x100 && (off - 0x80) % 0x40 = 0x28 then d.ancCmd (col 0xA8 0x40) v
    else if 0x80 ≤ off && off < 0x100 && (off - 0x80) % 0x40 = 0x2C then
      let k := col 0xAC 0x40
      plain.when (plain.refusals == d.refusals && plain.ancState k == 0) (fun d =>
        d.setAnchor k { d.anchor k with rate := signed 32 v })
    else if 0x200 ≤ off && off < 0x2C0 && off % 0x20 = 0 then d.wcWrite (col 0x200 0x20 + 2) v
    else if 0x200 ≤ off && off < 0x2C0 && off % 0x20 = 4 then d.wcRestep (col 0x200 0x20 + 2) v
    else plain
  | .pwr => if off = 0x80 then d.stateReqWrite v else if off = 0x88 then d.opReqWrite v else plain
  | .npt =>
    if off = 0x100 then d.sleepCmd v else if off = 0x110 then d.readyWrite v else if off = 0x158 then d.pnCtrl v
    else if 0x200 ≤ off && off < 0x2C0 then d.srcWrite (fun d => d.plainWrite who p off v)
    else if R.NPT_PN_CAN_CAN.off ≤ off && off < R.NPT_PN_CAN_CAN.off + 0x80 then
      plain.when (plain.refusals == d.refusals) (fun x => x.members d (fun _ => false))
    else if off = 0x10C then plain.when (plain.refusals == d.refusals) Dev.readyCheck
    else plain
  | .dst => if off = 0x84 then d.useWrite v else plain
  | .mmu =>
    if off = 0x180 then d.mmuInv who v
    else if 0x1000 ≤ off && (off - 0x1000) % 0x40 = 0 && off < 0x1800 then d.movCtrl who (col 0x1000 0x40) v
    else plain
  | .adj => if off = 0x9C then d.adjCmd v else plain
  | .sys => if off = 0x120 then d.featGo v else if off = 0x204 then d.resetCtrl v else plain
  | .hbr =>
    if off = 0xCC then d.eraseGo v
    else if 0x2000 ≤ off && off < 0x2800 && off % 16 = 0xC then plain.releaseMsix
    else plain
  | .dma =>
    if 0x1000 ≤ off && off < 0x3000 && off % 0x40 = 0 then
      if v % 4 = 1 || v % 4 = 2 then d.qRequest (col 0x1000 0x40) (v % 4 == 1) else d
    else if 0x1000 ≤ off && off < 0x3000 && off % 0x40 = 0x14 then d.tailWrite (col 0x1014 0x40) v
    else plain
  | .lbx =>
    if 0x80 ≤ off && off < 0xC0 && off % 16 = 0 then d.mbCtrl who (col 0x80 0x10) v
    else if 0x800 ≤ off && off < 0x1000 && (off - 0x800) % 0x200 < 0x100 then d.mbReq who (col 0x800 0x200) off v
    else plain
  | _ => plain

/-- What a write of a 32-bit register does (R28): the header, the snapshot register, the page's own. -/
def Dev.regWrite (d : Dev) (who : Owner) (p : Page) (off v : Nat) : Dev :=
  if absent p off then d
  else if off = 0x08 then d.pageCtrl who p v
  else if off = 0x0C then d.pageStat who p v
  else if off = 0x18 || off = 0x1C then d.irqEdge p (fun d => d.plainWrite who p off v)
  else if off = 0x28 then d.fltInj p v
  else if off < 0x40 then d.plainWrite who p off v
  else if off = 0x40 && !p.kind.counterAreas.isEmpty then d.snapGo p v
  else d.pageWrite who p off v

/-- What a write of a 64-bit register does: both halves, low half first; a refused half ends it. SCH_GCL_ENTRY
is written whole, and ADMIN_BASE counts as one write (R234). -/
def Dev.regWrite64 (d : Dev) (who : Owner) (p : Page) (off v : Nat) : Dev :=
  if p.kind == .sch && off == 0xE0 then d.gclWrite who p.inst v true
  else
    let d' := d.regWrite who p off (v % 2 ^ 32)
    if d'.refusals ≠ d.refusals then d'
    else
      let d'' := d'.regWrite who p (off + 4) (v / 2 ^ 32 % 2 ^ 32)
      d''.when (p.kind == .sch && off == 0x88 && d''.refusals == d.refusals) (fun d =>
        d.setSched p.inst { d.sched p.inst with adminWrites := (d.sched p.inst).adminWrites - 1 })

/-- What a write of a register does, by its size. -/
def Dev.writeReg (d : Dev) (a : Access) (p : Page) (off : Nat) : Dev :=
  if a.size = 8 then d.regWrite64 a.who p off a.data else d.regWrite a.who p off (a.data % 2 ^ 32)

end Sys2Proof.Machine
end

