-- ==== Sys2Proof/Machine/Access.lean ====
section
/-! DEFINITION. Every access from its decode to its answer (R35 to R39, R59, R350, R371 to R382), the orders a
standby applies (R492), and the commands that are accesses. -/

namespace Sys2Proof.Machine

-- ==== reads ====

/-- A read of a register: the checks of the gate that concern reads, then its value. -/
def Dev.readReg (d : Dev) (a : Access) (p : Page) (off : Nat) : Dev :=
  if !p.exists || !d.reaches a.who p then d.accessFail a 2 0x82
  else if !sizeOk (.reg p off) false a.size off then d.accessFail a 1 0x81
  else if !d.domainReady p.domain then d.domainStall p.domain a
  else if d.waits p.domain then d.hold p.domain a
  else if d.snapBusy.contains p.idx then d.hold (snapTag p.idx) a
  else d.answer a 0x80 (d.regRead p off a.size)

/-- A read of a table window. -/
def Dev.readTab (d : Dev) (a : Access) (off : Nat) : Dev :=
  let p := bar4Page off
  if !bar4Mapped off || !d.reaches a.who p then d.accessFail a 2 0x82
  else if !sizeOk (.table off) false a.size off then d.accessFail a 1 0x81
  else if !d.domainReady p.domain then d.domainStall p.domain a
  else d.answer a 0x80 (d.bar4Word off + (if a.size = 8 then 2 ^ 32 * d.bar4Word (off + 4) else 0))

-- ==== pop windows (R59, R60) ====

/-- The page whose chapter a pop window belongs to. -/
def popPage (n : Nat) : Page := if n < 2 then fltPg else if n < 18 then pmkPg else hbrPg

/-- An access to a pop window. -/
def Dev.popAccess (d : Dev) (a : Access) (n off : Nat) : Dev :=
  let p := popPage n
  if !d.reaches a.who p then d.accessFail a 2 0x82
  else if !sizeOk (.pop n off) a.write a.size off then d.accessFail a 1 0x81
  else if !d.domainReady p.domain then d.domainStall p.domain a
  else if a.write then
    let d := if off = 8 then d.popAck n (a.data % 65536)
      else if bitAt a.data 31 then d.setPop n { d.pop n with stale := false } else d
    d.written a
  else d.answer a 0x80 (d.popWord n off + (if a.size = 8 then 2 ^ 32 * d.popWord n (off + 4) else 0))

-- ==== the peer window (R377 to R379, R381, R382) ====

/-- A peer unit is joined: its heartbeats arrive. -/
def Dev.peerJoined (d : Dev) : Bool :=
  d.adjOn && d.feature 4 && !d.adj.peerLost && d.fld adjPg R.ADJ_STAT_PEER_STATE != 0

/-- Send a REMOTE_REQ and keep what its response needs. R488 gives no layout: word 0 write [0], 64-bit [1],
SPACE [9:8]; word 1 a tag; word 2 the offset; words 3 and 4 the data. DESIGN CHOICE: assumption 23. -/
def Dev.remoteSend (d : Dev) (a : Access) (sp off : Nat) : Dev :=
  let t := d.adj.nextTag
  let keep : Access := if a.write then { a with target := .addr .bar0 off } else a
  (d.withAdj (fun x => { x with nextTag := (t + 1) % 2 ^ 32, remote := x.remote ++ [(t, keep)] })).adjSend 6
    [b2n a.write + 2 * b2n (a.size == 8) + 256 * sp, t, off, a.data % 2 ^ 32, a.data / 2 ^ 32]

/-- A posted write through the peer window fails. -/
def Dev.peerWriteFail (d : Dev) (a : Access) (cause off : Nat) : Dev :=
  d.windowFail peerWindow a.who.code cause off a.data (a.size == 8)

/-- An access through the peer window. -/
def Dev.peerAccess (d : Dev) (a : Access) (off : Nat) : Dev :=
  let sp := d.fld hbrPg R.HBR_RWIN_PEER_SPACE
  let o := d.fld hbrPg R.HBR_RWIN_PEER_BASE * 2 ^ 23 + off
  match d.windowBarred a with
  | some k => d.windowRefuse a k
  | none =>
    if a.write then
      let d := if d.flag hbrPg R.HBR_RWIN_PEER_FENCED then d.cnt hbrPg 0
        else if !d.peerJoined then d.peerWriteFail a 2 o else d.remoteSend a sp o
      d.written a
    else if !d.peerJoined then d.accessFail a 4 0x87
    else d.remoteSend a sp o

/-- How an access through the peer window ends when the peer is lost. -/
def Dev.remoteLost (d : Dev) (a : Access) : Dev :=
  match a.write, a.target with
  | true, .addr _ off => d.peerWriteFail a 2 off
  | true, .reg _ off => d.peerWriteFail a 2 off
  | false, _ => d.accessFail a 4 0x87

/-- A REMOTE_RESP arrives: tag, status, data. -/
def Dev.remoteResp (d : Dev) (ws : List Nat) : Dev :=
  let w (k : Nat) : Nat := ws.getD k 0
  match d.adj.remote.find? (fun r => r.1 == w 0) with
  | none => d
  | some (t, a) =>
    let d := d.withAdj (fun x => { x with remote := x.remote.filter (fun r => r.1 != t) })
    if w 1 = 0x80 then (if a.write then d else d.answer a 0x80 (w 2 + 2 ^ 32 * w 3))
    else match a.write, a.target with
      | true, .addr _ off => d.peerWriteFail a 1 off
      | true, .reg _ off => d.peerWriteFail a 1 off
      | false, _ => d.accessFail a 4 0x87

-- ==== decode (R38, R377) ====

/-- An access through a remote window: reach, size and domain as for the bridge's own page. -/
def Dev.windowAccess (d : Dev) (a : Access) (off : Nat) (f : Dev → Dev) : Dev :=
  if !d.reaches a.who hbrPg then d.accessFail a 2 0x82
  else if !((a.size == 4 || a.size == 8) && off % a.size == 0) then d.accessFail a 1 0x81
  else if !d.domainReady 1 then d.domainStall 1 a
  else f d

/-- A posted write of the same requester that still waits: a read never completes before it (R375). -/
def Dev.heldWrite (d : Dev) (a : Access) : Option Nat :=
  if a.write then none else (d.stalls.reverse.find? (fun x => x.acc.write && x.acc.who == a.who)).map (·.domain)

/-- An access is decoded and acts, waits or fails (R375): a posted write passes reads that wait for other domains, and
writes that do; a read passes only stalled reads. DEDUCED: assumption 153. -/
def Dev.access (d : Dev) (a : Access) : Dev :=
  if !d.start.released then d
  else match d.heldWrite a, resolve a.target with
    | some tag, _ => d.hold tag a
    | none, .unmapped => d.accessFail a 2 0x82
    | none, .reg p off => if a.write then d.gate a p off (fun d => d.writeReg a p off) else d.readReg a p off
    | none, .pop n off => d.popAccess a n off
    | none, .table off => if a.write then d.gateTab a off else d.readTab a off
    | none, .peerWin off => d.windowAccess a off (fun d => d.peerAccess a off)
    | none, .flashWin off => d.windowAccess a off (fun d => d.flashAccess a off)

/-- Run the accesses that wait with a tag, in order. -/
def Dev.releaseHeld (d : Dev) (tag : Nat) : Dev :=
  let mine := d.stalls.filter (fun x => x.domain == tag)
  let d : Dev := { d with stalls := d.stalls.filter (fun x => x.domain != tag) }
  mine.foldl (fun d x => d.access x.acc) d

/-- The longest stall (R350). -/
def Dev.stallMax (d : Dev) (since : Nat) : Dev :=
  d.setFld pwrPg R.PWR_STALL_MAX_US (max (d.fld pwrPg R.PWR_STALL_MAX_US) (min ((d.now - since) / usTicks) 0xFFFFFFFF))

/-- A woken domain is ready (R350): what waits for it completes. The deep-store controller powers down again
between accesses (R349). -/
def Dev.domainUp (d : Dev) (n : Nat) : Dev :=
  if !d.waits n || !d.mainRun then d
  else
    let d := (d.stalls.filter (fun x => x.domain == n)).foldl (fun d x => d.stallMax x.since) d
    let d := Dev.releaseHeld { d with awake := (d.awake.filter (· != n)) ++ [n] } n
    if n = 5 then { d with awake := d.awake.filter (· != 5) } else d

/-- The oldest access that waits for a domain (R352). -/
def Dev.oldStall (d : Dev) : Option Stall := d.stalls.find? (fun x => decide (x.domain < 17))

/-- That access has waited 8 ms (R352). -/
def Dev.stallTimeout (d : Dev) : Dev :=
  match d.oldStall with
  | none => d
  | some x =>
    if d.now - x.since < 8 * msTicks then d
    else
      let d : Dev := { d with stalls := d.stalls.filter (· != x) }
      let d := (d.stallMax x.since).accessFail x.acc 3 0x85
      ((d.cnt pwrPg 3).raise pwrPg 3).fault { cls := 5, page := pwrPg }

/-- Order credit has returned (R490): the writes that waited for it are decoded. -/
def Dev.creditBack (d : Dev) : Dev := if d.noCredit then d else d.releaseHeld creditTag

-- ==== orders on the standby (R492, R499) ====

/-- The party of an owner code. -/
def ownerOf (code : Nat) : Owner :=
  if code = 1 then .host else if code = 2 then .spi else if code = 3 then .pair 0 else if code = 4 then .pair 1
  else if code = 5 then .pair 2 else if code = 6 then .pair 3 else if code = 7 then .peer else .boot

/-- Run a write of an order without lock checks (R492): the page reads as locked by its origin while it runs;
an acquisition takes the lock whoever holds it. -/
def Dev.unlocked (d : Dev) (who : Owner) (p : Page) (off v : Nat) (f : Dev → Dev) : Dev :=
  let held := d.flag p R.PAGE_LOCK_HELD
  let own := d.lockOwner p
  if off = 8 && (bits v 9 8 == 1 || bits v 9 8 == 2) then
    f (if held && own != who.code then (if bits v 9 8 = 1 then d.lockFree p else d.setFld p R.PAGE_LOCK_OWNER who.code) else d)
  else if held && own = who.code then f d
  else
    let d := f ((d.setFlag p R.PAGE_LOCK_HELD true).setFld p R.PAGE_LOCK_OWNER who.code)
    (d.setFlag p R.PAGE_LOCK_HELD held).setFld p R.PAGE_LOCK_OWNER own

/-- The write an order stands for; `none` where the standby cannot apply it. -/
def Dev.orderWrite (d : Dev) (o : Order) : Option Dev :=
  let who := ownerOf o.origin
  if o.space = 2 then
    if o.kind = 2 && bar4Mapped o.addr then some (d.bar4Write o.origin o.addr o.data) else none
  else match resolve (.addr .bar0 o.addr) with
    | .reg p off =>
      if o.space = 0 && isOrdered p && p.exists then
        some (d.unlocked who p off (o.data % 2 ^ 32) (fun d =>
          if o.kind = 2 then d.regWrite64 who p off o.data else d.regWrite who p off (o.data % 2 ^ 32)))
      else none
    | _ => none

/-- Apply the order that is due, if one is (R492, R499, R500). -/
def Dev.orderApply (d : Dev) : Dev :=
  match d.orderDue with
  | none => d
  | some o =>
    if o.kind = 5 then d.digestTake o
    else if o.kind = 4 then d.markTake o
    else if o.kind = 1 ∨ o.kind = 2 then
      match d.orderWrite o with
      | some d' => d'.orderPast o (if d'.refusals = d.refusals then 0 else 1) (d.orderCmd d')
      | none => (d.orderPast o 1).diverge false
    else (d.orderPast o 1).diverge false

/-- An ORDER frame's entries: each is queued, and applied at once where it comes late (R492). -/
def Dev.ordersRx (d : Dev) (os : List (List Nat)) : Dev :=
  os.foldl (fun d ws => (d.orderTake (orderIn ws)).orderApply) d

-- ==== the SPI management port (R371, R372) ====

/-- The bytes of a request before its CRC: OP, SPACE, offset, data. -/
def spiRequest (op : Nat) (sp : Fin 3) (off : BitVec 32) (data : List Byte) : List Byte :=
  BitVec.ofNat 8 (op * 16 + sp.val * 4) :: (beBytes 4 off.toNat ++ data)

/-- The space a request selects (R371, R374). -/
def spiSpace (sp : Fin 3) : Space := if sp = 0 then .bar0 else if sp = 1 then .bar2 else .bar4

/-- A response without data. -/
def Dev.spiStatus (d : Dev) (st : Nat) : Dev :=
  let b := BitVec.ofNat 8 st
  d.emit (.spi [b, BitVec.ofNat 8 (crc8 [b])])

/-- The main domains are off: the port answers nothing and its chip select is a wake source (R352). -/
def Dev.spiDeep (d : Dev) : Bool :=
  let r := d.round
  d.isOff || ((r == 2 || r == 3 || r == 4) && d.toSlumber && !d.mainRun)

/-- An earlier access of the port is still pending. -/
def Dev.spiPending (d : Dev) : Bool :=
  d.stalls.any (fun x => x.acc.who == .spi) || d.adj.remote.any (fun r => r.2.who == .spi && !r.2.write)

/-- A request arrives: the port is up, the CRC is good and nothing is pending, or it is turned away. -/
def Dev.spiTake (d : Dev) (good : Bool) (f : Dev → Dev) : Dev :=
  if d.spiDeep then d.fire 0x2A
  else if !d.start.released || !d.start.spiUp then d
  else if !good then (d.cnt hbrPg 4).spiStatus 0x83
  else if d.spiPending then (d.cnt hbrPg 5).spiStatus 0x84
  else f d

/-- A request for an access. -/
def Dev.spiAccess (d : Dev) (op : Nat) (sp : Fin 3) (off : BitVec 32) (data : List Byte) (crc : Byte) : Dev :=
  let size := if op = 2 ∨ op = 4 then 8 else 4
  d.spiTake (crc8 (spiRequest op sp off data) == crc.toNat) (fun d => d.access
    { who := .spi, target := .addr (spiSpace sp) off.toNat, write := decide (3 ≤ op), size := size, data := beNat data })

/-- GET_RESULT: the status and data of the latest access again. -/
def Dev.spiResult (d : Dev) : Dev :=
  match d.spi.result with
  | none => d.spiStatus 0x86
  | some (st, v, n) =>
    let body := BitVec.ofNat 8 st :: (if st = 0x80 && n ≠ 0 then beBytes n v else [])
    d.emit (.spi (body ++ [BitVec.ofNat 8 (crc8 body)]))

-- ==== commands ====

/-- REGISTER_WRITE (R28): a write of `size` bytes to any address. -/
def execRegisterWrite (who : Owner) (target : Target) (size : Nat) (data : BitVec 64) (s : State) : Answer :=
  s.run (fun d => d.access { who := who, target := target, write := true, size := size, data := data.toNat })

/-- DOMAIN_ACCESS_WAKE (R36, R39): an access of `size` bytes, read or write, as it reaches its domain. -/
def execDomainAccessWake (who : Owner) (target : Target) (write : Bool) (size : Nat) (data : BitVec 64) (s : State) :
    Answer :=
  s.run (fun d => d.access { who := who, target := target, write := write, size := size, data := data.toNat })

/-- DOMAIN_READY (R350). -/
def execDomainReady (domain : Fin 17) (s : State) : Answer := s.run (fun d => d.domainUp domain)

/-- ACCESS_STALL_TIMEOUT (R352): the oldest stalled access has waited 8 ms. -/
def execAccessStallTimeout (s : State) : Answer := s.run Dev.stallTimeout

/-- SNAPSHOT_DONE (R58). -/
def execSnapshotDone (p : Page) (s : State) : Answer :=
  s.runMain (fun d =>
    if !d.snapBusy.contains p.idx then d
    else
      let d : Dev := { d with snapBusy := d.snapBusy.filter (· != p.idx) }
      (d.incWrap p R.SNAP_SEQ_SEQ).releaseHeld (snapTag p.idx))

/-- POP_ACK (R60). -/
def execPopAck (who : Owner) (window : Fin 64) (seq : BitVec 16) (s : State) : Answer :=
  s.run (fun d => d.access
    { who := who, target := .addr .bar2 (0x400 * window.val + 8), write := true, data := seq.toNat })

/-- SPI_READ32 (R371). -/
def execSpiRead32 (space : Fin 3) (off : BitVec 32) (crc : Byte) (s : State) : Answer :=
  s.run (fun d => d.spiAccess 1 space off [] crc)

/-- SPI_READ64 (R371). -/
def execSpiRead64 (space : Fin 3) (off : BitVec 32) (crc : Byte) (s : State) : Answer :=
  s.run (fun d => d.spiAccess 2 space off [] crc)

/-- SPI_WRITE32 (R371). -/
def execSpiWrite32 (space : Fin 3) (off data : BitVec 32) (crc : Byte) (s : State) : Answer :=
  s.run (fun d => d.spiAccess 3 space off (beBytes 4 data.toNat) crc)

/-- SPI_WRITE64 (R371). -/
def execSpiWrite64 (space : Fin 3) (off : BitVec 32) (data : BitVec 64) (crc : Byte) (s : State) : Answer :=
  s.run (fun d => d.spiAccess 4 space off (beBytes 8 data.toNat) crc)

/-- SPI_GET_RESULT (R372). -/
def execSpiGetResult (crc : Byte) (s : State) : Answer :=
  s.run (fun d => d.spiTake (crc8 [0x60] == crc.toNat) Dev.spiResult)

/-- PEER_WINDOW_ACCESS (R377): an access at an offset of the peer window. -/
def execPeerWindowAccess (who : Owner) (write wide : Bool) (off : BitVec 23) (data : BitVec 64) (s : State) : Answer :=
  s.run (fun d => d.access
    { who := who, target := .addr .bar0 (0x1000000 + off.toNat), write := write, size := if wide then 8 else 4,
      data := data.toNat })

/-- FLASH_WINDOW_READ (R378). -/
def execFlashWindowRead (who : Owner) (wide : Bool) (off : BitVec 23) (s : State) : Answer :=
  s.run (fun d => d.access
    { who := who, target := .addr .bar0 (0x1800000 + off.toNat), write := false, size := if wide then 8 else 4 })

/-- FLASH_WINDOW_WRITE (R380). -/
def execFlashWindowWrite (who : Owner) (wide : Bool) (off : BitVec 23) (data : BitVec 64) (s : State) : Answer :=
  s.run (fun d => d.access
    { who := who, target := .addr .bar0 (0x1800000 + off.toNat), write := true, size := if wide then 8 else 4,
      data := data.toNat })

/-- FLASH_PROGRAM_DONE (R380): the oldest queued write is programmed. -/
def execFlashProgramDone (ok : Bool) (s : State) : Answer := s.runMain (fun d => d.flashProgrammed ok)

/-- FLASH_ERASE (R380): a write of HBR_FLASH_ERASE with GO. -/
def execFlashErase (who : Owner) (sector : BitVec 16) (s : State) : Answer :=
  let v := 2 ^ 31 + sector.toNat
  s.run (fun d => d.gateW who hbrPg 0xCC v (fun d => d.eraseGo v))

/-- FLASH_ERASE_DONE (R380). -/
def execFlashEraseDone (ok : Bool) (s : State) : Answer := s.runMain (fun d => d.eraseDone ok)

/-- DEVICE_RESET_REQUEST (R69): a write of SYS_RESET_CTRL with DEVICE = 1. -/
def execDeviceResetRequest (who : Owner) (key : BitVec 16) (s : State) : Answer :=
  let v := key.toNat * 2 ^ 16 + 1
  s.run (fun d => d.gateW who sysPg 0x204 v (fun d => d.resetCtrl v))

/-- MAX_RESTART (R245): a write of SCH_MAX_RESTART. -/
def execMaxRestart (who : Owner) (port : Fin 43) (s : State) : Answer :=
  s.run (fun d => d.gateW who (schPg port) 0xEC 1 (fun d => d.maxRestart port 1))

/-- DMA_TAIL_WRITE (R386): receive queues are 0 to 63, transmit queues 64 to 127. -/
def execDmaTailWrite (who : Owner) (queue : Fin 128) (tail : BitVec 32) (s : State) : Answer :=
  s.run (fun d => d.gateW who dmaPg (0x1014 + 0x40 * queue.val) tail.toNat (fun d => d.tailWrite queue tail.toNat))

/-- MAILBOX_GO (R396): a write of LBX_MBm_CTRL with GO. -/
def execMailboxGo (who : Owner) (mailbox : Fin 4) (s : State) : Answer :=
  s.run (fun d => d.gateW who lbxPg (0x80 + 0x10 * mailbox.val) (2 ^ 31) (fun d => d.mbCtrl who mailbox (2 ^ 31)))

/-- MAILBOX_TAKEN (R396). -/
def execMailboxTaken (mailbox : Fin 4) (s : State) : Answer := s.runMain (fun d => d.mbTake mailbox)

/-- BOOT_RETRY_TOP (R75): a write of 1 to BOOT_RETRY.TOP. -/
def execBootRetryTop (who : Owner) (s : State) : Answer :=
  s.run (fun d => d.gateW who bootPg 0x8C 1 (fun d => d.setFlag bootPg R.BOOT_RETRY_TOP true))

end Sys2Proof.Machine
end

