-- ==== Sys2Proof/Machine/Sig.lean ====
section
/-! DEFINITION. SHA-384 (FIPS 180-4) and ECDSA verification on P-384 (FIPS 186-5), by which images are
signed (R467). PRESUMED: assumption 10. -/

namespace Sys2Proof.Machine

-- ==== SHA-384 ====

/-- The largest integer whose square is at most `n`, bit by bit from bit `b`. -/
def rootBits (pow : Nat → Nat) (n : Nat) : Nat → Nat → Nat
  | 0, r => r
  | b + 1, r => rootBits pow n b (if pow (r + 2 ^ b) ≤ n then r + 2 ^ b else r)

/-- The first eighty primes. -/
def primes80 : List Nat :=
  (List.range 410).filter (fun n => decide (2 ≤ n) && (List.range 19).all (fun d => d < 2 || n == d || n % d != 0)
    && (List.range 21).all (fun d => d < 2 || n == d || n % d != 0))

/-- Round constants: the first 64 bits of the fractions of the cube roots of the primes. -/
def shaK : List Nat := primes80.map (fun p => rootBits (fun x => x * x * x) (p * 2 ^ 192) 68 0 % 2 ^ 64)

/-- The initial value of SHA-384: from the square roots of the ninth to the sixteenth prime. -/
def shaH : List Nat :=
  ((primes80.drop 8).take 8).map (fun p => rootBits (fun x => x * x) (p * 2 ^ 128) 68 0 % 2 ^ 64)

/-- Rotate 64 bits right. -/
def rotr64 (x n : Nat) : Nat := x / 2 ^ n + (x % 2 ^ n) * 2 ^ (64 - n)

/-- The message schedule of a block of sixteen words. -/
def shaSchedule (ws : List Nat) : List Nat :=
  (List.range 64).foldl (fun ws t =>
    let a := ws.getD (t + 14) 0
    let b := ws.getD (t + 1) 0
    let s1 := rotr64 a 19 ^^^ rotr64 a 61 ^^^ a / 2 ^ 6
    let s0 := rotr64 b 1 ^^^ rotr64 b 8 ^^^ b / 2 ^ 7
    ws ++ [(s1 + ws.getD (t + 9) 0 + s0 + ws.getD t 0) % 2 ^ 64]) ws

/-- One round on the eight working variables. -/
def shaRound (v : List Nat) (kw : Nat) : List Nat :=
  let g (i : Nat) : Nat := v.getD i 0
  let e := g 4
  let a := g 0
  let ch := (e &&& g 5) ^^^ ((2 ^ 64 - 1 - e) &&& g 6)
  let t1 := g 7 + (rotr64 e 14 ^^^ rotr64 e 18 ^^^ rotr64 e 41) + ch + kw
  let maj := (a &&& g 1) ^^^ (a &&& g 2) ^^^ (g 1 &&& g 2)
  let t2 := (rotr64 a 28 ^^^ rotr64 a 34 ^^^ rotr64 a 39) + maj
  [(t1 + t2) % 2 ^ 64, a, g 1, g 2, (g 3 + t1) % 2 ^ 64, e, g 5, g 6]

/-- One block of 128 octets. -/
def shaBlock (k h b : List Nat) : List Nat :=
  let ws := shaSchedule ((List.range 16).map (fun i => octNat ((b.drop (8 * i)).take 8)))
  let v := (k.zip ws).foldl (fun v e => shaRound v (e.1 + e.2)) h
  h.zipWith (fun x y => (x + y) % 2 ^ 64) v

/-- SHA-384 of a message, as a number of 384 bits. -/
def sha384 (msg : List Nat) : Nat :=
  let z := (128 - (msg.length + 17) % 128) % 128
  let m := msg ++ [0x80] ++ List.replicate z 0 ++ natOct 16 (8 * msg.length)
  let k := shaK
  let h := (List.range (m.length / 128)).foldl (fun h i => shaBlock k h ((m.drop (128 * i)).take 128)) shaH
  (h.take 6).foldl (fun a w => a * 2 ^ 64 + w) 0

-- ==== P-384 ====

/-- The field prime. -/
def p384 : Nat := 2 ^ 384 - 2 ^ 128 - 2 ^ 96 + 2 ^ 32 - 1

/-- The coefficient b; a is −3. -/
def p384b : Nat :=
  0xb3312fa7e23ee7e4988e056be3f82d19181d9c6efe8141120314088f5013875ac656398d8a2ed19d2a85c8edd3ec2aef

/-- The base point. -/
def p384g : Nat × Nat :=
  (0xaa87ca22be8b05378eb1c71ef320ad746e1d3b628ba79b9859f741e082542a385502f25dbf55296c3a545e3872760ab7,
   0x3617de4a96262c6f5d9e98bf9292dc29f8f41dbd289a147ce9da3113b5f0b8c00a60b1ce1d7e819d7a431d7c90ea0e5f)

/-- The order of the base point. -/
def p384n : Nat :=
  0xffffffffffffffffffffffffffffffffffffffffffffffffc7634d81f4372ddf581a0db248b0a77aecec196accc52973

/-- A power modulo `m`, with exponents below 2^384. -/
def powMod (m b e : Nat) : Nat :=
  ((List.range 384).foldl (fun (s : Nat × Nat) i =>
    (if bitAt e i then s.1 * s.2 % m else s.1, s.2 * s.2 % m)) (1, b % m)).1

/-- A point: `none` is the point at infinity. -/
abbrev Point := Option (Nat × Nat)

/-- The point of a slope through two points. -/
def chord (l x1 y1 x2 : Nat) : Nat × Nat :=
  let x := (l * l + 2 * p384 - x1 - x2) % p384
  (x, (l * ((x1 + p384 - x) % p384) + p384 - y1) % p384)

/-- Addition of points. -/
def ecAdd (a b : Point) : Point :=
  match a, b with
  | none, b => b
  | a, none => a
  | some (x1, y1), some (x2, y2) =>
    if x1 = x2 then
      if (y1 + y2) % p384 = 0 then none
      else some (chord ((3 * x1 * x1 + p384 - 3) * powMod p384 (2 * y1) (p384 - 2) % p384) x1 y1 x2)
    else some (chord ((y2 + p384 - y1) * powMod p384 (x2 + p384 - x1) (p384 - 2) % p384) x1 y1 x2)

/-- A multiple of a point. -/
def ecMul (k : Nat) (a : Point) : Point :=
  (List.range 384).foldl (fun r i => let r := ecAdd r r; if bitAt k (383 - i) then ecAdd r a else r) none

/-- A point lies on the curve. -/
def onCurve (x y : Nat) : Bool :=
  decide (x < p384) && decide (y < p384) && (y * y) % p384 == (x * x * x + (p384 - 3) * x + p384b) % p384

/-- ECDSA verification of a digest. -/
def ecdsaOk (qx qy r s digest : Nat) : Bool :=
  onCurve qx qy && decide (0 < r) && decide (r < p384n) && decide (0 < s) && decide (s < p384n) &&
    (let w := powMod p384n s (p384n - 2)
     match ecAdd (ecMul (digest * w % p384n) (some p384g)) (ecMul (r * w % p384n) (some (qx, qy))) with
     | some (x, _) => x % p384n == r
     | none => false)

end Sys2Proof.Machine
end

