-- ==== Sys2Proof/Machine/UpdOps.lean ====
section
/-! DEFINITION. Images and slots (R510, R511), the renewal of the pairs (R516, R517), activation by reset
(R515) and the configuration store (R507, R508). -/

namespace Sys2Proof.Machine

/-- Change what the update keeps. -/
def Dev.withUpd (d : Dev) (f : Upd → Upd) : Dev := { d with upd := f d.upd }

/-- STATE of a slot: 0 EMPTY, 1 ERASING, 2 WRITING, 3 VALID, 4 INVALID. -/
def Dev.slotState (d : Dev) (n : Nat) : Nat := d.fld updPg (R.UPD_SLOT_STAT_STATE.at n)

/-- Set it, with a REASON (R511, R512). -/
def Dev.setSlot (d : Dev) (n st reason : Nat) : Dev :=
  ((d.setFld updPg (R.UPD_SLOT_STAT_STATE.at n) st).setFld updPg (R.UPD_SLOT_STAT_REASON.at n) reason).raise updPg 0

/-- PHASE of UPD_ACT. -/
def Dev.actPhase (d : Dev) : Nat := d.fld updPg R.UPD_ACT_PHASE

/-- The slot of the running image: the one last activated. -/
def Dev.activeSlot (d : Dev) : Nat := b2n (d.flag updPg (R.UPD_SLOT_STAT_ACTIVE.at 1))

-- ==== image checks (R467, R510) ====

/-- `n` bytes of the flash from an address. -/
def Dev.flashBytes (d : Dev) (a : Nat) : Nat → List Byte × Dev
  | 0 => ([], d)
  | n + 1 =>
    let (b, d) := d.flashByte a
    let (bs, d) := d.flashBytes (a + 1) n
    (BitVec.ofNat 8 b :: bs, d)

/-- The fused digest equal to that of a public key (R467). -/
def keyIndex (digest : Nat) : Option (Fin 4) :=
  [(0 : Fin 4), 1, 2, 3].find? (fun i => Config.keyPresent i && Config.imageKeys i == digest)

/-- The verifier (R467): RESULT 0 OK, 1 SIGNATURE, 2 KEY_UNKNOWN, 3 KEY_REVOKED, and the digest used. -/
def verifyImage (img : List Byte) : Nat × Nat :=
  let len := img.length
  let pub := slice img 0x100 97
  match keyIndex (sha384 (pub.map (·.toNat))) with
  | none => (2, 0)
  | some i =>
    if Config.keyRevoked i then (3, i)
    else
      let sig := slice img (len - 0x100) 96
      let ok := (pub.map (·.toNat)).getD 0 0 == 4 && ecdsaOk (beNat (slice pub 1 48)) (beNat (slice pub 49 48))
        (beNat (sig.take 48)) (beNat (sig.drop 48)) (sha384 ((img.take (len - 0x100)).map (·.toNat)))
      (if ok then 0 else 1, i)

/-- Word at an offset of an image. -/
def imgLe (img : List Byte) (off : Nat) : Nat := leNat (slice img off 4)

/-- CCL_SIG_LAST shows a verification (R467). -/
def Dev.sigLast (d : Dev) (result key slot : Nat) : Dev :=
  d.setWord cclPg 0x3084 (2 ^ 31 + result * 2 ^ 24 + key * 2 ^ 16 + slot)

/-- The checks of R510 on the image of a slot, `len` as given at UPD_BEGIN: the REASON of the first that fails,
0 where none does. A FORMAT failure shows in CCL_SIG_LAST as well (DEDUCED: assumption 25). -/
def Dev.imageCheck (d : Dev) (slot len : Nat) (img : List Byte) : Nat × Dev :=
  let w (o : Nat) : Nat := imgLe img o
  if w 0 ≠ 0x31474D49 || w 4 % 2 ^ 16 ≠ 1 || w 0x10 ≠ len || len < 8192 || slotSize < len || len % 4096 ≠ 0 then
    (4, d.sigLast 4 0 slot)
  else if w 8 ≠ 0x00033980 || !bitAt (w 0x0C) (d.fld updPg R.PAGE_VER_STEP) then (5, d)
  else if bitAt (w 0x1C) 0 && leNat (slice img 0x20 16) ≠ Config.unitId % 2 ^ 128 then (6, d)
  else
    let (r, k) := verifyImage img
    let d := d.sigLast r k slot
    if r ≠ 0 then (r, d)
    else if w 0x18 % 64 < d.fld updPg R.UPD_ROLLBACK_COUNT then (7, d)
    else (0, d)

/-- The image of a slot: its bytes as far as LENGTH goes. -/
def Dev.slotImage (d : Dev) (n : Nat) : List Byte × Dev :=
  d.flashBytes (slotBase n) (d.fld updPg (R.UPD_SLOT_LEN_LENGTH.at n))

/-- Check the image that a slot holds. An image that came before this model's first step is not held as bytes
here and passes. DESIGN CHOICE: assumption 26. -/
def Dev.slotCheck (d : Dev) (n : Nat) : Nat × Dev :=
  if d.upd.known.contains n then
    let (img, d) := d.slotImage n
    d.imageCheck n (d.fld updPg (R.UPD_SLOT_LEN_LENGTH.at n)) img
  else (0, d)

/-- STATE_FORMAT of the running image (R510, R515). -/
def Dev.stateFormat (d : Dev) : Nat := d.upd.stateFormat.getD Config.stateFormat

/-- The image of slot `n` runs. -/
def Dev.imageRuns (d : Dev) (n : Nat) : Dev :=
  if d.upd.known.contains n then
    let (v, d) := d.flashRead (slotBase n + 0x30) 4
    d.withUpd (fun u => { u with stateFormat := some (v % 2 ^ 16) })
  else d.withUpd (fun u => { u with stateFormat := none })

/-- The slot record names `n` as the slot last activated (R515). -/
def Dev.activated (d : Dev) (n : Nat) : Dev :=
  ((d.setFlag updPg (R.UPD_SLOT_STAT_ACTIVE.at n) true).setFlag updPg (R.UPD_SLOT_STAT_ACTIVE.at (1 - n)) false).imageRuns n

/-- An activation by reset (R515): the slot record is written and the device resets. -/
def Dev.activateReset (d : Dev) (n : Nat) : Dev :=
  let d := (d.activated n).withUpd (fun u => { u with slot := n, byReset := true })
  d.deviceReset R.SYS_RESET_CAUSE_SOFTWARE

-- ==== the renewal of the pairs (R516, R517) ====

/-- ROLE of a pair in service: 0 SAFETY, 1 SERVICE. -/
def pairRole (n : Nat) : Nat := if n < 2 then 0 else 1

/-- Count in a global counter of the cluster (R435). -/
def Dev.slowCnt (d : Dev) (i : Nat) (n : Nat := 1) : Dev := d.addCount cclPg (0x500 + 8 * i) n

/-- What a restart releases 1 µs after its detection (R430, R431), and a reset of the pair as well (R45). -/
def Dev.pairRelease (d : Dev) (n : Nat) : Dev :=
  let mine := d.carrier 2 == n
  let lost := (d.ccl.held.map (fun g => g.frags.length)).sum
  let d := ((d.ownerEvent (3 + n)).mbRestart n).dsWithdraw (8 + n) 0
  d.when (mine && lost != 0) (fun d => Dev.slowCnt { d with ccl := { d.ccl with held := [] } } 3 lost)

/-- A pair leaves its duties to its partner and is reset, in role SPARE (R516, R517). -/
def Dev.pairSpare (d : Dev) (n : Nat) : Dev :=
  let d := d.pairRelease n
  let d := (d.setFld cclPg (R.CCL_PAIR_STAT_STATE.at n) 0).setFld cclPg (R.CCL_PAIR_STAT_ROLE.at n) 2
  d.setFlag cclPg (R.CCL_PAIR_STAT_COVER.at (partner n)) true

/-- A pair takes its duties back. -/
def Dev.pairBack (d : Dev) (n : Nat) : Dev :=
  let d := (d.setFld cclPg (R.CCL_PAIR_STAT_STATE.at n) 1).setFld cclPg (R.CCL_PAIR_STAT_ROLE.at n) (pairRole n)
  d.setFlag cclPg (R.CCL_PAIR_STAT_COVER.at (partner n)) false

/-- Begin the renewal of the next pair, whose partner takes its duties, or of none (R516). -/
def Dev.renewNext (d : Dev) : Dev :=
  match d.upd.todo with
  | p :: _ =>
    ((d.setFld updPg R.UPD_ACT_PHASE 1).setFld updPg R.UPD_ACT_PAIR p).setFlag cclPg (R.CCL_PAIR_STAT_COVER.at (partner p)) true
  | [] =>
    let d := d.activated d.upd.slot
    ((d.setFld updPg R.UPD_ACT_PHASE 0).cnt updPg 2).raise updPg 1

/-- The end of a rollback (R517): RESULT, the new slot's REASON, ACT_FAIL. -/
def Dev.rolledBack (d : Dev) : Dev :=
  let r := d.upd.failed
  let d := (d.setFld updPg R.UPD_ACT_PHASE 0).setFld updPg R.UPD_ACT_RESULT r
  let d := d.setSlot d.upd.slot (if r = 0x0F then 3 else 4) r
  (d.cnt updPg 3).raise updPg 2

/-- The pair loaded again next in a rollback. -/
def Dev.rollNext (d : Dev) : Dev :=
  match d.upd.todo with
  | p :: _ => (d.setFld updPg R.UPD_ACT_PAIR p).pairSpare p
  | [] => d.rolledBack

/-- The renewal of the present pair fails with a RESULT (R517): it and the pairs already renewed are loaded
again from the active slot, the latest first. -/
def Dev.rollBack (d : Dev) (result : Nat) : Dev :=
  let p := d.fld updPg R.UPD_ACT_PAIR
  let done := [0, 1, 2, 3].filter (fun k => bitAt (d.fld updPg R.UPD_ACT_DONE_MASK) k)
  let d := d.withUpd (fun u => { u with todo := p :: done, failed := result })
  (d.setFld updPg R.UPD_ACT_PHASE 5).rollNext

/-- A step of the renewal of the present pair completes (R516, R517). -/
def Dev.hitlessStep (d : Dev) (e : HitlessEnd) : Dev :=
  let ph := d.actPhase
  let p := d.fld updPg R.UPD_ACT_PAIR
  if ph = 5 then
    let d := (d.pairBack p).setFld updPg R.UPD_ACT_DONE_MASK (putBits (d.fld updPg R.UPD_ACT_DONE_MASK) p p 0)
    (d.withUpd (fun u => { u with todo := u.todo.drop 1 })).rollNext
  else if ph = 0 || 3 < ph then d
  else match e with
    | .timeout => d.rollBack (if ph = 1 then 0x0F else 0x0A)
    | .fail => d.rollBack 0x0A
    | .done =>
      if ph = 1 then
        if d.lbx.runs.any (fun r => r.pair == p) || d.movsOf (3 + p) then d
        else
          let who : Owner := .pair ⟨p % 4, by omega⟩
          let mine := allPages.filter (fun q => d.holds q who)
          let d := mine.foldl (fun d q => d.lockDrop who q) d
          (d.pairSpare p).setFld updPg R.UPD_ACT_PHASE 2
      else if ph = 2 then
        let (r, d) := d.slotCheck d.upd.slot
        if r ≠ 0 then d.rollBack 0x0A
        else (d.setFld cclPg (R.CCL_PAIR_STAT_STATE.at p) 1).setFld updPg R.UPD_ACT_PHASE 3
      else
        let d := (d.pairBack p).setFld updPg R.UPD_ACT_DONE_MASK (d.fld updPg R.UPD_ACT_DONE_MASK ||| 2 ^ p)
        (d.withUpd (fun u => { u with todo := u.todo.drop 1 })).renewNext

/-- A pair that is being renewed restarts while SPARE (R517). -/
def Dev.spareRestart (d : Dev) (n : Nat) : Dev :=
  let ph := d.actPhase
  if 1 ≤ ph && ph ≤ 3 && d.fld updPg R.UPD_ACT_PAIR == n && d.fld cclPg (R.CCL_PAIR_STAT_ROLE.at n) == 2 then d.rollBack 0x0A
  else d

-- ==== the configuration store (R507, R508) ====

/-- Pages of 4,096 bytes in one copy of the store. -/
def copyPages : Nat := 3584

/-- The records of `n` pages fit in every copy that must take them. -/
def Dev.cfgFits (d : Dev) (n : Nat) : Bool :=
  let c := d.cfg
  (c.compact == some 0 || decide (c.a.used + n ≤ copyPages)) && (c.compact == some 1 || decide (c.b.used + n ≤ copyPages))

/-- The compaction of copy `k` begins at device time `now`: it is erased (R508). -/
def CfgStore.compactFrom (c : CfgStore) (k : Nat) (second : Bool) (now : Nat) : CfgStore :=
  let c := if k = 0 then { c with a := {} } else { c with b := {} }
  { c with compact := some k, second := second, meanwhile := 0, since := now }

/-- A copy with less than 3.5 MiB free is compacted, copy A first. -/
def CfgStore.settle (c : CfgStore) (now : Nat) : CfgStore :=
  if c.compact.isSome then c
  else if copyPages < c.a.used + 896 then c.compactFrom 0 false now
  else if copyPages < c.b.used + 896 then c.compactFrom 1 false now
  else c

/-- A record of `n` pages is appended. -/
def Dev.cfgAppend (d : Dev) (n : Nat) : Dev :=
  d.withCfg (fun c =>
    let seq := (max c.a.seq c.b.seq + 1) % 2 ^ 32
    let c := c.put (fun x => { x with used := x.used + n, seq := seq })
    CfgStore.settle { c with meanwhile := if c.compact.isSome then c.meanwhile + n else 0 } d.now)

/-- Copy `k` is compacted: `n` pages of full records, what was saved meanwhile appended, the content that of the
other copy. -/
def CfgStore.copied (c : CfgStore) (k n : Nat) : CfgStore :=
  let x := if k = 0 then c.b else c.a
  let y := { x with used := n + c.meanwhile }
  if k = 0 then { c with a := y } else { c with b := y }

/-- The compaction of a copy ends, `n` pages of full records in it; then the other copy's begins, or both are
done. A PFAIL warning holds back one that began after it (R481). -/
def Dev.compacted (d : Dev) (n : Nat) : Dev :=
  match d.cfg.compact with
  | none => d
  | some k =>
    if d.flashHeld d.cfg.since then d
    else
    let second := d.cfg.second
    let d := d.withCfg (fun c =>
      let c := c.copied k n
      if second then { c with compact := none, second := false, meanwhile := 0 } else c.compactFrom (1 - k) true d.now)
    d.when second (fun d => (d.cnt updPg 4).raise updPg 3)

end Sys2Proof.Machine
end

