-- ==== Sys2Proof/Machine/Cluster.lean ====
section
/-! DEFINITION. The control cluster (16): checkpoints, restarts and takeovers of the pairs, the slow path,
and the power-state transition that stops pairs 2 and 3 in Idle (R346). -/

namespace Sys2Proof.Machine

/-- What a pair keeps beside its registers. -/
def Dev.pair (d : Dev) (n : Nat) : Pair := d.ccl.pairs.getD n {}

/-- Change it. -/
def Dev.setPair (d : Dev) (n : Nat) (p : Pair) : Dev := { d with ccl := { d.ccl with pairs := d.ccl.pairs.set n p } }

/-- Set STATE of a pair: 1 RUNNING, 3 RESTARTING, 4 STOPPED, 5 FAILED. -/
def Dev.setPairState (d : Dev) (n st : Nat) : Dev := d.setFld cclPg (R.CCL_PAIR_STAT_STATE.at n) st

/-- Count in counter `i` of a pair (R435). -/
def Dev.pairCnt (d : Dev) (n i : Nat) : Dev := d.addCount cclPg (0x400 + 0x40 * n + 8 * i) 1

-- ==== checkpoints (R427, R428) ====

/-- The undo log is emptied. -/
def Dev.undoEmpty (d : Dev) (n : Nat) : Dev :=
  (d.setPair n { d.pair n with undo := [] }).setFld cclPg (R.CCL_PAIR_UNDO_KIB.at n) 0

/-- A checkpoint is committed: the slot not used last takes the state, then CKPT_SEQ, CKPT_TIME and the log; the holder's
pairs 2 and 3 mirror theirs (R493). One with a log of 512 KiB is an early one. The architectural state of a pair is one
drawn number, which stands for the words of the CKPT records. DESIGN CHOICE: assumption 155. -/
def Dev.checkpoint (d : Dev) (n : Nat) : Dev :=
  let early := decide (8192 ≤ (d.pair n).undo.length)
  let d := (d.incWrap cclPg (R.CCL_PAIR_STAT_CKPT_SEQ.at n)).setWide cclPg (0x88 + 0x10 * n) d.time
  let d := ((d.undoEmpty n).pairCnt n 0).when early (fun d => d.pairCnt n 1)
  let (k, d) := d.draw
  let slot := 1 - (d.pair n).slot
  let d := d.setPair n { d.pair n with slot := slot, ckpt := Config.free k % 2 ^ 32 }
  d.when (decide (2 ≤ n)) (fun d => d.carbon 3 [n, 0x10000 * slot, (d.pair n).ckpt])

/-- CHECKPOINT (R428) of a pair, from its tick or a full log to the step "Resumed". `corrected` is the number of
single-bit errors its cache arrays have corrected since the one before, counted in CACHE_CORR (R423). -/
def execCheckpoint (pair : Fin 4) (corrected : Byte) (s : State) : Answer :=
  s.runMain (fun d => d.when (d.pairState pair == 1) (fun d =>
    (d.checkpoint pair).addCount cclPg (0x400 + 0x40 * pair + 8 * 3) corrected.toNat))

-- ==== restarts (R429 to R432) ====

/-- The index under which FLT_INJ names the checker that reported (R436). -/
def pairChecker (n cause point : Nat) : Nat :=
  if cause = 3 then 0x10 + n else if n < 2 then 2 * n + point / 128 % 2 else 2 + n

/-- The armed checkers of a pair (R436). -/
def Dev.pairArmed (d : Dev) (n : Nat) : Option Nat :=
  ((if n < 2 then [2 * n, 2 * n + 1] else [2 + n]) ++ [0x10 + n]).find? (d.isArmed cclPg)

/-- The detections that count, with the one made now (R432). -/
def Dev.restartsNow (d : Dev) (n : Nat) : List Nat :=
  d.now :: (d.pair n).restarts.filter (fun t => decide (d.now < t + d.fld cclPg R.CCL_RESTART_CFG_WINDOW_MS * msTicks))

/-- The undo log is written back, newest block first (R430). -/
def Dev.undoReplay (d : Dev) (n : Nat) : Dev :=
  ((d.pair n).undo.foldl (fun d u => d.memWrite u.1 u.2) d).undoEmpty n

/-- The event record and the kept record of a restart that ended (R437, R477). -/
def Dev.restartRecord (d : Dev) (n us : Nat) : Dev :=
  let p := d.pair n
  let at0 := (p.detected.map (·.2)).getD 0
  let d := d.when p.shown (fun d => d.setWord cclPg 0xCC us)
  let d : Dev := { d with ccl := { d.ccl with history := ((⟨p.word, us, at0⟩ : RestartRec) :: d.ccl.history).take 15 } }
  (d.setPair n { p with detected := none, shown := false }).event 6 cclPg [p.word, us]

/-- The pair enters FAILED (R430, R432). The fault is at level 4 when both safety pairs are. -/
def Dev.pairFail (d : Dev) (n checker : Nat) : Dev :=
  let d := ((d.restartRecord n 0).setPairState n 5).raise cclPg 2
  let both := d.pairState 0 == 5 && d.pairState 1 == 5
  d.fault { cls := 1, page := cclPg, checker := checker, detail := (d.pair n).word, level := if both then 4 else 0 }

/-- CCL_LAST_RESTART of a restart. -/
def restartWord (n cause point : Nat) : Nat := 2 ^ 31 + n * 2 ^ 24 + cause * 2 ^ 16 + point * 2 ^ 8

/-- A pair restarts: CAUSE and POINT as found, `inj` by injection. At the LIMIT it fails. -/
def Dev.pairRestart (d : Dev) (n cause point checker : Nat) (inj : Bool) : Dev :=
  let w := restartWord n cause point
  let shown := !d.flag cclPg R.CCL_LAST_RESTART_VALID
  let times := d.restartsNow n
  let d := if shown then (d.setWord cclPg 0xC8 w).setWord cclPg 0xCC 0
    else d.setFlag cclPg R.CCL_LAST_RESTART_OVERRUN true
  let d := d.setPair n { d.pair n with restarts := times, detected := some (d.now, d.time), word := w, shown := shown }
  let d := ((d.setPairState n 3).raise cclPg 0).pairRelease n
  let number := d.start.number
  let standing (f : Dev → Dev) (d : Dev) : Dev := d.when (d.start.number == number) f
  let d := d.when (checker / 16 == 1) (fun d =>
    d.fault { cls := 0, page := cclPg, checker := checker, detail := w, injected := inj })
  let d := standing (fun d => d.fault { cls := 1, page := cclPg, checker := checker, detail := w, injected := inj }) d
  let d := d.when (decide (d.fld cclPg R.CCL_RESTART_CFG_LIMIT ≤ times.length)) (standing (fun d => d.pairFail n checker))
  standing (fun d => d.spareRestart n) d

/-- PAIR_RESTART (R429, R430): CAUSE 1 to 3 and POINT as the comparator or the cache reports; with CAUSE 4 the
pair's armed checker reports (R436), POINT naming the comparator. -/
def execPairRestart (pair : Fin 4) (cause : Fin 5) (point : BitVec 8) (s : State) : Answer :=
  s.runMain (fun d =>
    let st := d.pairState pair
    if st = 0 || 4 ≤ st || cause = 0 then d
    else if cause.val = 4 then
      match d.pairArmed pair with
      | none => d
      | some c =>
        let p := point.toNat % 64 + (if c < 4 then c % 2 * 128 else 0)
        (d.disarm cclPg c).pairRestart pair 4 p c true
    else d.pairRestart pair cause (if cause.val = 3 then 0 else point.toNat) (pairChecker pair cause point.toNat) false)

/-- A restarted pair runs again from its checkpoint (R430). A pair that restarts at a claim gain (R498) had no
detection, and nothing is counted or recorded for it. -/
def Dev.pairResume (d : Dev) (n : Nat) : Dev :=
  let d := (d.undoReplay n).setPairState n 1
  let d := d.raise cclPg 1
  match (d.pair n).detected with
  | none => d
  | some (t, _) => (d.pairCnt n 2).restartRecord n (min ((d.now - t) / usTicks) (2 ^ 32 - 1))

/-- PAIR_RESUMED (R430): `bad` is an uncorrectable error in the slot or in the log. -/
def execPairResumed (pair : Fin 4) (bad : Bool) (s : State) : Answer :=
  s.runMain (fun d =>
    if d.pairState pair ≠ 3 then d
    else if bad then d.pairFail pair 0xFF
    else d.pairResume pair)

/-- PAIR_TAKEOVER (R432): the partner of a failed pair takes its duties once it runs. -/
def execPairTakeover (failed : Fin 4) (s : State) : Answer :=
  s.runMain (fun d =>
    let f := R.CCL_PAIR_STAT_COVER.at (partner failed)
    if d.pairState failed ≠ 5 || !d.pairRuns (partner failed) || d.flag cclPg f then d
    else (d.setFlag cclPg f true).raise cclPg 3)

-- ==== the slow path (R433) ====

/-- What the parser finds in a frame of the slow path, with no limit of reach but the header's. -/
def Dev.slowParse (d : Dev) (f : Frm) : Parsed :=
  parseFrame true f.inPort (d.fld burPg (R.BUR_PORT_CFG0_USER_META.at f.inPort))
    (d.fld (canPg 0) R.EDG_BRIDGE_CFG_XL_TYPE) f.data

/-- The fragment header of an IPv6 packet: where its next header begins in the chain at `off`. -/
def frag6 (bs : List Byte) : Nat → Nat → Nat → Option Nat
  | 0, _, _ => none
  | k + 1, nh, off =>
    let b (i : Nat) : Nat := ((bs[i]?).map (·.toNat)).getD 0
    if nh = 44 then some off
    else if isExt6 nh then frag6 bs k (b off) (off + 8 * (b (off + 1) + 1))
    else none

/-- A fragment: where its part of the datagram begins in the frame, its offset in the datagram, whether more
follow, and the part. -/
structure FragPart where
  at0 : Nat
  off : Nat
  more : Bool
  part : List Byte
  deriving DecidableEq, Repr

/-- Read it from a frame whose IP header lies at `o`. -/
def fragPart (bs : List Byte) (v6 : Bool) (o : Nat) : Option FragPart :=
  let w (i : Nat) : Nat := beNat (slice bs i 2)
  if v6 then
    let stop := o + 40 + w (o + 4)
    match frag6 bs 5 (((bs[o + 6]?).map (·.toNat)).getD 0) (o + 40) with
    | none => none
    | some x => some ⟨x + 8, w (x + 2) / 8 * 8, w (x + 2) % 2 == 1, (bs.take stop).drop (x + 8)⟩
  else
    let h := 4 * ((((bs[o]?).map (·.toNat)).getD 0) % 16)
    some ⟨o + h, w (o + 6) % 0x2000 * 8, bitAt (w (o + 6)) 13, (bs.take (o + w (o + 2))).drop (o + h)⟩

/-- The parts of a datagram in the order of their offsets. -/
def sortParts (ps : List FragPart) : List FragPart := (ps.map (fun p => (p.off, p)) |> NMap.sort).map (·.2)

/-- The datagram the parts make, where they leave no gap and the last one ends it. -/
def joinParts : List FragPart → List Byte → Option (List Byte)
  | [], _ => none
  | p :: ps, acc =>
    if acc.length < p.off then none
    else
      let acc := acc ++ p.part.drop (acc.length - p.off)
      if p.more then joinParts ps acc else some acc

/-- A pattern of a class in DROP_CLASSES matches in the window of the original port (R126, R433). -/
def Dev.slowHits (d : Dev) (f : Frm) (q : Parsed) : Bool :=
  let win := d.window f q
  let t := d.bur.cur
  let drop := d.fld cclPg R.CCL_SLOW_CFG_DROP_CLASSES
  !win.isEmpty && (patIdx t).any (fun i => bitAt drop (bits (t.ent patWin i 32) 19 16) && patHits t win i)

/-- Send a frame into port 40 ingress. -/
def Dev.reinject (d : Dev) (f : Frm) : Dev := ((d.slowCnt 1).inject 40 f.data (d.stampNow 0) (d.stampNow 1)).2

/-- A held datagram with one more fragment: searched and sent on once it is complete. One beyond 9,216 bytes
cannot be held and is discarded. DESIGN CHOICE: assumption 24. -/
def Dev.reassemble (d : Dev) (g : Datagram) (rest : List Datagram) : Dev :=
  let parts := g.frags.filterMap (fun f =>
    let q := d.slowParse f
    q.ipAt.bind (fun o => fragPart f.data (keyL3 q.key == 2) o))
  let size := (parts.map (fun p => p.off + p.part.length)).foldl max 0
  let gone : Dev := { d with ccl := { d.ccl with held := rest } }
  if 9216 < size then gone.slowCnt 2 g.frags.length
  else match joinParts (sortParts parts) [], g.frags.find? (fun f => keyFrag (d.slowParse f).key == 1) with
    | some whole, some f =>
      let q := d.slowParse f
      let head := ((q.ipAt.bind (fun o => fragPart f.data (keyL3 q.key == 2) o)).map (·.at0)).getD 0
      if gone.slowHits { f with data := f.data.take head ++ whole } q then gone.slowCnt 4
      else g.frags.foldl Dev.reinject gone
    | _, _ => { d with ccl := { d.ccl with held := rest ++ [g] } }

/-- SCAN of a frame. A fragment for which no datagram can be held any more is discarded. DESIGN CHOICE:
assumption 24. -/
def Dev.slowScan (d : Dev) (f : Frm) : Dev :=
  let q := d.slowParse f
  if keyL3 q.key ≠ 0 && keyFrag q.key ≠ 0 && q.ipAt.isSome then
    let k := fragKey q
    match d.ccl.held.find? (fun g => g.key == k) with
    | some g => d.reassemble { g with frags := g.frags ++ [f] } (d.ccl.held.filter (fun h => h.key != k))
    | none =>
      if d.ccl.held.length < 64 then d.reassemble ⟨k, d.now, [f]⟩ d.ccl.held else d.slowCnt 2
  else if d.slowHits f q then d.slowCnt 4
  else d.reinject f

/-- A frame that the pair has taken, by its entry. -/
def Dev.slowAct (d : Dev) (f : Frm) : Dev :=
  let e := d.word cclPg (0x1000 + 4 * (f.res.dest % 1024))
  let d := d.when (bitAt e 29) (fun d => d.event 2 cclPg (f.res.words ++ [f.inPort]))
  match e / 2 ^ 30 with
  | 1 => d.reinject f
  | 2 => d.slowScan f
  | _ => d.slowCnt 2

/-- Sub-cycles from one frame of the slow path to the next: at most 400,000 in a second (R433). -/
def slowPeriod : Nat := 5 * usTicks / 2

/-- The pair that carries the slow path takes the next frame of port 40, when it is ready for one (R433); with both pairs
2 and 3 FAILED the frame is discarded (R432). -/
def Dev.slowTake (d : Dev) (corrected uncorr : Bool) : Dev :=
  let dead := d.pairState 2 == 5 && d.pairState 3 == 5
  if (!dead && !d.duty 2) || (!dead && decide (d.now < d.ccl.slowAt)) || d.stalled 0 0x0C then d
  else match d.pick 40 (d.queued 40 + 1) with
    | (none, d) => d
    | (some (q, c), d) =>
      let d : Dev := { d with ccl := { d.ccl with slowAt := d.now + slowPeriod } }
      let (bs, changed) := c.read
      let d := d.released 40 q c changed
      match d.shlInject c with
      | some d => d
      | none =>
        let d := d.when corrected (fun d => d.shlCnt 16)
        if uncorr then
          (((d.shlCnt 15).raise shlPg 3).fault { cls := 0, page := shlPg, checker := 0x10 }).endOf c
        else
          let d := (d.txSettle c.frm.id 0 none).endOf c
          (if dead then d.slowCnt 3 else (d.slowCnt 0).slowAct { c.frm with data := bs }).lowWater

/-- SLOW_PATH_TAKE (R433): what the cells' ECC finds as the frame is read (R215). -/
def execSlowPathTake (corrected uncorr : Bool) (s : State) : Answer := s.runMain (fun d => d.slowTake corrected uncorr)

/-- REASM_TIMEOUT (R433): datagrams whose first fragment came 2 ms ago are discarded. -/
def execReasmTimeout (s : State) : Answer :=
  s.runMain (fun d =>
    let due (g : Datagram) : Bool := decide (g.at0 + 2 * msTicks ≤ d.now)
    let n := (d.ccl.held.filter due).length
    d.when (n != 0) (fun d =>
      Dev.slowCnt { d with ccl := { d.ccl with held := d.ccl.held.filter (fun g => !due g) } } 5 n))

-- ==== the power-state transitions (R346, R353) ====

/-- Pairs 2 and 3 stop at a checkpoint as Idle is entered; what came for them meanwhile ends Idle at once. -/
def Dev.enterIdle (d : Dev) : Dev :=
  let d := [2, 3].foldl (fun d n => d.when (d.pairState n == 1) (fun d => (d.checkpoint n).setPairState n 4)) d
  let waits := (List.range 8).any (fun q => d.hasFrame 40 q)
    || (List.range 4).any (fun m => d.mbState m == 1 && decide (2 ≤ codePair (d.word lbxPg (reqOff m 0) / 2 ^ 16)))
  d.when waits Dev.idleReturn

/-- Pairs 2 and 3 run again. -/
def Dev.leaveIdle (d : Dev) : Dev :=
  [2, 3].foldl (fun d n => d.when (d.pairState n == 4) (fun d => d.setPairState n 1)) d

/-- STATE_TRANSITION_DONE (R353): the transition in progress completes; a POWER event is made and a pending request
starts. Off is a reset event of the host, whose link has gone down (R348). -/
def execStateTransitionDone (s : State) : Answer :=
  s.run (fun d =>
    if d.flag pwrPg R.PWR_STATE_STAT_BUSY then
      let t := d.fld pwrPg R.PWR_STATE_STAT_NEXT
      let d := (d.setFld pwrPg R.PWR_STATE_STAT_CUR t).setFlag pwrPg R.PWR_STATE_STAT_BUSY false
      let d := (d.cnt pwrPg 0).raise pwrPg 0
      let d := d.event 3 pwrPg [d.word pwrPg 0x84, d.word pwrPg 0x8C]
      if t = 4 then (d.ownerEvent 1).enterOff
      else
        let d := if t = 0 then d.leaveIdle else d
        let d := d.stPending
        d.when (t == 1) Dev.enterIdle
    else d)

end Sys2Proof.Machine
end

