-- ==== Sys2Proof/Machine/Firewall.lean ====
section
/-! DEFINITION. The meanings of the firewall's commands (07) that are not Letterbox commands. -/

namespace Sys2Proof.Machine

/-- CT_SWEEP (R180): the sweeper visits a bucket; `bad` names a slot whose record check fails. -/
def execCtSweep (bucket : Nat) (bad : Option (Fin 8)) (s : State) : Answer :=
  s.runMain (fun d => d.ctSweep bucket (bad.map (·.val)))

/-- CAN_LIMITER_CREDIT (R189): 1 ms of credit for every limiter. -/
def execCanLimiterCredit (s : State) : Answer :=
  s.runMain (fun d => d.limiters.foldl Dev.creditLimiter d)

/-- DIAG_GATE_OPEN (R194): OPEN_REQ for gate `p` + 1. -/
def execDiagGateOpen (who : Owner) (p : Fin 3) (seconds : BitVec 16) (s : State) : Answer :=
  let v := 2 ^ 30 + seconds.toNat
  s.run (fun d => d.gateW who fwlPg (0xB0 + 4 * p) v (fun d => d.gateWrite p v))

/-- DIAG_GATE_CLOSE (R194): CLOSE_REQ for gate `p` + 1. -/
def execDiagGateClose (who : Owner) (p : Fin 3) (s : State) : Answer :=
  s.run (fun d => d.gateW who fwlPg (0xB0 + 4 * p) (2 ^ 29) (fun d => d.gateWrite p (2 ^ 29)))

/-- DIAG_GATE_EXPIRE (R194): SECONDS has counted down to 0. -/
def execDiagGateExpire (p : Fin 3) (s : State) : Answer := s.runMain (fun d => d.gateClose p)

end Sys2Proof.Machine
end

