-- ==== Sys2Proof/Machine/Host.lean ====
section
/-! DEFINITION. The commands of the PCI Express endpoint, the DMA queues and the management port's reset (14). -/

namespace Sys2Proof.Machine

-- ==== the endpoint (R67, R369, R370, R385) ====

/-- What the configuration space of the endpoint's one function shows (R369). -/
structure PcieConfig where
  vendor : Nat := 0x1F3D
  device : Nat := 0x3980
  revision : Nat
  classCode : Nat := 0x028000
  subVendor : Nat
  subsystem : Nat
  interruptPin : Nat := 0
  maxPayload : Nat := 512
  /-- MSI-X: vectors, and the offsets of the table and of the PBA, both in BIR 0. -/
  vectors : Nat := 128
  tableAt : Nat := 0x402000
  pbaAt : Nat := 0x403000
  serial : Nat
  d3hot : Bool
  busMaster : Bool
  deriving DecidableEq, Repr

/-- It now: the subsystem identity comes from committed configuration, 0x1F3D and 0 where none is committed. -/
def Dev.pcieConfig (d : Dev) : PcieConfig :=
  let sub := d.start.subsystem
  { revision := d.fld hbrPg R.PAGE_VER_STEP
    subVendor := if sub = 0 then 0x1F3D else sub / 2 ^ 16
    subsystem := if sub = 0 then 0 else sub % 2 ^ 16
    serial := Config.unitId % 2 ^ 64
    d3hot := d.pcie.d3hot
    busMaster := d.pcie.busMaster }

/-- A PCIe reset event (R67, R385): the endpoint and every DMA queue are at reset, and the host's physical
function has had its reset event. `down`: the link is down after it. -/
def Dev.pcieReset (d : Dev) (down : Bool) : Dev :=
  let d : Dev := { d with
    pcie := { d.pcie with d3hot := false, busMaster := false, linkUp := d.pcie.linkUp && !down }
    dma := {}
    regs := d.regs.filter (fun e =>
      let o := e.1 % pageSpan
      !(e.1 / pageSpan == dmaPg.idx && decide (0x1000 ≤ o) && decide (o < 0x3000))
        && !(e.1 / pageSpan == hbrPg.idx && decide (0x2000 ≤ o)))
    stalls := d.stalls.filter (fun x => !(x.acc.who == .host && !x.acc.write)) }
  let d := d.when (down && d.flag hbrPg R.HBR_LINK_STAT_L0) (fun d => (d.setFlag hbrPg R.HBR_LINK_STAT_L0 false).raise hbrPg 3)
  d.ownerEvent 1

/-- PCIE_RESET (R45, R67): PERST#, hot reset, link down or Function Level Reset, which keeps the link. -/
def execPcieReset (flr : Bool) (s : State) : Answer := s.run (fun d => d.pcieReset (!flr))

/-- PCIE_LINK_CHANGE (R383): whether the link is in L0 or L1, its lanes and its speed. A link that goes down is a
reset event (R67); one that comes up ends PCIE_WAKE_N (R348). -/
def execPcieLinkChange (up : Bool) (width : Byte) (speed : Fin 16) (s : State) : Answer :=
  s.runMain (fun d =>
    let h := hbrPg
    let was := d.word h 0x80
    let d := (d.setFlag h R.HBR_LINK_STAT_L0 up).setFld h R.HBR_LINK_STAT_WIDTH width.toNat
    let d := d.setFld h R.HBR_LINK_STAT_SPEED speed.val
    let d := d.when (d.word h 0x80 != was) (fun d => d.raise h 3)
    let d := d.when (d.pcie.linkUp && !up) (fun d => d.pcieReset true)
    let d : Dev := { d with pcie := { d.pcie with linkUp := up } }
    d.when (up && d.pcie.wakeLow) (fun d =>
      Dev.emit { d with pcie := { d.pcie with wakeLow := false } } (.pin 0x22 1)))

/-- D3HOT_ENTRY (R370), a configuration request: until step 0x0B ends it is to be retried (R70). -/
def execD3hotEntry (s : State) : Answer :=
  s.runMain (fun d =>
    if !d.start.barsDecoded then d.emit .configRetry
    else (List.range 128).foldl Dev.qStop { d with pcie := { d.pcie with d3hot := true } })

/-- PCIE_CONFIG_WRITE (R370, R381): a return to D0, and Bus Master Enable; messages whose reason to wait has
gone are sent. Until step 0x0B ends the request is answered with Configuration Request Retry Status (R70). -/
def execPcieConfigWrite (toD0 busMaster : Bool) (s : State) : Answer :=
  s.runMain (fun d =>
    if !d.start.barsDecoded then d.emit .configRetry
    else
      let d : Dev := { d with pcie := { d.pcie with d3hot := d.pcie.d3hot && !toD0, busMaster := busMaster } }
      d.when (!d.pcie.d3hot && busMaster && d.pcie.linkUp) Dev.releaseMsix)

/-- SPI_PORT_RESET (R373). -/
def execSpiPortReset (s : State) : Answer :=
  s.run (fun d =>
    if d.spiDeep then d.fire 0x2A
    else if !d.start.released || !d.start.spiUp then d
    else Dev.ownerEvent { d with spi := {} } 2)

-- ==== transmit queues (R389, R390, R392) ====

/-- DMA_TX_FETCH (R390): the next frame of each queue as the host's memory holds it. -/
def execDmaTxFetch (next : List TxNext) (s : State) : Answer := s.runMain (fun d => d.dmaFetch next)

/-- The oldest frame a queue has read enters port 41, or is discarded for its format (R389). -/
def Dev.txFrameIn (d : Dev) (q : Fin 64) : Dev :=
  let i := 64 + q.val
  let x := d.dmaQ i
  match x.reads with
  | [] => d
  | r :: rs =>
    let d := d.setDmaQ i { x with reads := rs }
    if r.bad then (d.qCount i 2).txWrite i { status := some 3, descs := r.descs }
    else
      let (id, d) := d.inject 41 r.data 0 0
      let d := (d.qCount i 0).qCount i 1 r.data.length
      if r.ts then d.txWrite i { frm := some id, descs := r.descs }
      else d.txWrite i { status := some 0, descs := r.descs }

/-- DMA_TX_FRAME_IN (R389). -/
def execDmaTxFrameIn (queue : Fin 64) (s : State) : Answer := s.runMain (fun d => d.txFrameIn queue)

/-- TS_TIMEOUT (R389): the oldest writeback of a queue that waits for its stamp has waited 2 ms. -/
def execTsTimeout (queue : Fin 64) (s : State) : Answer :=
  s.runMain (fun d =>
    let i := 64 + queue.val
    match (d.dmaQ i).wbs.find? (fun w => w.status.isNone && decide (w.since + 2 * msTicks ≤ d.now)) with
    | some { frm := some id, .. } => (d.qCount i 3).txSettle id 2 none
    | _ => d)

/-- DMA_ITR_EXPIRE (R392): receive queues are 0 to 63, transmit queues 64 to 127. -/
def execDmaItrExpire (queue : Fin 128) (s : State) : Answer := s.runMain (fun d => d.qTimer queue)

end Sys2Proof.Machine
end

