-- ==== Sys2Proof/Machine/Mailbox.lean ====
section
/-! DEFINITION. The meanings of the commands of the Letterbox that read, dump or load: those of 07, 09, 14, 15,
16, 17 and 18; and the event archive (R478). Each row is the end of the command, which its pair has taken. -/

namespace Sys2Proof.Machine

/-- A 64-bit operand in two body words, low word first. -/
def MbRun.wide (r : MbRun) (i : Nat) : Nat := r.body.getD i 0 + 2 ^ 32 * r.body.getD (i + 1) 0

/-- An IOVA at or above 2^52 (R415). -/
def iovaBad (a : Nat) : Bool := decide (2 ^ 52 ≤ a)

-- ==== 14: ECHO and INFO (R398) ====

/-- ECHO (R398). -/
def execEcho (mailbox : Fin 4) (s : State) : Answer :=
  s.runMain (fun d => d.mbServe mailbox 1 (fun d r => (r.body, d)))

/-- INFO (R398). -/
def execInfo (mailbox : Fin 4) (s : State) : Answer :=
  s.runMain (fun d => d.mbServe mailbox 2 (fun d _ =>
    ([0, d.fwVersion, d.activeSlot, d.fld bootPg R.BOOT_START_NUMBER_NUMBER]
      ++ (List.range 4).map (fun k => Config.unitId / 2 ^ (32 * k) % 2 ^ 32), d)))

-- ==== 07: the connection table (R200) ====

/-- The table serves: the FWL page is ON and the table is enabled. -/
def Dev.ctServes (d : Dev) : Bool := d.isOn fwlPg && d.flag fwlPg R.FWL_CT_CFG_EN

/-- The entries held, in the order of bucket and slot. -/
def Dev.ctAll (d : Dev) : List Conn :=
  let keyed : NMap Conn := (d.fwl.conns.filter d.ctHeld).map (fun (c : Conn) => (c.bucket * 8 + c.slot, c))
  keyed.sort.map (·.2)

/-- The filter of CT_FLUSH and CT_DUMP. -/
def ctMatches (w : Nat) (c : Conn) : Bool :=
  (!bitAt w 31 || c.origZone == bits w 9 5) && (!bitAt w 30 || c.respZone == bits w 4 0) && (!bitAt w 29 || c.revocable)

/-- A command of the table has finished: FWL raises LBX_DONE (R399). -/
def Dev.ctCmd (d : Dev) : Dev := d.raise fwlPg 4

/-- The entry that CT_QUERY asks for: either side may come first. -/
def Dev.ctQuery (d : Dev) (ws : List Nat) : Option Conn :=
  let w (i : Nat) : Nat := ws.getD i 0
  let addr (i : Nat) : Nat := ((w i * 2 ^ 32 + w (i + 1)) * 2 ^ 32 + w (i + 2)) * 2 ^ 32 + w (i + 3)
  let a := sideVal (bits (w 1) 31 27) (addr 2) (bits (w 10) 31 16)
  let b := sideVal (bits (w 1) 26 22) (addr 6) (bits (w 10) 15 0)
  d.ctAll.find? (fun c => c.is a b (bits (w 0) 15 8) (bits (w 0) 7 6) || c.is b a (bits (w 0) 15 8) (bits (w 0) 7 6))

/-- CT_QUERY (R200). -/
def execCtQuery (mailbox : Fin 4) (s : State) : Answer :=
  s.runMain (fun d => d.mbServe mailbox 0x0710 (fun d r =>
    let w0 := r.body.getD 0 0
    let bad := !([1, 6, 17, 58].contains (bits w0 15 8)) || bits w0 7 6 == 0 || bits w0 7 6 == 3
    let ws := if !d.ctServes then [2] else if bad then [3]
      else match d.ctQuery r.body with
        | some c => 0 :: (c.recordA ++ c.counters)
        | none => [1]
    (ws, d.ctCmd)))

/-- CT_FLUSH (R200). -/
def execCtFlush (mailbox : Fin 4) (s : State) : Answer :=
  s.runMain (fun d => d.mbServe mailbox 0x0711 (fun d r =>
    if !d.ctServes then ([2], d.ctCmd)
    else
      let hit := d.ctAll.filter (ctMatches (r.body.getD 0 0))
      ([0, hit.length], (hit.foldl Dev.ctFree d).ctCmd)))

/-- The 128 bytes of an entry in a dump. -/
def dumpBytes (c : Conn) : List Byte :=
  ((c.recordA ++ c.counters ++ [c.bucket]).flatMap (leBytes 4)) ++ [BitVec.ofNat 8 c.slot] ++ List.replicate 27 0

/-- CT_DUMP (R200): `entries` of the matching entries fill the host buffer. -/
def execCtDump (mailbox : Fin 4) (s : State) : Answer :=
  s.runMain (fun d => d.mbServe mailbox 0x0712 (fun d r =>
    let iova := r.wide 0
    if !d.ctServes then ([2], d.ctCmd)
    else if iovaBad iova then ([3], d.ctCmd)
    else
      let hit := d.ctAll.filter (ctMatches (r.body.getD 3 0))
      let out := hit.take (r.body.getD 2 0 / 128)
      let d := d.when (!out.isEmpty) (fun d => d.emit (.hostWrite iova (out.flatMap dumpBytes)))
      ([if out.length < hit.length then 4 else 0, out.length], d.ctCmd)))

-- ==== 09: SCHED_LOAD (R258) ====

/-- A section of a schedule image: its table code, its MODE, the first entry, the number of entries, their bytes
and the byte at which they begin. -/
structure SchedSec where
  code : Nat
  replace : Bool
  first : Nat
  count : Nat
  size : Nat
  at0 : Nat
  deriving DecidableEq, Repr

/-- ENTRY_BYTES and the number of entries of a table of a schedule image. -/
def schedTab (code : Nat) : Option (Nat × Nat) :=
  if 0x30 ≤ code ∧ code ≤ 0x35 then some (4 * (frkSize (code - 0x2F)).2, (frkSize (code - 0x2F)).1)
  else if 0x40 ≤ code ∧ code < 0x68 then some (8, 1024)
  else if 0x80 ≤ code ∧ code < 0xA8 then some (32, 1)
  else none

/-- A 32-bit word at a byte of an image. -/
def imgW (img : List Byte) (a : Nat) : Nat := leNat (slice img a 4)

/-- The header checks of R165 for a schedule image: 0 passes, else the reason. -/
def schedHeader (img : List Byte) (len : Nat) : Nat :=
  let w (o : Nat) : Nat := imgW img o
  let secs := w 0x0C % 2 ^ 16
  if w 0 ≠ 0x31474852 ∨ w 4 % 2 ^ 16 ≠ 1 ∨ w 0x10 ≠ len ∨ img.length ≠ len ∨ len % 8 ≠ 0 ∨ len < 64
      ∨ secs = 0 ∨ 4095 < secs ∨ crc32c (img.take 0x3C ++ img.drop 0x40) ≠ w 0x3C then 9
  else if w 4 / 2 ^ 24 ≠ 2 then 0xC
  else if w 8 ≠ 0x00033980 || bitAt (w 0x14) 8 then 0xA
  else 0

/-- The sections, or the number of the first that is malformed. -/
def schedSections (img : List Byte) : Nat → Nat → Nat → List SchedSec → Except Nat (List SchedSec)
  | 0, _, _, acc => .ok acc.reverse
  | n + 1, i, at0, acc =>
    let w0 := imgW img at0
    let first := imgW img (at0 + 4)
    let count := imgW img (at0 + 8)
    let mode := bits w0 23 16
    match schedTab (w0 / 2 ^ 24) with
    | none => .error i
    | some (size, most) =>
      let bytes := (count * size + 7) / 8 * 8
      if 1 < mode || imgW img (at0 + 12) % 2 ^ 16 ≠ size || most < first + count || img.length < at0 + 16 + bytes then .error i
      else schedSections img n (i + 1) (at0 + 16 + bytes) (⟨w0 / 2 ^ 24, mode == 1, first, count, size, at0 + 16⟩ :: acc)

/-- Words of entry `k` of a section. -/
def SchedSec.words (x : SchedSec) (img : List Byte) (k : Nat) : List Nat :=
  (List.range (x.size / 4)).map (fun j => imgW img (x.at0 + k * x.size + 4 * j))

/-- The entry formats refuse entry `k`. -/
def SchedSec.bad (x : SchedSec) (img : List Byte) (k : Nat) : Bool :=
  let ws := x.words img k
  if x.code < 0x40 then frkBad (x.code - 0x2F) ws
  else if x.code < 0x80 then gclBad (ws.getD 0 0 + 2 ^ 32 * ws.getD 1 0)
  else decide (1 < R.SCH_GATE_CFG_CLOCK.of (ws.getD 0 0))

/-- The page a section writes. -/
def SchedSec.page (x : SchedSec) : Page := if x.code < 0x40 then frkPg else schPg (x.code % 0x40)

/-- Write a section. -/
def Dev.schedWrite (d : Dev) (img : List Byte) (x : SchedSec) : Dev :=
  if x.code < 0x40 then
    let t := x.code - 0x2F
    let (n, k) := frkSize t
    let given := (List.range x.count).map (fun j => (t, x.first + j, x.words img j))
    let zeros := if !x.replace then [] else (List.range n).map (fun i => (t, i, List.replicate k 0))
    d.withFrk (fun f => { f with writes := f.writes ++ zeros ++ given })
  else if x.code < 0x80 then
    let p := x.code - 0x40
    let y := d.sched p
    let list : NMap Nat := if x.replace then [] else y.admin
    let list := (List.range x.count).foldl (fun l j =>
      let ws := x.words img j
      put0 l (x.first + j) (bits (ws.getD 0 0 + 2 ^ 32 * ws.getD 1 0) 43 0)) list
    d.setSched p { y with admin := list }
  else
    let p := schPg (x.code - 0x80)
    let w (i : Nat) : Nat := (x.words img 0).getD i 0
    if x.count = 0 then d
    else
      let put (d : Dev) (off v : Nat) : Dev := match p.reg off with
        | some r => d.setWord p off (v &&& r.rw)
        | none => d
      put (put (put (put (put d 0x80 (w 0)) 0x88 (w 2)) 0x8C (w 3)) 0x90 (w 4)) 0x94 (w 5)

/-- SCHED_LOAD with the image as read: response words and the device. -/
def Dev.schedLoad (d : Dev) (iova len : Nat) (img : List Byte) : List Nat × Dev :=
  if iovaBad iova then ([3], d)
  else
    let h := schedHeader img len
    if h ≠ 0 then ([6, h], d)
    else match schedSections img (imgW img 0x0C % 2 ^ 16) 0 64 [] with
      | .error i => ([6, i * 2 ^ 16 + 9], d)
      | .ok xs =>
        match (enum xs).find? (fun e => (List.range e.2.count).any (fun k => e.2.bad img k)) with
        | some e => ([6, e.1 * 2 ^ 16 + 0xB], d)
        | none =>
          let pages := (xs.map SchedSec.page).eraseDups
          let copying (p : Page) : Bool := p.kind == .sch && d.flag p R.SCH_GCL_STAT_COPYING
          if pages.any (fun p => d.flag p R.PAGE_LOCK_HELD || copying p) then ([5], d)
          else ([0], xs.foldl (fun d x => d.schedWrite img x) (pages.foldl (fun d p => d.incWrap p R.PAGE_LOCK_GRANT_SEQ) d))

/-- SCHED_LOAD (R258): `image` is what the read of the host answered. -/
def execSchedLoad (mailbox : Fin 4) (image : List Byte) (s : State) : Answer :=
  s.runMain (fun d => d.mbServe mailbox 0x0900 (fun d r => d.schedLoad (r.wide 0) (r.body.getD 2 0) image))

-- ==== 15: CAP_READ (R415) ====

/-- CAP_READ (R415): `reached` says that the host took the data. -/
def execCapRead (mailbox : Fin 4) (reached : Bool) (s : State) : Answer :=
  s.runMain (fun d => d.mbServe mailbox 0x0C01 (fun d r =>
    let w (i : Nat) : Nat := r.body.getD i 0
    let region := w 0 % 16
    let held := bitAt (d.claim (0x20 + region)) 31 && d.fld sysPg (R.SYS_CLAIM_FEATURE.at (0x20 + region)) == 5
    let iova := r.wide 2
    let n := w 4
    if !held || n = 0 || 2 ^ 24 < n || d.capUnits region * 64 < w 1 * 64 + n || iovaBad iova then ([3, 0], d)
    else if !reached then ([7, 0], d)
    else ([0, n], d.emit (.hostWrite iova (d.memRead (d.capBase region + 64 * w 1) n)))))

-- ==== 16: RESTART_HISTORY (R437) ====

/-- RESTART_HISTORY (R437). -/
def execRestartHistory (mailbox : Fin 4) (s : State) : Answer :=
  s.runMain (fun d => d.mbServe mailbox 0x0D01 (fun d _ =>
    let h := d.ccl.history
    (h.length * 256 :: h.flatMap (fun x => [x.word, x.us, x.at0 % 2 ^ 32, x.at0 / 2 ^ 32 % 2 ^ 32]), d)))

-- ==== 17: MKA (R466) ====

/-- MKA of a port. -/
def Dev.mka (d : Dev) (p : Nat) : Mka := d.msc.mka.getD p {}

/-- Change it. -/
def Dev.setMka (d : Dev) (p : Nat) (m : Mka) : Dev := { d with msc := { d.msc with mka := d.msc.mka.set p m } }

/-- The slots of a port's ICK, KEK and SAK (R466). -/
def mkaSlot (p k : Nat) : Nat := 0xB8 + 3 * p + k

/-- A label of IEEE 802.1X-2020 in octets. PRESUMED: assumption 27. -/
def label8021 (s : String) : List Nat := s.toList.map (·.toNat)

/-- Derive ICK (0) or KEK (1) of a port from the CAK with FORMAT 1 (R446, R466) into its slot, LIFE RESET. The
labels and the Keyid, the first 16 octets of the CKN, are those of IEEE 802.1X-2020. PRESUMED: assumption 27. -/
def Dev.mkaDerive (d : Dev) (p k cak : Nat) (ckn : List Nat) : Dev :=
  let size := bits (d.slotAttr cak) 30 29
  let attr := size * 2 ^ 29 + 2 * 2 ^ 27 + (if k = 0 then 3 else 0xC0)
  let label := label8021 (if k = 0 then "IEEE8021 ICK" else "IEEE8021 KEK")
  let id := (ckn ++ List.replicate 16 0).take 16
  (d.slotClear (mkaSlot p k)).slotPut (mkaSlot p k) attr 0 (kdf1 (d.slotMat cak) label id (attrSize attr))

/-- MKA_SET with its body (R466): STATUS and the device. A restart drops the SAK's slot and what was known of
peers; with EN = 0 MKA ends on the port. -/
def Dev.mkaSet (d : Dev) (body : List Nat) : Nat × Dev :=
  let w0 := body.getD 0 0
  let p := w0 % 32
  let cak := bits w0 23 16
  let n := body.getD 1 0 % 64
  let off (d : Dev) : Dev := [0, 1, 2].foldl (fun d k => d.slotClear (mkaSlot p k)) d
  if 23 < p then (3, d)
  else if !bitAt w0 31 then (0, (off d).setMka p {})
  else if n = 0 || 32 < n then (3, d)
  else if !d.isOn (mscPg p) || !d.secured p then (9, d)
  else
    let (ok1, d) := d.slotUseOut cak 5
    let (ok2, d) := if ok1 then d.slotUseOut cak 5 else (false, d)
    if !ok2 then (8, d.slotSpent cak)
    else
      let ckn := (List.range n).map (fun i => body.getD (2 + i / 4) 0 / 256 ^ (i % 4) % 256)
      let d := (((off d).mkaDerive p 0 cak ckn).mkaDerive p 1 cak ckn).slotSpent cak
      (0, d.setMka p { en := true, cakSlot := cak, prio := bits w0 15 8, ckn := ckn, state := 1 })

/-- MKA_SET (R466). -/
def execMkaSet (mailbox : Fin 4) (s : State) : Answer :=
  s.runMain (fun d => d.mbServe mailbox 0x0B01 (fun d r =>
    let (st, d) := d.mkaSet r.body
    ([st], d)))

/-- MKA_STATUS (R466). -/
def execMkaStatus (mailbox : Fin 4) (s : State) : Answer :=
  s.runMain (fun d => d.mbServe mailbox 0x0B02 (fun d r =>
    let p := r.body.getD 0 0 % 32
    let m := d.mka p
    let age := if m.state = 3 then (d.now - m.installedAt) / (1000 * msTicks) % 2 ^ 32 else 0
    (if 23 < p then [3, 0, 0, 0]
      else [0, m.state * 2 ^ 28 + b2n m.keyServer * 2 ^ 27 + m.txAn * 2 ^ 24 + min m.live 255, m.keyNumber, age], d)))

/-- The words of an SA entry with the SAK of a port (R462). -/
def saEntry (p sci ssci pn : Nat) (salt : List Byte) : List Nat :=
  [2 ^ 31 + mkaSlot p 2 * 2 ^ 16, sci / 2 ^ 32, sci % 2 ^ 32, ssci, pn % 2 ^ 32, pn / 2 ^ 32]
    ++ (List.range 3).map (fun i => beNat (slice salt (4 * i) 4)) ++ [0, 0, 0]

/-- Install an entry over what its index held. -/
def Dev.saInstall (d : Dev) (p i : Nat) (ws : List Nat) : Dev :=
  let d := if (d.sa p i).valid then (d.saWrite p i (List.replicate 12 0)).2 else d
  (d.saWrite p i ws).2

/-- A SAK is taken into use (R466): it is generated, or unwrapped under the KEK, lies in its slot, and is
installed for transmission and for each peer. -/
def Dev.mkaSak (d : Dev) (p an number : Nat) (wrapped : List Byte) (ssci : Nat) (salt : List Byte)
    (peers : List (BitVec 64 × BitVec 32 × BitVec 64)) : Dev :=
  let m := d.mka p
  let long := d.cipher p % 2 = 1
  let attr := (if long then 2 ^ 29 else 0) + 2 * 2 ^ 27 + 2 ^ 8
  let (key, d) : Option (List Nat) × Dev := if m.keyServer then
      let (_, k, _, d) := d.keyGen (attrSize attr)
      (some k, d)
    else
      let (ok, d) := d.slotUse (mkaSlot p 1) 6
      (if ok then kwUnwrap (d.slotMat (mkaSlot p 1)) (wrapped.map (·.toNat)) else none, d)
  match key with
  | none => d
  | some k =>
    if k.length ≠ attrSize attr then d
    else
      let d := (d.slotClear (mkaSlot p 2)).slotPut (mkaSlot p 2) attr 0 k
      let d := (enum (peers.take 8)).foldl (fun d e =>
        d.saInstall p (4 + 4 * e.1 + an) (saEntry p e.2.1.toNat e.2.2.1.toNat e.2.2.2.toNat salt)) d
      let d := d.saInstall p an (saEntry p (d.txSci p) ssci 1 salt)
      let d := (d.setFld (mscPg p) (R.MSC_PORT_CFG_TX_AN.at (p % 4)) an).mscShow p
      d.setMka p { m with state := 3, txAn := an, keyNumber := number, installedAt := d.now }

/-- The group address of MKPDUs, and their frame from a port. PRESUMED: assumption 27. -/
def Dev.mkpduFrame (d : Dev) (p : Nat) (body : List Byte) : List Byte :=
  [0x01, 0x80, 0xC2, 0x00, 0x00, 0x03] ++ beBytes 6 (d.portMac p) ++ [0x88, 0x8E] ++ body

/-- MKA_TIMER_DUE (R346, R466): a timer of a port falls due; the device returns from Idle, and pair 3's duties
do what the protocol asks. -/
def execMkaTimerDue (port : Fin 24) (what : MkaStep) (s : State) : Answer :=
  s.runMain (fun d =>
    let d := d.idleReturn
    let m := d.mka port
    if !d.duty 3 || !m.en then d
    else match what with
      | .send body => (d.inject 40 (d.mkpduFrame port body) (d.stampNow 0) (d.stampNow 1)).2
      | .peers n server =>
        d.setMka port { m with live := n.toNat, keyServer := server,
                               state := if n = 0 then 1 else if m.state = 3 then 3 else 2 }
      | .sak an number wrapped ssci salt peers => d.mkaSak port an number.toNat wrapped ssci.toNat salt peers
      | .other => d)

-- ==== 18: the event archive (R478) ====

/-- Flash writes of the archive may begin: no PFAIL warning stands, and the start has reached step 0x0E. -/
def Dev.archiveRuns (d : Dev) : Bool :=
  d.duty 0 && !d.flag fltPg R.FLT_PFAIL_ASSERTED && (d.start.step == 0 || d.start.step == 0x0E)

/-- The staging is copied to the archive: the number of records, and the device. A failure leaves them staged. -/
def Dev.archive (d : Dev) (ok : Bool) : Nat × Dev :=
  let rs := d.flt.staging
  if !ok then (0, (d.cnt fltPg 16).raise fltPg 6)
  else
    let seq := d.flt.archiveSeq
    let new := (enum rs).map (fun e => ((seq + e.1) % 2 ^ 32, e.2))
    let all := d.flt.archive ++ new
    let d : Dev := { d with flt := { d.flt with
      staging := [], archive := all.drop (all.length - 65536), archiveSeq := (seq + rs.length) % 2 ^ 32 } }
    (rs.length, d.cnt fltPg 15 rs.length)

/-- ARCHIVE_COPY (R478): `ok` is how the flash write ended. -/
def execArchiveCopy (ok : Bool) (s : State) : Answer :=
  s.runMain (fun d => if d.archiveRuns && !d.flt.staging.isEmpty then (d.archive ok).2 else d)

/-- ARCHIVE_NOW (R478). With a flash failure R478 states no STATUS: it is a free value other than OK. DESIGN
CHOICE: assumption 28. -/
def execArchiveNow (mailbox : Fin 4) (ok : Bool) (s : State) : Answer :=
  s.runMain (fun d => d.mbServe mailbox 0x1002 (fun d _ =>
    let (n, d) := d.archive ok
    if ok then ([0, n], d)
    else
      let (k, d) := d.draw
      ([1 + Config.free k % 255, 0], d)))

/-- The 36 bytes of an archived record. -/
def archiveBytes (e : Nat × List Nat) : List Byte := leBytes 4 e.1 ++ e.2.flatMap (leBytes 4)

/-- EVENT_READ (R478): `reached` says that the host took the data. -/
def execEventRead (mailbox : Fin 4) (reached : Bool) (s : State) : Answer :=
  s.runMain (fun d => d.mbServe mailbox 0x1001 (fun d r =>
    let iova := r.wide 0
    let first := r.body.getD 3 0
    let out := (d.flt.archive.filter (fun e => decide ((e.1 + 2 ^ 32 - first) % 2 ^ 32 < 2 ^ 31))).take (r.body.getD 2 0 / 36)
    let next := match out.getLast? with
      | some e => (e.1 + 1) % 2 ^ 32
      | none => first
    if iovaBad iova then ([3, 0, first], d)
    else if !reached then ([7, 0, first], d)
    else ([0, out.length, next], d.when (!out.isEmpty) (fun d => d.emit (.hostWrite iova (out.flatMap archiveBytes))))))

end Sys2Proof.Machine
end

