-- ==== Sys2Proof/Machine/Pair.lean ====
section
/-! DEFINITION. The commands of the pair (19). -/

namespace Sys2Proof.Machine

/-- Words as numbers. -/
def nats (ws : List Word) : List Nat := ws.map (·.toNat)

/-- HELLO_TX (R496): a HELLO is due; an ON page sends it, so that a seeking peer finds a holder too. -/
def execHelloTx (s : State) : Answer :=
  s.runMain (fun d => if d.adjOn then d.adjSend 1 (d.helloWords d.adjState) else d)

/-- HELLO_RX (R488, R496). -/
def execHelloRx (words : List Word) (s : State) : Answer := s.runMain (fun d => d.helloRx (nats words))

/-- HEARTBEAT_TX (R489). -/
def execHeartbeatTx (s : State) : Answer :=
  s.runMain (fun d => if d.adjOn then d.adjSend 2 d.heartbeatWords else d)

/-- HEARTBEAT_RX (R489): a heartbeat with a good CRC; order credit may return with it (R490). -/
def execHeartbeatRx (words : List Word) (s : State) : Answer :=
  s.runMain (fun d => (d.heartbeatRx (nats words)).creditBack)

/-- HEARTBEAT_MISSED (R489). -/
def execHeartbeatMissed (s : State) : Answer :=
  s.runMain (fun d => (d.heartbeatMissed Dev.remoteLost).creditBack)

/-- ORDER_RX (R491): an ORDER frame of up to 32 orders of eight words. -/
def execOrderRx (seq : Word) (crcGood : Bool) (orders : List (List Word)) (s : State) : Answer :=
  s.runMain (fun d => d.adjRx 3 seq.toNat crcGood (fun d => d.ordersRx ((orders.take 32).map nats)))

/-- ORDER_APPLY (R492): the time of the next order has come. -/
def execOrderApply (s : State) : Answer := s.runMain Dev.orderApply

/-- CARBON_RX (R493): a CARBON frame of one record. -/
def execCarbonRx (seq : Word) (crcGood : Bool) (words : List Word) (s : State) : Answer :=
  s.runMain (fun d => d.adjRx 4 seq.toNat crcGood (fun d =>
    if d.adjState = 3 ∨ d.adjState = 4 then d.carbonTake (nats words) else d))

/-- ADJ_ACK_RX (R488). -/
def execAdjAckRx (type : Byte) (seq : Word) (s : State) : Answer :=
  s.runMain (fun d => d.ackRx type.toNat seq.toNat)

/-- ADJ_RETRANSMIT (R488): 4 µs have passed without the ACK of a frame. -/
def execAdjRetransmit (type : Byte) (seq : Word) (s : State) : Answer :=
  s.runMain (fun d => d.resend type.toNat seq.toNat)

/-- ADJ_TIME_RX (R492). -/
def execAdjTimeRx (words : List Word) (s : State) : Answer := s.runMain (fun d => d.timeRx (nats words))

/-- ADJ_TIME_TX (R492): every 125 µs on a holder whose peer copies or stands by. -/
def execAdjTimeTx (s : State) : Answer :=
  s.runMain (fun d => if d.issues && d.peerTakes then d.adjSend 8 d.timeFrame else d)

/-- ADJ_IRQ_RX (R488): a page interrupt of the peer. -/
def execAdjIrqRx (seq : Word) (crcGood : Bool) (type inst : BitVec 16) (stat : Word) (s : State) : Answer :=
  s.runMain (fun d => d.adjRx 9 seq.toNat crcGood (fun d => d.emit (.peerIrq type.toNat inst.toNat stat.toNat)))

/-- The space of a code (R377). -/
def spaceOf (c : Nat) : Space := if c = 0 then .bar0 else if c = 1 then .bar2 else .bar4

/-- REMOTE_REQ_RX (R377, R488): the access is made here with owner code 0x7. -/
def execRemoteReqRx (seq : Word) (crcGood : Bool) (words : List Word) (s : State) : Answer :=
  s.runMain (fun d => d.adjRx 6 seq.toNat crcGood (fun d =>
    let w (k : Nat) : Nat := (nats words).getD k 0
    d.access { who := .peer, target := .addr (spaceOf (bits (w 0) 9 8)) (w 2), write := bitAt (w 0) 0,
               size := if bitAt (w 0) 1 then 8 else 4, data := w 3 + 2 ^ 32 * w 4, tag := w 1 }))

/-- REMOTE_RESP_RX (R379). -/
def execRemoteRespRx (seq : Word) (crcGood : Bool) (words : List Word) (s : State) : Answer :=
  s.runMain (fun d => d.adjRx 7 seq.toNat crcGood (fun d => d.remoteResp (nats words)))

/-- LANE_DOWN (R487). -/
def execLaneDown (lane : Fin 2) (s : State) : Answer := s.runMain (fun d => d.laneDown lane)

/-- LANE_UP (R487). -/
def execLaneUp (lane : Fin 2) (s : State) : Answer := s.runMain (fun d => d.laneUp lane)

/-- CLAIM_ROUND (R494): KEEP and the number of the other unit where it claims too; the levels sampled on the
EVO pins, bit n for pin n. -/
def execClaimRound (other : Option (Bool × Fin 16)) (levels : BitVec 16) (s : State) : Answer :=
  s.runMain (fun d => d.claimRound other levels.toNat)

/-- JOIN_TIMEOUT (R496). -/
def execJoinTimeout (s : State) : Answer :=
  s.runMain (fun d => if d.adjOn && d.adjState == 1 then d.adjPut 2 else d)

/-- YIELD (R500): a write of ADJ_CMD with YIELD. -/
def execAdjYield (who : Owner) (s : State) : Answer :=
  s.run (fun d => d.gateW who adjPg 0x9C (2 ^ 31) (fun d => d.adjCmd (2 ^ 31)))

/-- ADJ_RESYNC (R499): a write of ADJ_CMD with RESYNC. -/
def execAdjResync (who : Owner) (s : State) : Answer :=
  s.run (fun d => d.gateW who adjPg 0x9C (2 ^ 30) (fun d => d.adjCmd (2 ^ 30)))

/-- DIGEST_ORDER_TX (R499): while the RESULT of a command is awaited the digest at the latest INDEX is not yet known, and
the order waits for the next millisecond. Assumption 8. -/
def execDigestOrderTx (s : State) : Answer :=
  s.runMain (fun d => if d.issues && d.adj.awaited.isEmpty then d.issue 5 0 0 0 d.adj.digest else d)

/-- CARBON_GEN_TX (R493). -/
def execCarbonGenTx (s : State) : Answer := s.runMain Dev.genTx

/-- PAIR_INFO (R504). -/
def execPairInfo (mailbox : Fin 4) (s : State) : Answer :=
  s.runMain (fun d => d.mbServe mailbox 0x0E01 (fun d _ =>
    let stat := d.word adjPg 0x88
    match d.adj.hello with
    | some h =>
      let st := if d.adj.peerLost then 0x0A else 0
      ([st, stat] ++ (h.drop 6).take 4 ++ [h.getD 10 0, bits (h.getD 1 0) 19 16], d)
    | none => ([0x0A, stat, 0, 0, 0, 0, 0, 0], d)))

end Sys2Proof.Machine
end

