-- ==== Sys2Proof/Machine/Schedule.lean ====
section
/-! DEFINITION. The meanings of the commands of scheduling and Franking (09). -/

namespace Sys2Proof.Machine

/-- The page of the scheduler of a port and the SCH domain are ready for what happens on their own. -/
def State.runSch (s : State) (n : Nat) (f : Dev → Dev) : Answer :=
  s.runMain (fun d => if d.isOn (schPg n) then f d else d)

/-- TOKEN_REFILL_TICK (R243, R247, R249, R252): table writes that wait apply, then every bucket and credit is
refilled; `bad` names the queues, by port and queue, whose credit shows an uncorrectable error. -/
def execTokenRefillTick (bad : List (Fin 43 × Fin 8)) (s : State) : Answer :=
  s.runMain (fun d =>
    let d := d.frkApplyAll
    let d := if d.isOn frkPg then d.policers.foldl Dev.policerTick d else d
    (List.range 43).foldl (fun d n =>
      d.schTick n ((bad.filter (fun b => b.1.val == n)).map (·.2.val))) d)

/-- FRER_RESET (R255): a recovery function has accepted no frame for RESET_MS. -/
def execFrerReset (index : Fin 1024) (s : State) : Answer :=
  s.runMain (fun d => if d.isOn frkPg then d.recovReset index else d)

/-- GATE_EVENT (R235): the entry of this time begins; `uncorr` is an uncorrectable error in it. -/
def execGateEvent (port : Fin 43) (uncorr : Bool) (s : State) : Answer :=
  s.runMain (fun d => d.gateEvent port uncorr)

/-- GCL_CHANGE (R236): a write of SCH_GCL_CMD with CHANGE. -/
def execGclChange (who : Owner) (port : Fin 43) (s : State) : Answer :=
  s.run (fun d => d.gateW who (schPg port) 0xC0 (2 ^ 31) (fun d => d.gclCmd who port (2 ^ 31)))

/-- GCL_CANCEL (R238): a write of SCH_GCL_CMD with CANCEL. -/
def execGclCancel (who : Owner) (port : Fin 43) (s : State) : Answer :=
  s.run (fun d => d.gateW who (schPg port) 0xC0 (2 ^ 30) (fun d => d.gclCmd who port (2 ^ 30)))

/-- GCL_COPY_DONE (R236): the copy into the pending slot completes. -/
def execGclCopyDone (port : Fin 40) (s : State) : Answer := s.runMain (fun d => d.gclCopied port)

/-- GCL_SWAP (R237): S is reached. -/
def execGclSwap (port : Fin 40) (s : State) : Answer :=
  s.runSch port (fun d => if d.flag (schPg port) R.SCH_GCL_STAT_EXTENDING then d else d.gclSwap port)

/-- GCL_EXTENSION_END (R237): the extended entry ends and the new list takes over. -/
def execGclExtensionEnd (port : Fin 40) (s : State) : Answer := s.runSch port (fun d => d.gclExtended port)

/-- GCL_ENTRY_WRITE (R245): a 64-bit write of SCH_GCL_ENTRY. -/
def execGclEntryWrite (who : Owner) (port : Fin 43) (value : BitVec 64) (s : State) : Answer :=
  let p := schPg port
  let a : Access := { who := who, target := .reg p 0xE0, write := true, size := 8, data := value.toNat }
  s.run (fun d => d.gate a p 0xE0 (fun d => d.gclWrite who port value.toNat true))

/-- HIST_DEPTH_SAMPLE (R259): the depths of the eight queues of a port are sampled. -/
def execHistDepthSample (port : Fin 43) (s : State) : Answer := s.runMain (fun d => d.depthSample port)

/-- FRK_TBL_READ (R248): a write of FRK_TBL_CMD with GO and OP read. -/
def execFrkTblRead (who : Owner) (s : State) : Answer :=
  s.run (fun d => d.gateW who frkPg 0x84 (2 ^ 31) (fun d => d.frkGo (2 ^ 31)))

/-- FRK_TBL_WRITE (R248): a write of FRK_TBL_CMD with GO and OP write. -/
def execFrkTblWrite (who : Owner) (s : State) : Answer :=
  s.run (fun d => d.gateW who frkPg 0x84 (2 ^ 31 + 1) (fun d => d.frkGo (2 ^ 31 + 1)))

/-- FRK_TBL_DONE (R248): the running table command completes. -/
def execFrkTblDone (s : State) : Answer := s.runMain Dev.frkDone

end Sys2Proof.Machine
end

