-- ==== Sys2Proof/Machine/Update.lean ====
section
/-! DEFINITION. The meanings of the commands of firmware and configuration update (20), and the ends of an
edition save and of a commit, which append to the configuration store (R154, R507). -/

namespace Sys2Proof.Machine

-- ==== transfer (R513, R514) ====

/-- UPD_BEGIN with its body: STATUS and the device. -/
def Dev.updBegin (d : Dev) (body : List Nat) : Nat × Dev :=
  let n := body.getD 0 0 % 2
  let len := body.getD 1 0
  if d.flag updPg (R.UPD_SLOT_STAT_ACTIVE.at n) || d.actPhase ≠ 0 then (0x0B, d)
  else if len < 8192 || slotSize < len || len % 4096 ≠ 0 then (3, d)
  else
    let d := (d.setFlag updPg (R.UPD_SLOT_STAT_CONFIRMED.at n) false).setFld updPg (R.UPD_SLOT_STAT_ROLLBACK.at n) 0
    let d := (d.setFld updPg (R.UPD_SLOT_VER_VERSION.at n) 0).setFld updPg (R.UPD_SLOT_LEN_LENGTH.at n) len
    (0, (d.withUpd (fun u => { u with known := u.known.filter (· != n), eraseFrom := d.now })).setSlot n 1 0)

/-- UPD_BEGIN (R514). -/
def execUpdBegin (mailbox : Fin 4) (s : State) : Answer :=
  s.runMain (fun d => d.mbServe mailbox 0x0F01 (fun d r =>
    let (st, d) := d.updBegin r.body
    ([st], d)))

/-- UPD_ERASE_DONE (R514): the sectors that cover LENGTH read 0xFF, and the slot is WRITING. -/
def execUpdEraseDone (slot : Fin 2) (s : State) : Answer :=
  s.runMain (fun d =>
    if d.slotState slot ≠ 1 || d.flashHeld d.upd.eraseFrom then d
    else
      let n := (d.fld updPg (R.UPD_SLOT_LEN_LENGTH.at slot) + 65535) / 65536 * 65536
      let d := d.withFlash (fun f => f.eraseAt (slotBase slot) n)
      (d.withUpd (fun u => { u with known := u.known ++ [slot.val] })).setSlot slot 2 0)

/-- A byte of a block differs from the flash where that is not 0xFF (R514). -/
def Dev.overlaps (d : Dev) (a : Nat) : List Byte → Bool
  | [] => false
  | b :: bs => (d.flash.mem.getD a 0xFF != 0xFF && d.flash.mem.getD a 0xFF != b) || d.overlaps (a + 1) bs

/-- UPD_BLOCK with its body (R514): `host` is what the read of the host answered, `ok` how programming ended.
After a failure of the flash the slot's bytes are no longer known. -/
def Dev.updBlock (d : Dev) (body : List Nat) (host : List Byte) (ok : Bool) : Nat × Dev :=
  let w (i : Nat) : Nat := body.getD i 0
  let n := w 0 % 2
  let inline := bitAt (w 0) 1
  let off := w 1
  let size := w 2 % 2 ^ 17
  let iova := w 4 + 2 ^ 32 * w 5
  let data := if inline then ((body.drop 4).flatMap (leBytes 4)).take size else host
  if off % 4 ≠ 0 || size % 4 ≠ 0 || size < 4 || (if inline then 232 else 65536) < size
      || d.fld updPg (R.UPD_SLOT_LEN_LENGTH.at n) < off + size || off / 65536 ≠ (off + size - 1) / 65536
      || (!inline && iovaBad iova) then (3, d)
  else if d.slotState n ≠ 2 then (0x0B, d)
  else if data.length ≠ size then (7, d)
  else if crc32c data ≠ w 3 then (0x0D, d)
  else if d.overlaps (slotBase n + off) data then (0x0C, d)
  else if !ok then (0x14, d.withUpd (fun u => { u with known := u.known.filter (· != n) }))
  else (0, ((d.withFlash (fun f => f.program (slotBase n + off) data)).cnt updPg 0).cnt updPg 1 size)

/-- UPD_BLOCK (R514). A host read that does not answer the block's bytes has failed. -/
def execUpdBlock (mailbox : Fin 4) (host : List Byte) (ok : Bool) (s : State) : Answer :=
  s.runMain (fun d => d.mbServe mailbox 0x0F02 (fun d r =>
    let (st, d) := d.updBlock r.body host ok
    ([st], d)))

/-- UPD_FINISH of a slot (R514): STATUS, REASON and the device; then whether it raises a SECURITY fault. -/
def Dev.updFinish (d : Dev) (n : Nat) : List Nat × Bool × Dev :=
  if d.slotState n ≠ 2 then ([0x0B], false, d)
  else
    let (img, d) := d.slotImage n
    let (r, d) := d.imageCheck n (d.fld updPg (R.UPD_SLOT_LEN_LENGTH.at n)) img
    let d := if r = 4 then d
      else (d.setFld updPg (R.UPD_SLOT_VER_VERSION.at n) (imgLe img 0x14)).setFld updPg (R.UPD_SLOT_STAT_ROLLBACK.at n)
        (imgLe img 0x18 % 64)
    let d := d.setSlot n (if r = 0 then 3 else 4) r
    ([if r = 0 then 0 else 0x0E, r], decide (1 ≤ r) && decide (r ≤ 3), d)

/-- UPD_FINISH (R514). -/
def execUpdFinish (mailbox : Fin 4) (s : State) : Answer :=
  s.runMain (fun d =>
    match d.mbRun mailbox 0x0F03 with
    | none => d
    | some r =>
      let (ws, bad, d) := d.updFinish (r.body.getD 0 0 % 2)
      (d.mbEnd r 0 ws).when bad (fun d => d.fault { cls := 9, page := updPg }))

/-- UPD_CANCEL of a slot (R514): with nothing to cancel the STATUS is SLOT_STATE (DEDUCED: assumption 29). -/
def Dev.updCancel (d : Dev) (n : Nat) : Nat × Dev :=
  let sched := d.actPhase == 4 && d.upd.slot == n
  let d' := d.when sched (fun d => (d.setFld updPg R.UPD_ACT_PHASE 0).setFld updPg R.UPD_ACT_RESULT 8)
  let st := d.slotState n
  if st = 1 || st = 2 then (0, (d'.withUpd (fun u => { u with known := u.known.filter (· != n) })).setSlot n 4 8)
  else if sched then (0, d') else (0x0B, d)

/-- UPD_CANCEL (R514). -/
def execUpdCancel (mailbox : Fin 4) (s : State) : Answer :=
  s.runMain (fun d => d.mbServe mailbox 0x0F06 (fun d r =>
    let (st, d) := d.updCancel (r.body.getD 0 0 % 2)
    ([st], d)))

-- ==== activation (R515 to R518) ====

/-- The STATUS of UPD_ACTIVATE for a slot, a MODE and a TIME (R515, R520). With a pair not RUNNING a hitless
activation gives BUSY (DEDUCED: assumption 29). -/
def Dev.actStatus (d : Dev) (n mode time : Nat) : Nat × Dev :=
  let now := d.time
  if d.slotState n ≠ 3 then (0x0B, d)
  else if d.actPhase ≠ 0 then (0x0F, d)
  else if mode = 3 || (d.flag bootPg R.BOOT_STATUS_HOLD && mode ≠ 1) then (3, d)
  else if mode = 0 then
    let (v, d) := d.flashRead (slotBase n + 0x32) 2
    if !(List.range 4).all (fun k => d.pairState k == 1) then (0x0F, d)
    else if d.stateFormat < v then (0x10, d) else (0, d)
  else if mode = 1 then (if d.adjState = 6 then 0x11 else 0, d)
  else if !d.feature 6 then (0x13, d)
  else if time < now + 100000000 || now + 604800000000000 < time then (0x12, d)
  else (0, d)

/-- An accepted activation begins (R515, R516): UPD_ACT, and for MODE RESET the reset. -/
def Dev.actBegin (d : Dev) (n mode time : Nat) : Dev :=
  let d := d.setWord updPg 0xA4 (mode * 2 ^ 26)
  let d := d.withUpd (fun u => { u with slot := n, byReset := false, failed := 0 })
  if mode = 0 then (d.withUpd (fun u => { u with todo := [3, 2, 1, 0] })).renewNext
  else if mode = 1 then d.activateReset n
  else (d.setWide updPg 0xA8 time).setFld updPg R.UPD_ACT_PHASE 4

/-- UPD_ACTIVATE (R515): the response is written before the activation begins. -/
def execUpdActivate (mailbox : Fin 4) (s : State) : Answer :=
  s.runMain (fun d =>
    match d.mbRun mailbox 0x0F04 with
    | none => d
    | some r =>
      let w0 := r.body.getD 0 0
      let (st, d) := d.actStatus (bits w0 4 4) (w0 % 4) (r.wide 1)
      (d.mbEnd r 0 [st]).when (st == 0) (fun d => d.actBegin (bits w0 4 4) (w0 % 4) (r.wide 1)))

/-- HITLESS_STEP_DONE (R516, R517): the step of the pair being renewed ends. -/
def execHitlessStepDone (how : HitlessEnd) (s : State) : Answer := s.runMain (fun d => d.hitlessStep how)

/-- SCHEDULED_ACTIVATION (R515): anchor 0 has reached TIME. It is available only while its feature is in force (R5):
where that has been withdrawn meanwhile the activation stays SCHEDULED. DESIGN CHOICE: assumption 131. -/
def execScheduledActivation (s : State) : Answer :=
  s.runMain (fun d =>
    if d.actPhase = 4 && d.feature 6 && decide (d.wide updPg 0xA8 ≤ d.time) then d.activateReset d.upd.slot else d)

/-- UPD_CONFIRM of a slot (R518). Only a VALID other slot holds an image whose ROLLBACK counts (DEDUCED:
assumption 29). -/
def Dev.updConfirm (d : Dev) (n : Nat) : Nat × Dev :=
  let m := 1 - n
  if !d.flag updPg (R.UPD_SLOT_STAT_ACTIVE.at n) || d.actPhase ≠ 0
      || !(d.fld updPg R.UPD_ACT_DONE_MASK == 0xF || d.upd.byReset) then (0x0B, d)
  else
    let count := max (d.fld updPg R.UPD_ROLLBACK_COUNT) (d.fld updPg (R.UPD_SLOT_STAT_ROLLBACK.at n))
    let d := d.setFld updPg R.UPD_ROLLBACK_COUNT count
    let d := (d.setFlag updPg (R.UPD_SLOT_STAT_CONFIRMED.at n) true).setFlag updPg (R.UPD_SLOT_STAT_CONFIRMED.at m) false
    (0, d.when (d.slotState m == 3 && decide (d.fld updPg (R.UPD_SLOT_STAT_ROLLBACK.at m) < count)) (fun d => d.setSlot m 4 7))

/-- UPD_CONFIRM (R518). -/
def execUpdConfirm (mailbox : Fin 4) (s : State) : Answer :=
  s.runMain (fun d => d.mbServe mailbox 0x0F05 (fun d r =>
    let (st, d) := d.updConfirm (r.body.getD 0 0 % 2)
    ([st], d)))

-- ==== the configuration store (R507 to R509) ====

/-- A register word whose RW fields committed configuration keeps (R509): not of the common header's PAGE_CTRL, nor
a word with a command bit, the EN of a DMA queue, a mailbox, a Wax context or a key command. DEDUCED: assumption 30. -/
def savedReg (p : Page) (off : Nat) (r : RegDef) : Bool :=
  r.rw != 0 && r.wo == 0 && r.w1s == 0 && off != 0x08 && p.kind != .lbx && p.kind != .wax
    && !(p.kind == .dma && decide (0x1000 ≤ off) && off % 0x40 == 0)
    && !(p.kind == .key && decide (0xC0 ≤ off))

/-- The RW fields in force, by key. -/
def Dev.savedWords (d : Dev) : NMap Word :=
  d.regs.filterMap (fun e =>
    let p := Page.ofIdx (e.1 / pageSpan)
    match p.reg (e.1 % pageSpan) with
    | some r => if savedReg p (e.1 % pageSpan) r then some (e.1, e.2 &&& BitVec.ofNat 32 r.rw) else none
    | none => none)

/-- The record of CONFIG_SAVE (R509) with the identity words of its request. -/
def Dev.cfgRecord (d : Dev) (body : List Nat) : CfgRec :=
  let w (i : Nat) : Nat := body.getD i 0
  { features := ((List.range 4).map (fun k => d.fld sysPg (R.SYS_DRV_FEATURES_DRV.at k) * 2 ^ (32 * k))).sum
    ens := allPages.map (fun p => (p.idx, d.fld p R.PAGE_CTRL_EN))
    words := d.savedWords
    chain := w 0 % 16
    mac := (w 1 + 2 ^ 32 * w 2) % 2 ^ 48
    subsystem := w 3 }

/-- CONFIG_SAVE (R509): the record takes `pages` pages of each copy; `ok` is how the flash write ended. -/
def execConfigSave (mailbox : Fin 4) (pages : Nat) (ok : Bool) (s : State) : Answer :=
  s.runMain (fun d => d.mbServe mailbox 0x0F10 (fun d r =>
    if allPages.any (fun p => d.flag p R.PAGE_LOCK_HELD || d.flag p R.PAGE_STAT_TORN) then ([5], d)
    else if !ok || !d.cfgFits pages then ([0x14], d)
    else
      let d := allPages.foldl (fun d p => d.incWrap p R.PAGE_LOCK_GRANT_SEQ) d
      ([0], (d.withCfg (fun c => c.put (fun x => { x with conf := some (d.cfgRecord r.body) }))).cfgAppend pages)))

/-- COMPACTION_DONE (R508): the copy being compacted is done, with `pages` pages of full records. -/
def execCompactionDone (pages : Nat) (s : State) : Answer := s.runMain (fun d => d.compacted pages)

/-- EDITION_SAVE_DONE (R154, R508): the save of a record of `pages` pages ends; `ok` is how the flash write
ended, and a record that fits in no copy that must take it fails as well. -/
def execEditionSaveDone (pages : Nat) (ok : Bool) (s : State) : Answer :=
  s.runMain (fun d =>
    if !d.bur.committing || d.bur.paused || d.flashHeld d.bur.saveAt then d
    else
      let good := ok && d.cfgFits pages
      ((d.when good (fun d => d.cfgAppend pages)).edSaved good).goneDone)

/-- EDITION_RESUME (R154): held headers go on under the new edition, and the commit is done. -/
def execEditionResume (s : State) : Answer :=
  s.runMain (fun d => if d.bur.paused && d.bur.flipped then (d.edResume.goneDone).edgeResume else d)

end Sys2Proof.Machine
end

