-- ==== Sys2Proof/Machine/Start.lean ====
section
/-! DEFINITION. The start sequence (R67 to R84), the end of entry to Doze and Slumber and of the exit from them (R325,
R326), and the loss and return of supplies (R482). -/

namespace Sys2Proof.Machine

/-- Change the state of the start sequence. -/
def Dev.withStart (d : Dev) (f : Start → Start) : Dev := { d with start := f d.start }

-- ==== the docket (R79, R80) ====

/-- Number of variants of a step (R73). -/
def stepVariants (step : Nat) : Nat :=
  if step = 2 || step = 5 then 2 else if step = 4 || step = 6 || step = 9 then 3 else if step = 0xB then 4 else 1

/-- The step is optional (R73). -/
def stepOptional (step : Nat) : Bool := step == 0xA || step == 0xB || step == 0xC || step == 0xD

/-- The entry of the running step is written whole, then STEP_COUNT advances (R80). `tried`: a variant was tried. -/
def Dev.stepWrite (d : Dev) (result detail : Nat) (tried : Bool := true) : Dev :=
  let st := d.start.step
  let v := min d.start.variant (stepVariants st - 1)
  let a := d.start.attempts.getD st 0
  let tries := if tried then max 1 a else a - 1
  let d := d.withStart (fun s => { s with attempts := s.attempts.set st tries })
  let d := (d.docket st result v tries detail).setWord bootPg (0x108 + 0x10 * st) ((d.now - d.start.began) / usTicks)
  d.setFld bootPg R.BOOT_STATUS_STEP_COUNT (d.fld bootPg R.BOOT_STATUS_STEP_COUNT + 1)

/-- The docket is written to flash (R80): to the older of the two sectors, which is then the newer. -/
def Dev.docketFlash (d : Dev) : Dev :=
  let keep : Docket := { number := d.start.number, entries := d.docketNow, firstVariant := d.start.firstVariant,
                         attempts := d.start.attempts }
  (d.withStart (fun s => { s with flash := keep, flashOld := s.flash, flashAt := some d.now })).setFlag bootPg R.BOOT_STATUS_FLASH_COPY_OK true

/-- Power fails at the time of a flash write of the docket: the sector may be torn, and the older one remains then
(R80). Whether it is torn is drawn. DESIGN CHOICE: assumption 41. -/
def Dev.docketTorn (d : Dev) : Dev :=
  if d.start.flashAt ≠ some d.now then d
  else
    let (n, d) := d.draw
    if Config.free n % 2 = 0 then d else d.withStart (fun s => { s with flash := s.flashOld, flashAt := none })

/-- The running step is over; a later start begins it at variant `v` (R75). -/
def Dev.stepFrom (d : Dev) (v : Nat) : Dev :=
  d.withStart (fun s => { s with firstVariant := if v = 0 then s.firstVariant.erase s.step else s.firstVariant.set s.step v })

-- ==== the chain address (R82, R83) ====

/-- The address is taken: SYS_CHAIN is rewritten, and the claim number follows it unless configuration sets another
(R84). -/
def Dev.chainTake (d : Dev) (addr received : Nat) (forced ovf : Bool) : Dev :=
  let d := d.setWord sysPg 0x300
    (b2n (addr != 0) * 2 ^ 31 + b2n forced * 2 ^ 30 + b2n ovf * 2 ^ 27 + received * 2 ^ 16 + addr)
  let d := d.when (d.fld adjPg R.ADJ_CFG_NUMBER == 0) (fun d => d.setFld adjPg R.ADJ_CFG_NUMBER addr)
  d.withStart (fun s => { s with chained := true })

/-- The configuration step 0x09 loaded, none under variant 2. -/
def Dev.loaded (d : Dev) : Option CfgRec :=
  let v := bits (d.word bootPg 0x190) 19 16
  if d.stepGood 9 && v != 2 then (d.cfg.replayed v).conf else none

/-- The address committed configuration fixes, 0 for none; none under variant 2 of step 0x09. -/
def Dev.chainForced (d : Dev) : Nat :=
  (d.loaded.map (·.chain)).getD 0

/-- Step 0x0A takes the address if it can (R82): a fixed one, 1 at the head, or the count of the latest train
plus 1. -/
def Dev.chainTry (d : Dev) : Dev :=
  let got := d.start.train.getD 0
  if d.start.chained then d
  else if d.chainForced ≠ 0 then d.chainTake d.chainForced got true false
  else if d.start.head then d.chainTake 1 0 false false
  else match d.start.train with
    | none => d
    | some n => if n = 15 then d.chainTake 0 15 false true else d.chainTake (n + 1) n false false

/-- LATE or MISMATCH is set, and CHAIN_EVENT raised (R83). -/
def Dev.chainEvent (d : Dev) (f : Fld) : Dev := (d.setFlag sysPg f true).raise sysPg 1

/-- A complete train of `n` pulses (R81 to R83). -/
def Dev.chainTrain (d : Dev) (n : Nat) : Dev :=
  let first := d.start.firstTrain
  let d := d.withStart (fun s => { s with train := some n, firstTrain := some (first.getD n) })
  if !d.start.chained then (if d.start.step = 0xA then d.chainTry else d)
  else
    let d := d.setFld sysPg R.SYS_CHAIN_RECEIVED n
    let d := d.when (d.fld sysPg R.SYS_CHAIN_ADDR == 0) (fun d => d.chainEvent R.SYS_CHAIN_LATE)
    d.when (first.getD n != n) (fun d => d.chainEvent R.SYS_CHAIN_MISMATCH)

-- ==== pages that the boot sequence enables (R48, R71, R76) ====

/-- A page is turned ON by the boot loader. -/
def Dev.bootOn (d : Dev) (p : Page) : Dev := if d.state p = 0 then (d.turnOn p 8).startDone p else d

/-- A page goes OFF as the start ends in Hold (R76): from ON its stop begins, and a transition in progress
completes first (R47): OFF is pending in STARTING, and no request is in STOPPING. -/
def Dev.bootOff (d : Dev) (p : Page) : Dev :=
  let st := d.state p
  if st = 2 then (d.turnOff p).stopDone p
  else if st = 1 then (d.setFld p R.PAGE_STAT_PENDING 2).setFld p R.PAGE_CTRL_EN 2
  else if st = 3 then (d.setFld p R.PAGE_STAT_PENDING 0).setFld p R.PAGE_CTRL_EN 2
  else d

/-- The pages that are ON after every start (R71). -/
def alwaysOn : List Page :=
  [pg .pmk, pg .trc, pg .sys, pg .boot, pg .pwr, pg .flt, pg .key, pg .wax, pg .hbr, pg .dst, pg .mmu, pg .ccl, pg .upd, pg .lbx]

/-- The pages that serve in Hold (R76). -/
def heldPages : List Page := [pg .hbr, pg .trc, pg .sys, pg .boot, pg .upd, pg .lbx]

/-- Committed configuration records the page as ON. -/
def Dev.configured (d : Dev) (p : Page) : Bool :=
  match d.loaded with
  | some r => r.ens.getD p.idx 2 == 1
  | none => false

/-- The working clocks that pages of a list name run again from their source (R287): their users re-enable them. -/
def Dev.wcResume (d : Dev) (ps : List Page) : Dev :=
  [2, 3, 4, 5, 6, 7].foldl (fun d c =>
    if !d.wcOn c && ps.any (fun p => (d.claimsOf p).any (fun x => x.1 == 0x30 + c && x.2.2 == 7)) then
      d.wcWrite c (d.word pmkPg (0x200 + 0x20 * (c - 2)) % 2 ^ 31 + 2 ^ 31)
    else d) d

-- ==== Hold (R70, R76) ====

/-- At step 0x09 the boot loader stages the configuration of the copy that the variant replays, under its lock
(R72). -/
def Dev.cfgStage (d : Dev) : Dev :=
  let conf := if d.start.variant = 2 then none else (d.cfg.replayed d.start.variant).conf
  match conf with
  | some c => c.words.foldl (fun d e =>
      let p := Page.ofIdx (e.1 / pageSpan)
      let off := e.1 % pageSpan
      match p.reg off with
      | some r => if r.staged &&& r.rw = 0 then d
                  else (d.lockTake .boot p).stage p off (r.staged &&& r.rw) e.2.toNat
      | none => d) d
  | none => d

/-- The boot loader's locks are released, its staged writes discarded. -/
def Dev.bootUnlock (d : Dev) : Dev := (d.lockedBy 8).foldl (fun d p => d.lockDrop .boot p) d

/-- A step begins: at step 0x09 the boot loader stages the configuration, at step 0x0A the address is taken if it can
be. -/
def Dev.stepBegin (d : Dev) (step : Nat) : Dev :=
  let d := d.beginStep step (d.firstVariantOf step)
  if step = 9 then d.cfgStage
  else if step = 0xA then d.chainTry
  else d

/-- The start ends in Hold at the running step (R76): the forwarding pages are OFF, the docket goes to flash once the
flash link is up, and step 0x0B runs where it has not. -/
def Dev.enterHold (d : Dev) (detail : Nat) (tried : Bool := true) : Dev :=
  let st := d.start.step
  let d := (d.stepWrite 6 detail tried).stepFrom 0
  let d := (d.setFlag bootPg R.BOOT_STATUS_HOLD true).setFld bootPg R.BOOT_STATUS_HOLD_STEP st
  let d := d.withStart (fun s => { s with spiUp := true, step := 0 })
  let d := d.when (decide (4 < st)) Dev.docketFlash
  let d := (allPages.filter (fun p => p.kind != .npt && !heldPages.contains p && !staysOn p)).foldl Dev.bootOff d
  let d := heldPages.foldl Dev.bootOn d
  if d.start.barsDecoded then d else d.stepBegin 0xB

-- ==== what the steps do ====

/-- Step 0x03 (R77, R438): DETAIL, and the bank to use or to fill. -/
def Dev.rootFind (d : Dev) : Nat × Option Nat :=
  let k := d.keys
  if k.debug then (0x10, none)
  else if k.bankA = 2 && !k.revA then (1, some 0)
  else if k.bankB = 2 && !k.revB then (1, some 1)
  else if k.bankA = 0 then (2, some 0)
  else if k.bankB = 0 then (if k.revA then 4 else 3, some 1)
  else (0xE0, none)

/-- A root of 32 octets is drawn into a bank, verified and committed; a bank that fails is written or not. -/
def Dev.rootMake (d : Dev) (bank : Nat) (good : Bool) : Dev :=
  let root := (List.range 32).map (fun i => Config.free (d.drawn + i) % 256)
  let d : Dev := { d with drawn := d.drawn + 32 }
  let (n, d) := d.draw
  let st := if good then 2 else Config.free n % 2
  d.withKeys (fun k =>
    if bank = 0 then { k with bankA := st, rootA := root } else { k with bankB := st, rootB := root })

/-- Power fails while step 0x03 fills a bank: the bank may have been written and counts as spent then (R77). -/
def Dev.rootTorn (d : Dev) : Dev :=
  match d.rootFind with
  | (1, _) => d
  | (_, some b) => if d.start.step = 3 then d.rootMake b false else d
  | _ => d

/-- Step 0x05 (R73, R510): the slot last activated, or the other one, holds a valid image. -/
def Dev.imageGood (d : Dev) : Bool × Dev :=
  let n := if d.start.variant = 0 then d.activeSlot else 1 - d.activeSlot
  if d.slotState n ≠ 3 then (false, d)
  else
    let (r, d) := d.slotCheck n
    if r = 0 then (true, d.imageRuns n) else (false, d)

/-- Step 0x06: the deep store runs at the rate of the variant (R402). -/
def Dev.storeUp (d : Dev) : Dev :=
  let v := d.start.variant
  (d.setFld dstPg R.DST_CFG_VARIANT v).setFld dstPg R.DST_CFG_MTS (if v = 0 then 8533 else if v = 1 then 6400 else 4266)

/-- Step 0x08 (R426): a pair that failed its start-up test is FAILED and covered by its partner. -/
def Dev.pairsUp (d : Dev) (bad2 bad3 : Bool) : Dev :=
  [0, 1, 2, 3].foldl (fun d n =>
    let bad := (n == 2 && bad2) || (n == 3 && bad3)
    let d := (d.setPairState n (if bad then 5 else 1)).setFld cclPg (R.CCL_PAIR_STAT_ROLE.at n) (pairRole n)
    d.when bad (fun d => d.setFlag cclPg (R.CCL_PAIR_STAT_COVER.at (partner n)) true)) d

/-- The RW fields of a word under key `k` take the committed value. -/
def Dev.wordBack (d : Dev) (k : Nat) (w : Word) : Dev :=
  match (Page.ofIdx (k / pageSpan)).reg (k % pageSpan) with
  | some r =>
    let m : Word := BitVec.ofNat 32 r.rw
    let old := (d.regs.get? k).getD (resetWord k)
    { d with regs := d.regs.set k ((old &&& ~~~m) ||| (w &&& m)) }
  | none => d

/-- The registers of committed configuration (R509): every saved field takes its recorded value, those of the
always-on pages that the record does not list their reset value. -/
def Dev.wordsBack (d : Dev) (ws : NMap Word) : Dev :=
  let ao := (d.regs.map (·.1)).filter (fun k =>
    let p := Page.ofIdx (k / pageSpan)
    aoPages.contains p && match p.reg (k % pageSpan) with
      | some r => savedReg p (k % pageSpan) r
      | none => false)
  let d := ao.foldl (fun d k => d.wordBack k (resetWord k)) d
  ws.foldl (fun d e => d.wordBack e.1 e.2) d

/-- The Night Post serves after a VSTBY power-on (R342): each LAST is the stored copy plus SKIP. -/
def Dev.npServe (d : Dev) : Dev :=
  if d.npt.serving then d
  else
    let skip := d.fld nptPg R.NPT_CNT_SKIP_SKIP
    let d := (List.range 4).foldl (fun d n =>
      d.setFld nptPg (R.NPT_CNT_LAST_LAST.at n) ((d.npt.lastCopy.getD n 0 + skip) % 2 ^ 32)) d
    let d := d.withNpt (fun x => { x with serving := true })
    d.when (d.configured nptPg) (fun d => d.bootOn nptPg)

/-- The Night Post counters are copied to the configuration store (R326). -/
def Dev.npCopy (d : Dev) : Dev :=
  let last := (List.range 4).map (fun n => (n, d.fld nptPg (R.NPT_CNT_LAST_LAST.at n)))
  d.withNpt (fun x => { x with lastCopy := last })

/-- PERSIST slots return from the key record (R439, R443). -/
def Dev.keysBack (d : Dev) : Dev :=
  let rec_ : NMap KeyCopy := if d.keys.readRecord && !d.keys.debug then d.keys.record.getD [] else []
  let d := rec_.foldl (fun d e => d.slotPut e.1 e.2.attr 0 e.2.mat) d
  d.withKeys (fun k => { k with readRecord := false, messages := [] })

/-- The pages that every start enables, and those that committed configuration records as ON but for ports, edge
controllers, the Night Post and the pair (R48, R71). -/
def Dev.pagesUp (d : Dev) : Dev :=
  let rest := allPages.filter (fun p => d.configured p && p.kind != .npt && p.kind != .prt && p.kind != .can
    && p.kind != .lin && p.kind != .adj)
  let d := (alwaysOn.foldl Dev.bootOn d).wcResume (allPages.filter d.configured)
  rest.foldl Dev.bootOn d

/-- Step 0x09 has loaded committed configuration, or none at variant 2 (R66, R71, R84, R155, R358 to R360). The entry
of the step is written already. -/
def Dev.cfgLoad (d : Dev) (linear : Bool) : Dev :=
  let d := d.bootUnlock
  let c := d.loaded
  let f := (c.map (·.features)).getD 1
  let d := match c with
    | some r => d.wordsBack r.words
    | none => d
  let d := ({ d with features := f } : Dev).showFeatures f
  let d := (d.setFlag sysPg R.SYS_FEATURES_OK_OK true).edLoadStart (bits (d.word bootPg 0x190) 19 16)
  let mac := (c.map (·.mac)).getD 0
  let d := d.withStart (fun s => { s with cfgLoaded := true
                                          macBlock := if mac = 0 then none else some mac
                                          subsystem := (c.map (·.subsystem)).getD 0 })
  let d := d.setFld pwrPg R.PWR_OP_TRIM_TRIM d.start.trimStored
  let d := d.setVid (d.vidCode 0)
  let d := d.when (d.flag pwrPg R.PWR_VCTRL_PMBUS_EN && !linear) (fun d =>
    (d.setFlag pwrPg R.PWR_VCTRL_PMBUS_EN false).raise pwrPg 2)
  d.keysBack.npServe.pagesUp

/-- Step 0x0C: ports and edge controllers are enabled as configured; a failed port stays OFF. -/
def Dev.portsUp (d : Dev) (failed : Nat) : Dev :=
  let ps := allPages.filter (fun p => d.configured p &&
    (p.kind == .can || p.kind == .lin || (p.kind == .prt && !bitAt failed p.inst)))
  ps.foldl Dev.bootOn d

/-- The end of step 0x0E (R69, R71, R78, R80, R326, R331, R478): the boot loader hands off. -/
def Dev.bootEnd (d : Dev) : Dev :=
  let d := (d.setWord bootPg 0x88 d.startUs).withStart (fun s => { s with step := 0, top := false })
  let d := ((d.lockedBy 8).foldl Dev.applyStaged d).ownerEvent 8
  let d := d.docketFlash.pagesUp
  let d : Dev := { d with flt := { d.flt with staging := d.flt.retained ++ d.flt.staging, retained := [] } }
  d.npCopy.awakeLoad

-- ==== the end of a step (R73 to R75) ====

/-- The step after the running one begins; in Hold none does. -/
def Dev.stepNext (d : Dev) : Dev :=
  let st := d.start.step
  if d.flag bootPg R.BOOT_STATUS_HOLD then d.withStart (fun s => { s with step := 0 })
  else if st = 0xE then d.bootEnd
  else d.stepBegin (st + 1)

/-- The running step succeeds at its variant (R75): `f` is what the step leaves. -/
def Dev.stepOk (d : Dev) (detail : Nat) (f : Dev → Dev := id) : Dev :=
  let v := d.start.variant
  let d := (d.stepWrite (if v = 0 then 1 else 2) detail).stepFrom v
  let d := d.withStart (fun s => { s with attempts := s.attempts.erase s.step })
  (f d).stepNext

/-- The running step is skipped. -/
def Dev.stepSkip (d : Dev) (detail : Nat) (tried : Bool) : Dev := ((d.stepWrite 5 detail tried).stepFrom 0).stepNext

/-- The running step has no variant left (R73): skipped, or Hold. `tried`: one was tried in this start. -/
def Dev.stepSpent (d : Dev) (detail : Nat) (tried : Bool) : Dev :=
  if stepOptional d.start.step then
    let d := d.when (d.start.step == 0xB) (fun d => d.withStart (fun s => { s with barsDecoded := true }))
    d.stepSkip detail tried
  else d.enterHold detail tried

/-- The running step fails at its variant (R74): the next variant is tried in the same start. -/
def Dev.stepFail (d : Dev) (detail : Nat) : Dev :=
  let st := d.start.step
  let v := d.start.variant + 1
  if stepVariants st ≤ v then d.stepSpent detail true
  else
    let tries := min (d.start.attempts.getD st 0 + 1) 0xFF
    let d := d.withStart (fun s => { s with variant := v, attempts := s.attempts.set st tries })
    (d.when (st == 9) (fun d => d.bootUnlock.cfgStage)).docket st 3 v tries detail

/-- A slot found in ERASING or WRITING is INVALID (R511). -/
def Dev.slotsSettle (d : Dev) : Dev :=
  [0, 1].foldl (fun d n => if d.slotState n = 1 || d.slotState n = 2 then d.setSlot n 4 9 else d) d

/-- Step 0x03 ends (R77). -/
def Dev.rootEnd (d : Dev) (good : Bool) : Dev :=
  match d.rootFind with
  | (0x10, _) => d.stepSkip 0x10 false
  | (t, some b) =>
    let d := d.when (t != 1) (fun d => d.rootMake b good)
    if good then d.stepOk t (fun d => d.withKeys (fun k => { k with bank := some b })) else d.stepFail t
  | (t, none) => d.enterHold t

/-- Step 0x0D ends (R84, R484, R486, R503): a unit at address 0 refuses the join. A page that committed configuration
does not record as ON stays OFF (R71), and the step is skipped with DETAIL 0x02. DESIGN CHOICE: assumption 44. -/
def Dev.joinEnd (d : Dev) (good : Bool) : Dev :=
  if !d.feature 4 then d.stepSkip 1 false
  else if d.addr = 0 || !d.configured adjPg || d.enBarred adjPg || (d.claimClash adjPg).isSome then d.stepSkip 2 false
  else if good then d.stepOk 0 (fun d => d.bootOn adjPg)
  else d.stepFail 0

/-- The running step ends as `e` says. -/
def Dev.stepEnd (d : Dev) (e : StepEnd) : Dev :=
  let st := d.start.step
  let v := d.start.variant
  let ends (f : Dev → Dev) : Dev := if e.good then d.stepOk 0 f else d.stepFail 0
  if stepVariants st ≤ v then d.stepSpent 0 false
  else if st = 3 then d.rootEnd e.good
  else if st = 4 then
    if e.good && flashFit then
      d.stepOk 0 (fun d => [trcPg, sysPg, bootPg].foldl Dev.bootOn (Dev.slotsSettle (d.withStart (fun s => { s with spiUp := true }))))
    else d.stepFail 0
  else if st = 5 then
    let (ok, d) := d.imageGood
    if ok && e.good then d.stepOk 0 else d.stepFail 0
  else if st = 6 then ends Dev.storeUp
  else if st = 8 then
    let detail := b2n e.bad2 + 2 * b2n e.bad3
    if detail = 3 || !e.good then d.stepFail detail else d.stepOk detail (fun d => d.pairsUp e.bad2 e.bad3)
  else if st = 9 then
    if e.good || v = 2 then d.stepOk 0 (fun d => d.cfgLoad e.linear) else d.stepFail 0
  else if st = 0xA then (if d.start.chained then d.stepOk 0 else d)
  else if st = 0xB then ends (fun d => d.withStart (fun s => { s with barsDecoded := true }))
  else if st = 0xC then ends (fun d => d.portsUp e.ports.toNat)
  else if st = 0xD then d.joinEnd e.good
  else ends id

/-- START_STEP_DONE (R73, R74): the running step ends at its variant. -/
def execStartStepDone (e : StepEnd) (s : State) : Answer :=
  s.run (fun d => if d.start.step = 0 || !d.start.released then d else d.stepEnd e)

/-- START_STEP_TIMEOUT (R74): the next start begins the step at its next variant. -/
def execStartStepTimeout (s : State) : Answer :=
  s.run (fun d =>
    if d.start.step = 0 || !d.start.released then d
    else ((d.stepWrite 4 0).stepFrom (d.start.variant + 1)).deviceReset R.SYS_RESET_CAUSE_STEP_WDOG)

/-- BOOT_LOADER_FAULT (R55, R72): its locks are lost and the start ends in Hold, whether or not it had writes staged;
R72 speaks of a fault with writes staged alone. DESIGN CHOICE: assumption 133. -/
def execBootLoaderFault (s : State) : Answer :=
  s.run (fun d =>
    if d.start.step = 0 || !d.start.released || d.flag bootPg R.BOOT_STATUS_HOLD then d
    else (d.ownerEvent 8).enterHold 0)

/-- CHAIN_TRAIN_RX (R81 to R83): CHAIN_IN held low from t0 makes the unit the head; a train is counted; a chain error
discards its train. -/
def execChainTrainRx (what : ChainIn) (s : State) : Answer :=
  s.run (fun d =>
    if !d.start.released then d
    else match what with
      | .low =>
        if d.start.chained then d
        else
          let d := d.withStart (fun x => { x with head := true })
          if d.start.step = 0xA then d.chainTry else d
      | .train n => if n.val = 0 then d else d.chainTrain n
      | .error => d)

/-- CHAIN_TRAIN_TX (R81): `ADDR` pulses leave on CHAIN_OUT, which is pin 0x23 with the number of pulses. -/
def execChainTrainTx (s : State) : Answer :=
  s.run (fun d =>
    if d.start.released && d.start.chained && d.addr != 0 then d.emit (.pin 0x23 d.addr) else d)

/-- CHAIN_WAIT_TIMEOUT (R82): no train by 100 ms from t0; the unit takes address 0 and the step is skipped (R73). -/
def execChainWaitTimeout (s : State) : Answer :=
  s.run (fun d =>
    if d.start.step = 0xA && !d.start.chained && d.start.released then
      (d.chainTake 0 0 false false).stepSkip 0 true
    else d)

-- ==== reset and supplies (R67, R482) ====

/-- The level of DBG_EN (R541). -/
def Dev.dbg (d : Dev) (level : Bool) : Dev := d.withKeys (fun k => { k with dbgPin := level })

/-- RESET_PIN (R67, R347): RESET_N is low for `ns`; a pulse from 100 ns to 1 µs may or may not reset. `dbg` is the level
of DBG_EN at its release. In Off it enables the supplies, and the start follows their power-on. -/
def execResetPin (ns : Nat) (dbg : Bool) (s : State) : Answer :=
  s.run (fun d =>
    let d := d.dbg dbg
    if ns < 100 then d
    else
      let (n, d) := if ns < 1000 then d.draw else (0, d)
      if ns < 1000 && Config.free n % 2 = 0 then d
      else if !d.start.released && !d.mainOff then d
      else d.deviceReset R.SYS_RESET_CAUSE_PIN)

/-- MAIN_POWER_ON (R67, R364): the main supplies are good; device reset. -/
def execMainPowerOn (dbg : Bool) (s : State) : Answer :=
  s.run (fun d =>
    let lost := d.start.released
    let d := d.dbg dbg
    Dev.deviceReset { d with supply := { enabled := 0xF, wait := none } } R.SYS_RESET_CAUSE_MAIN_POR lost)

/-- MAIN_SUPPLY_LOSS (R482): the main-domain state is lost; the always-on outputs reach their levels (R526). -/
def execMainSupplyLoss (s : State) : Answer :=
  s.run (fun d =>
    if !d.start.released then d
    else
      let d := d.rootTorn.docketTorn.pinsDown.mainClear true
      d.withStart (fun x => { x with released := false, step := 0, spiUp := false, barsDecoded := false, cfgLoaded := false,
                                     chained := false, train := none, firstTrain := none, head := false }))

/-- Every supply is lost (R482): what flash and the fuses hold is left. The mark of a pending record goes with the
always-on island, so that its edition counts as saved (R507). -/
def Dev.standbyLost (d : Dev) : Dev :=
  let d := d.rootTorn.docketTorn
  let d := match d.cfg.pending with
    | some (t, n) => d.withCfg (fun c => c.edition t n)
    | none => d
  let k := d.keys
  { now := d.now
    regs := d.regs.filter (fun e => e.1 / pageSpan == (pg .upd).idx && decide (0x80 ≤ e.1 % pageSpan) && decide (e.1 % pageSpan ≤ 0xA0))
    out := d.out
    refusals := d.refusals
    drawn := d.drawn
    start := { step := 0, released := false, flash := d.start.flash, flashOld := d.start.flashOld, number := d.start.flash.number,
               firstVariant := d.start.flash.firstVariant, attempts := d.start.flash.attempts, trimStored := d.start.trimStored }
    flt := { archive := d.flt.archive, archiveSeq := d.flt.archiveSeq }
    keys := { bankA := k.bankA, bankB := k.bankB, rootA := k.rootA, rootB := k.rootB, revA := k.revA, revB := k.revB,
              tamperFuses := k.tamperFuses, dbgPin := k.dbgPin, debug := k.debug, record := k.record }
    flash := { mem := d.flash.mem, spoiled := d.flash.spoiled }
    cfg := { d.cfg with meanwhile := 0 }
    upd := { known := d.upd.known, slot := d.upd.slot, stateFormat := d.upd.stateFormat, byReset := d.upd.byReset }
    npt := { lastCopy := d.npt.lastCopy }
    supply := { enabled := 0 } }

/-- VSTBY_LOSS (R482, R526): every AO pin is high-impedance. -/
def execVstbyLoss (s : State) : Answer := s.run Dev.standbyLost

/-- VSTBY_POWER_ON (R67, R68, R364): the always-on island is reset, SYS_RESET_CAUSE reads STBY_POR alone, and the main
supplies are enabled; the start follows their power-on. -/
def execVstbyPowerOn (dbg : Bool) (s : State) : Answer :=
  s.run (fun d => (d.standbyLost.dbg dbg).supplyFrom 3)

-- ==== the end of entry and of exit (R325, R326) ====

/-- The pins of a CAN pass to the Night Post (R30, R298): the frame on the wire has completed, waiting messages are
discarded under TX_STOP_DISCARD. -/
def Dev.pinsToNp (d : Dev) (n : Nat) : Dev :=
  let d := d.when (d.flag (canPg n) R.EDG_CAN_STAT_PINS) (fun d =>
    (d.canDiscard n 7).setFlag (canPg n) R.EDG_CAN_STAT_PINS false)
  d.setClaim (0x10 + n) (claimWord 0 n 4)

/-- A CAN controller as its main domain leaves Run (R325, R526): COMMIT messages not yet sent are withdrawn, the
transceiver goes to STANDBY, or to NORMAL under NP-CAN A (R335). -/
def Dev.canAsleep (d : Dev) (n : Nat) : Dev :=
  let c := d.can n
  let all := c.wire.toList ++ c.tx
  let d := d.setCan n { c with tx := all.filter (fun t => !t.phase), wire := none, trxGoing := none, trxPend := none }
  let d := d.cnt (canPg n) 7 (all.filter (fun t => t.phase)).length
  let d := (d.setFlag (canPg n) R.EDG_CAN_STAT_TX_ACTIVE false).setFlag (canPg n) R.EDG_CAN_STAT_SYNC false
  d.setFld (canPg n) R.EDG_CAN_TRX_STATE (if n = 0 && d.isOn nptPg then 0 else 2)

/-- What entry to Slumber frees and closes (R194, R226, R325, R348): frames inside go uncounted, the diagnostic gates
close, the PCIe link goes down, the enables of groups 2, 1 and 0 are released. -/
def Dev.slumberIn (d : Dev) : Dev :=
  let d := [0, 1, 2].foldl (fun d p => if d.flag fwlPg (R.FWL_DIAG_GATE_OPEN.at p) then d.gateClose p else d) d
  let h := d.hall
  let d : Dev := { d with
    hall := { mirCount := h.mirCount, nextFrame := h.nextFrame }
    bur := { d.bur with flights := [] }
    ccl := { d.ccl with held := [] }
    dst := { d.dst with waiting := [], reads := [], poison := [] } }
  [2, 1, 0].foldl (fun d k => d.wakeEn k false) (d.pcieReset true)

/-- SLEEP_ENTRY_DONE (R30, R298, R324 to R326, R358): entry is complete; a wake latched on the way begins the exit. -/
def execSleepEntryDone (s : State) : Answer :=
  s.run (fun d =>
    if d.round ≠ 2 then d
    else
      let d := ((d.onPages .can).foldl Dev.canAsleep d).pinsDown
      let d := [0, 1].foldl Dev.pinsToNp d
      let d := if d.toSlumber then d.slumberIn
        else if d.flag pwrPg R.PWR_VCTRL_PMBUS_EN then d
        else d.setVid (d.vidCode 3)
      let d := d.setRound 3
      if d.npt.latched.isEmpty then d else d.exitBegin)

/-- SLEEP_EXIT_DONE (R287, R326, R331, R354): the main domains have reached Run. From Slumber this needs every supply
group, and the time core starts again. -/
def execSleepExitDone (s : State) : Answer :=
  s.run (fun d =>
    if d.round = 4 && d.supply.wait.isNone then
      let d := ((d.setRound 0).raise nptPg 6).awakeLoad
      let d := d.setFld pwrPg R.PWR_STATE_STAT_CUR 0
      let d := d.setFld pwrPg R.PWR_STATE_STAT_NEXT 0
      let d := d.when (d.toSlumber && d.isOn pmkPg) (fun d =>
        let on := allPages.filter (fun p => d.state p != 0)
        d.pmkStart.wcResume on)
      (d.npCopy.sleepEvent.stPending).opPending
    else d)

end Sys2Proof.Machine
end

