-- ==== Sys2Proof/Machine/Dispatch.lean ====
section
/-! DEFINITION. One arm per command: the direct call of its meaning. -/

namespace Sys2Proof.Machine

/-- The effect of a command on everything but the queue. -/
def exec (i : Instr) (s : State) : Host.Outcome State Fault Refusal :=
  match i with
  | .registerWrite who target size data => Sys2Proof.Machine.execRegisterWrite who target size data s
  | .domainAccessWake who target write size data => Sys2Proof.Machine.execDomainAccessWake who target write size data s
  | .domainReady domain => Sys2Proof.Machine.execDomainReady domain s
  | .accessStallTimeout => Sys2Proof.Machine.execAccessStallTimeout s
  | .lockAcquire who p => Sys2Proof.Machine.execLockAcquire who p s
  | .lockRelease who p => Sys2Proof.Machine.execLockRelease who p s
  | .commit who p => Sys2Proof.Machine.execCommit who p s
  | .pageEnRequest who u on => Sys2Proof.Machine.execPageEnRequest who u on s
  | .startComplete u => Sys2Proof.Machine.execStartComplete u s
  | .stopComplete u => Sys2Proof.Machine.execStopComplete u s
  | .tornClear who p => Sys2Proof.Machine.execTornClear who p s
  | .lockOwnerReset owner => Sys2Proof.Machine.execLockOwnerReset owner s
  | .snapshot who p => Sys2Proof.Machine.execSnapshot who p s
  | .snapshotDone p => Sys2Proof.Machine.execSnapshotDone p s
  | .faultInject who p checker => Sys2Proof.Machine.execFaultInject who p checker s
  | .popAck who window seq => Sys2Proof.Machine.execPopAck who window seq s
  | .featuresAccept who => Sys2Proof.Machine.execFeaturesAccept who s
  | .featuresDone => Sys2Proof.Machine.execFeaturesDone s
  | .vstbyPowerOn dbg => Sys2Proof.Machine.execVstbyPowerOn dbg s
  | .mainPowerOn dbg => Sys2Proof.Machine.execMainPowerOn dbg s
  | .resetPin ns dbg => Sys2Proof.Machine.execResetPin ns dbg s
  | .deviceResetRequest who key => Sys2Proof.Machine.execDeviceResetRequest who key s
  | .pcieReset flr => Sys2Proof.Machine.execPcieReset flr s
  | .spiPortReset => Sys2Proof.Machine.execSpiPortReset s
  | .startStepDone e => Sys2Proof.Machine.execStartStepDone e s
  | .startStepTimeout => Sys2Proof.Machine.execStartStepTimeout s
  | .bootRetryTop who => Sys2Proof.Machine.execBootRetryTop who s
  | .chainTrainRx what => Sys2Proof.Machine.execChainTrainRx what s
  | .chainTrainTx => Sys2Proof.Machine.execChainTrainTx s
  | .chainWaitTimeout => Sys2Proof.Machine.execChainWaitTimeout s
  | .rxSof p => Sys2Proof.Machine.execRxSof p s
  | .rxFrameEnd p e => Sys2Proof.Machine.execRxFrameEnd p e s
  | .frameStored frame => Sys2Proof.Machine.execFrameStored frame s
  | .classifyFrame frame u => Sys2Proof.Machine.execClassifyFrame frame u s
  | .connectionLookupDone frame u => Sys2Proof.Machine.execConnectionLookupDone frame u s
  | .resultHandoff frame => Sys2Proof.Machine.execResultHandoff frame s
  | .spillWritten => Sys2Proof.Machine.execSpillWritten s
  | .refillRead p q => Sys2Proof.Machine.execRefillRead p q s
  | .refillDone p q uncorr => Sys2Proof.Machine.execRefillDone p q uncorr s
  | .spillBudgetCredit => Sys2Proof.Machine.execSpillBudgetCredit s
  | .ageHeadScan => Sys2Proof.Machine.execAgeHeadScan s
  | .queueRelease p corrected uncorr host => Sys2Proof.Machine.execQueueRelease p corrected uncorr host s
  | .txFrameDone p fragments collisions => Sys2Proof.Machine.execTxFrameDone p fragments collisions s
  | .auditCheck kind island account diff => Sys2Proof.Machine.execAuditCheck kind island account diff s
  | .auditCensus diff => Sys2Proof.Machine.execAuditCensus diff s
  | .lowWaterRestart who => Sys2Proof.Machine.execLowWaterRestart who s
  | .portDrainTimeout p => Sys2Proof.Machine.execPortDrainTimeout p s
  | .portLanesDown p => Sys2Proof.Machine.execPortLanesDown p s
  | .pcsLockChange p lock => Sys2Proof.Machine.execPcsLockChange p lock s
  | .linkFaultRx p localFault remoteFault => Sys2Proof.Machine.execLinkFaultRx p localFault remoteFault s
  | .anDone p speed => Sys2Proof.Machine.execAnDone p speed s
  | .linkUp p => Sys2Proof.Machine.execLinkUp p s
  | .mdioPoll m reads => Sys2Proof.Machine.execMdioPoll m reads s
  | .mdioWrite who m c45 phyad devad reg => Sys2Proof.Machine.execMdioWrite who m c45 phyad devad reg s
  | .mdioRead who m c45 phyad devad reg => Sys2Proof.Machine.execMdioRead who m c45 phyad devad reg s
  | .mdioDone m answer => Sys2Proof.Machine.execMdioDone m answer s
  | .mmVerifyTx p => Sys2Proof.Machine.execMmVerifyTx p s
  | .mmVerifyResponse p => Sys2Proof.Machine.execMmVerifyResponse p s
  | .plcaBeaconTx k => Sys2Proof.Machine.execPlcaBeaconTx k s
  | .plcaBeaconRx k => Sys2Proof.Machine.execPlcaBeaconRx k s
  | .plcaBeaconLost k => Sys2Proof.Machine.execPlcaBeaconLost k s
  | .tc10SleepCmd who p acceptRemote => Sys2Proof.Machine.execTc10SleepCmd who p acceptRemote s
  | .tc10WakeCmd who p acceptRemote => Sys2Proof.Machine.execTc10WakeCmd who p acceptRemote s
  | .tc10DrainDone p => Sys2Proof.Machine.execTc10DrainDone p s
  | .tc10SleepTimeout p => Sys2Proof.Machine.execTc10SleepTimeout p s
  | .tc10WakeTimeout p => Sys2Proof.Machine.execTc10WakeTimeout p s
  | .emInsert who => Sys2Proof.Machine.execEmInsert who s
  | .emDelete who => Sys2Proof.Machine.execEmDelete who s
  | .emLookup who => Sys2Proof.Machine.execEmLookup who s
  | .emDone => Sys2Proof.Machine.execEmDone s
  | .fragRecordExpire => Sys2Proof.Machine.execFragRecordExpire s
  | .tableWindowWrite who off data => Sys2Proof.Machine.execTableWindowWrite who off data s
  | .editionOpen who => Sys2Proof.Machine.execEditionOpen who s
  | .editionCommit who revoke selfTest => Sys2Proof.Machine.execEditionCommit who revoke selfTest s
  | .editionAbandon who => Sys2Proof.Machine.execEditionAbandon who s
  | .editionLoad who => Sys2Proof.Machine.execEditionLoad who s
  | .editionCmdDone => Sys2Proof.Machine.execEditionCmdDone s
  | .editionSaveDone pages ok => Sys2Proof.Machine.execEditionSaveDone pages ok s
  | .editionFlip => Sys2Proof.Machine.execEditionFlip s
  | .editionResume => Sys2Proof.Machine.execEditionResume s
  | .ctSweep bucket bad => Sys2Proof.Machine.execCtSweep bucket bad s
  | .canLimiterCredit => Sys2Proof.Machine.execCanLimiterCredit s
  | .diagGateOpen who p seconds => Sys2Proof.Machine.execDiagGateOpen who p seconds s
  | .diagGateClose who p => Sys2Proof.Machine.execDiagGateClose who p s
  | .diagGateExpire p => Sys2Proof.Machine.execDiagGateExpire p s
  | .ctQuery mailbox => Sys2Proof.Machine.execCtQuery mailbox s
  | .ctFlush mailbox => Sys2Proof.Machine.execCtFlush mailbox s
  | .ctDump mailbox => Sys2Proof.Machine.execCtDump mailbox s
  | .tokenRefillTick bad => Sys2Proof.Machine.execTokenRefillTick bad s
  | .frerReset index => Sys2Proof.Machine.execFrerReset index s
  | .gateEvent port uncorr => Sys2Proof.Machine.execGateEvent port uncorr s
  | .gclChange who port => Sys2Proof.Machine.execGclChange who port s
  | .gclCancel who port => Sys2Proof.Machine.execGclCancel who port s
  | .gclCopyDone port => Sys2Proof.Machine.execGclCopyDone port s
  | .gclSwap port => Sys2Proof.Machine.execGclSwap port s
  | .gclExtensionEnd port => Sys2Proof.Machine.execGclExtensionEnd port s
  | .gclEntryWrite who port value => Sys2Proof.Machine.execGclEntryWrite who port value s
  | .maxRestart who port => Sys2Proof.Machine.execMaxRestart who port s
  | .histDepthSample port => Sys2Proof.Machine.execHistDepthSample port s
  | .frkTblRead who => Sys2Proof.Machine.execFrkTblRead who s
  | .frkTblWrite who => Sys2Proof.Machine.execFrkTblWrite who s
  | .frkTblDone => Sys2Proof.Machine.execFrkTblDone s
  | .schedLoad mailbox image => Sys2Proof.Machine.execSchedLoad mailbox image s
  | .gptpRx => Sys2Proof.Machine.execGptpRx s
  | .syncTx anchor => Sys2Proof.Machine.execSyncTx anchor s
  | .pdelayReqTx => Sys2Proof.Machine.execPdelayReqTx s
  | .anchorTimeout anchor => Sys2Proof.Machine.execAnchorTimeout anchor s
  | .anchorSet who anchor => Sys2Proof.Machine.execAnchorSet who anchor s
  | .anchorResync who anchor => Sys2Proof.Machine.execAnchorResync who anchor s
  | .wcEnable who clock value => Sys2Proof.Machine.execWcEnable who clock value s
  | .wcRestep who clock => Sys2Proof.Machine.execWcRestep who clock s
  | .wcUpdate => Sys2Proof.Machine.execWcUpdate s
  | .latch who => Sys2Proof.Machine.execLatch who s
  | .latchDone => Sys2Proof.Machine.execLatchDone s
  | .evoLeadingEdge output => Sys2Proof.Machine.execEvoLeadingEdge output s
  | .evoTrailingEdge output => Sys2Proof.Machine.execEvoTrailingEdge output s
  | .captureEdge input rising => Sys2Proof.Machine.execCaptureEdge input rising s
  | .timeCarry => Sys2Proof.Machine.execTimeCarry s
  | .canRxValid bus msg ago u => Sys2Proof.Machine.execCanRxValid bus msg ago u s
  | .canTxDone bus => Sys2Proof.Machine.execCanTxDone bus s
  | .canTxError bus lost exempt => Sys2Proof.Machine.execCanTxError bus lost exempt s
  | .busOffRecovered bus => Sys2Proof.Machine.execBusOffRecovered bus s
  | .canRecover who bus => Sys2Proof.Machine.execCanRecover who bus s
  | .canClrTx who bus => Sys2Proof.Machine.execCanClrTx who bus s
  | .canIntegrated bus => Sys2Proof.Machine.execCanIntegrated bus s
  | .canTrxReq who bus value => Sys2Proof.Machine.execCanTrxReq who bus value s
  | .canTrxSettled bus => Sys2Proof.Machine.execCanTrxSettled bus s
  | .canPinsPass bus => Sys2Proof.Machine.execCanPinsPass bus s
  | .timedTxDue bus => Sys2Proof.Machine.execTimedTxDue bus s
  | .rtRead who => Sys2Proof.Machine.execRtRead who s
  | .rtWrite who => Sys2Proof.Machine.execRtWrite who s
  | .rtDone => Sys2Proof.Machine.execRtDone s
  | .linSlotStart bus => Sys2Proof.Machine.execLinSlotStart bus s
  | .linResponseRx bus bytes err ago u => Sys2Proof.Machine.execLinResponseRx bus bytes err ago u s
  | .linSwitch who bus len => Sys2Proof.Machine.execLinSwitch who bus len s
  | .wakeSourceFire source => Sys2Proof.Machine.execWakeSourceFire source s
  | .nptAlarm => Sys2Proof.Machine.execNptAlarm s
  | .sleepGo who target => Sys2Proof.Machine.execSleepGo who target s
  | .sleepGoForce who target => Sys2Proof.Machine.execSleepGoForce who target s
  | .sleepCancel who => Sys2Proof.Machine.execSleepCancel who s
  | .phaseMsgRepeat => Sys2Proof.Machine.execPhaseMsgRepeat s
  | .sleepMsgRx bus id => Sys2Proof.Machine.execSleepMsgRx bus id s
  | .readyReport who nodes => Sys2Proof.Machine.execReadyReport who nodes s
  | .prepMinExpire => Sys2Proof.Machine.execPrepMinExpire s
  | .prepTimerExpire => Sys2Proof.Machine.execPrepTimerExpire s
  | .sleepEntryDone => Sys2Proof.Machine.execSleepEntryDone s
  | .sleepExitDone => Sys2Proof.Machine.execSleepExitDone s
  | .pnWake who groups => Sys2Proof.Machine.execPnWake who groups s
  | .pnSleep who groups => Sys2Proof.Machine.execPnSleep who groups s
  | .useSourceChange pin active => Sys2Proof.Machine.execUseSourceChange pin active s
  | .maxAwake => Sys2Proof.Machine.execMaxAwake s
  | .quarantineEnd source node => Sys2Proof.Machine.execQuarantineEnd source node s
  | .wakeHourRestart => Sys2Proof.Machine.execWakeHourRestart s
  | .wakeFrameRx fd ext id data => Sys2Proof.Machine.execWakeFrameRx fd ext id data s
  | .npVerifyDone => Sys2Proof.Machine.execNpVerifyDone s
  | .relayCopyDue => Sys2Proof.Machine.execRelayCopyDue s
  | .relayCopyDone ok => Sys2Proof.Machine.execRelayCopyDone ok s
  | .npOscStop => Sys2Proof.Machine.execNpOscStop s
  | .stateReqRun who => Sys2Proof.Machine.execStateReqRun who s
  | .stateReqIdle who => Sys2Proof.Machine.execStateReqIdle who s
  | .stateReqOff who => Sys2Proof.Machine.execStateReqOff who s
  | .stateTransitionDone => Sys2Proof.Machine.execStateTransitionDone s
  | .opRequest who op => Sys2Proof.Machine.execOpRequest who op s
  | .opTransitionDone settled => Sys2Proof.Machine.execOpTransitionDone settled s
  | .trimCheck needed => Sys2Proof.Machine.execTrimCheck needed s
  | .pmbusTelemetry mv => Sys2Proof.Machine.execPmbusTelemetry mv s
  | .supplyGood g => Sys2Proof.Machine.execSupplyGood g s
  | .supplyTimeout g => Sys2Proof.Machine.execSupplyTimeout g s
  | .pfailAssert => Sys2Proof.Machine.execPfailAssert s
  | .pfailFlushed => Sys2Proof.Machine.execPfailFlushed s
  | .pfailDeassert => Sys2Proof.Machine.execPfailDeassert s
  | .tempHigh celsius => Sys2Proof.Machine.execTempHigh celsius s
  | .clockFault => Sys2Proof.Machine.execClockFault s
  | .spiRead32 space off crc => Sys2Proof.Machine.execSpiRead32 space off crc s
  | .spiRead64 space off crc => Sys2Proof.Machine.execSpiRead64 space off crc s
  | .spiWrite32 space off data crc => Sys2Proof.Machine.execSpiWrite32 space off data crc s
  | .spiWrite64 space off data crc => Sys2Proof.Machine.execSpiWrite64 space off data crc s
  | .spiGetResult crc => Sys2Proof.Machine.execSpiGetResult crc s
  | .peerWindowAccess who write wide off data => Sys2Proof.Machine.execPeerWindowAccess who write wide off data s
  | .flashWindowRead who wide off => Sys2Proof.Machine.execFlashWindowRead who wide off s
  | .flashWindowWrite who wide off data => Sys2Proof.Machine.execFlashWindowWrite who wide off data s
  | .flashProgramDone ok => Sys2Proof.Machine.execFlashProgramDone ok s
  | .flashErase who sector => Sys2Proof.Machine.execFlashErase who sector s
  | .flashEraseDone ok => Sys2Proof.Machine.execFlashEraseDone ok s
  | .pcieLinkChange up width speed => Sys2Proof.Machine.execPcieLinkChange up width speed s
  | .d3hotEntry => Sys2Proof.Machine.execD3hotEntry s
  | .dmaTailWrite who queue tail => Sys2Proof.Machine.execDmaTailWrite who queue tail s
  | .dmaTxFetch next => Sys2Proof.Machine.execDmaTxFetch next s
  | .dmaTxFrameIn queue => Sys2Proof.Machine.execDmaTxFrameIn queue s
  | .tsTimeout queue => Sys2Proof.Machine.execTsTimeout queue s
  | .dmaItrExpire queue => Sys2Proof.Machine.execDmaItrExpire queue s
  | .mailboxGo who mailbox => Sys2Proof.Machine.execMailboxGo who mailbox s
  | .mailboxTaken mailbox => Sys2Proof.Machine.execMailboxTaken mailbox s
  | .echo mailbox => Sys2Proof.Machine.execEcho mailbox s
  | .info mailbox => Sys2Proof.Machine.execInfo mailbox s
  | .deepStoreGrant arrived => Sys2Proof.Machine.execDeepStoreGrant arrived s
  | .deepStoreReadDone requester found addr => Sys2Proof.Machine.execDeepStoreReadDone requester found addr s
  | .starvation => Sys2Proof.Machine.execStarvation s
  | .arbiterStall => Sys2Proof.Machine.execArbiterStall s
  | .arbLimitCredit => Sys2Proof.Machine.execArbLimitCredit s
  | .mr4Poll code hot => Sys2Proof.Machine.execMr4Poll code hot s
  | .patrolScrub => Sys2Proof.Machine.execPatrolScrub s
  | .eccInitGranule => Sys2Proof.Machine.execEccInitGranule s
  | .useRestart who => Sys2Proof.Machine.execUseRestart who s
  | .capRead mailbox reached => Sys2Proof.Machine.execCapRead mailbox reached s
  | .mmuInv who scope ctx => Sys2Proof.Machine.execMmuInv who scope ctx s
  | .mmuInvDone => Sys2Proof.Machine.execMmuInvDone s
  | .movStart who channel prio ctx => Sys2Proof.Machine.execMovStart who channel prio ctx s
  | .movResume who channel => Sys2Proof.Machine.execMovResume who channel s
  | .movAbort who channel => Sys2Proof.Machine.execMovAbort who channel s
  | .movSlotGrant walkBad => Sys2Proof.Machine.execMovSlotGrant walkBad s
  | .movBlockDone channel host fail walkBad => Sys2Proof.Machine.execMovBlockDone channel host fail walkBad s
  | .checkpoint pair corrected => Sys2Proof.Machine.execCheckpoint pair corrected s
  | .pairRestart pair cause point => Sys2Proof.Machine.execPairRestart pair cause point s
  | .pairResumed pair bad => Sys2Proof.Machine.execPairResumed pair bad s
  | .pairTakeover failed => Sys2Proof.Machine.execPairTakeover failed s
  | .slowPathTake corrected uncorr => Sys2Proof.Machine.execSlowPathTake corrected uncorr s
  | .reasmTimeout => Sys2Proof.Machine.execReasmTimeout s
  | .restartHistory mailbox => Sys2Proof.Machine.execRestartHistory mailbox s
  | .keyGenerate who slot => Sys2Proof.Machine.execKeyGenerate who slot s
  | .keyDerive who slot root parent format => Sys2Proof.Machine.execKeyDerive who slot root parent format s
  | .keyLoad who slot => Sys2Proof.Machine.execKeyLoad who slot s
  | .keyImport who slot parent => Sys2Proof.Machine.execKeyImport who slot parent s
  | .keyUnwrapKw who slot parent => Sys2Proof.Machine.execKeyUnwrapKw who slot parent s
  | .keyWrapKw who slot parent => Sys2Proof.Machine.execKeyWrapKw who slot parent s
  | .keySetAttr who slot => Sys2Proof.Machine.execKeySetAttr who slot s
  | .keyDestroy who slot => Sys2Proof.Machine.execKeyDestroy who slot s
  | .keyCmdDone stored => Sys2Proof.Machine.execKeyCmdDone stored s
  | .tamperDetect source => Sys2Proof.Machine.execTamperDetect source s
  | .tamperFuseDone => Sys2Proof.Machine.execTamperFuseDone s
  | .rootRevokeDone => Sys2Proof.Machine.execRootRevokeDone s
  | .waxGo who c ctrl => Sys2Proof.Machine.execWaxGo who c ctrl s
  | .waxAbort who c => Sys2Proof.Machine.execWaxAbort who c s
  | .waxRelease who c => Sys2Proof.Machine.execWaxRelease who c s
  | .waxBlockBoundary last => Sys2Proof.Machine.execWaxBlockBoundary last s
  | .macsecSaRead who k => Sys2Proof.Machine.execMacsecSaRead who k s
  | .macsecSaWrite who k => Sys2Proof.Machine.execMacsecSaWrite who k s
  | .macsecSaDone k => Sys2Proof.Machine.execMacsecSaDone k s
  | .mkaSet mailbox => Sys2Proof.Machine.execMkaSet mailbox s
  | .mkaStatus mailbox => Sys2Proof.Machine.execMkaStatus mailbox s
  | .quietTimerExpire cls => Sys2Proof.Machine.execQuietTimerExpire cls s
  | .faultAck who cls => Sys2Proof.Machine.execFaultAck who cls s
  | .archiveCopy ok => Sys2Proof.Machine.execArchiveCopy ok s
  | .eventRead mailbox reached => Sys2Proof.Machine.execEventRead mailbox reached s
  | .archiveNow mailbox ok => Sys2Proof.Machine.execArchiveNow mailbox ok s
  | .helloTx => Sys2Proof.Machine.execHelloTx s
  | .helloRx words => Sys2Proof.Machine.execHelloRx words s
  | .heartbeatTx => Sys2Proof.Machine.execHeartbeatTx s
  | .heartbeatRx words => Sys2Proof.Machine.execHeartbeatRx words s
  | .heartbeatMissed => Sys2Proof.Machine.execHeartbeatMissed s
  | .orderRx seq crcGood orders => Sys2Proof.Machine.execOrderRx seq crcGood orders s
  | .orderApply => Sys2Proof.Machine.execOrderApply s
  | .carbonRx seq crcGood words => Sys2Proof.Machine.execCarbonRx seq crcGood words s
  | .adjAckRx type seq => Sys2Proof.Machine.execAdjAckRx type seq s
  | .adjRetransmit type seq => Sys2Proof.Machine.execAdjRetransmit type seq s
  | .adjTimeRx words => Sys2Proof.Machine.execAdjTimeRx words s
  | .adjIrqRx seq crcGood type inst stat => Sys2Proof.Machine.execAdjIrqRx seq crcGood type inst stat s
  | .remoteReqRx seq crcGood words => Sys2Proof.Machine.execRemoteReqRx seq crcGood words s
  | .laneDown lane => Sys2Proof.Machine.execLaneDown lane s
  | .claimRound other levels => Sys2Proof.Machine.execClaimRound other levels s
  | .joinTimeout => Sys2Proof.Machine.execJoinTimeout s
  | .adjYield who => Sys2Proof.Machine.execAdjYield who s
  | .adjResync who => Sys2Proof.Machine.execAdjResync who s
  | .staleTxTimeout bus => Sys2Proof.Machine.execStaleTxTimeout bus s
  | .updBegin mailbox => Sys2Proof.Machine.execUpdBegin mailbox s
  | .updEraseDone slot => Sys2Proof.Machine.execUpdEraseDone slot s
  | .updBlock mailbox host ok => Sys2Proof.Machine.execUpdBlock mailbox host ok s
  | .updFinish mailbox => Sys2Proof.Machine.execUpdFinish mailbox s
  | .updActivate mailbox => Sys2Proof.Machine.execUpdActivate mailbox s
  | .hitlessStepDone how => Sys2Proof.Machine.execHitlessStepDone how s
  | .scheduledActivation => Sys2Proof.Machine.execScheduledActivation s
  | .updConfirm mailbox => Sys2Proof.Machine.execUpdConfirm mailbox s
  | .updCancel mailbox => Sys2Proof.Machine.execUpdCancel mailbox s
  | .configSave mailbox pages ok => Sys2Proof.Machine.execConfigSave mailbox pages ok s
  | .compactionDone pages => Sys2Proof.Machine.execCompactionDone pages s
  | .canRxError bus eight => Sys2Proof.Machine.execCanRxError bus eight s
  | .linHeaderRx bus id => Sys2Proof.Machine.execLinHeaderRx bus id s
  | .mainSupplyLoss => Sys2Proof.Machine.execMainSupplyLoss s
  | .vstbyLoss => Sys2Proof.Machine.execVstbyLoss s
  | .supplyUndervoltage g => Sys2Proof.Machine.execSupplyUndervoltage g s
  | .pcieConfigWrite toD0 busMaster => Sys2Proof.Machine.execPcieConfigWrite toD0 busMaster s
  | .laneUp lane => Sys2Proof.Machine.execLaneUp lane s
  | .digestOrderTx => Sys2Proof.Machine.execDigestOrderTx s
  | .adjTimeTx => Sys2Proof.Machine.execAdjTimeTx s
  | .carbonGenTx => Sys2Proof.Machine.execCarbonGenTx s
  | .tamperSourceInactive source => Sys2Proof.Machine.execTamperSourceInactive source s
  | .mkaTimerDue port what => Sys2Proof.Machine.execMkaTimerDue port what s
  | .bootLoaderFault => Sys2Proof.Machine.execBootLoaderFault s
  | .pairInfo mailbox => Sys2Proof.Machine.execPairInfo mailbox s
  | .remoteRespRx seq crcGood words => Sys2Proof.Machine.execRemoteRespRx seq crcGood words s

end Sys2Proof.Machine
end

