-- ==== Sys2Proof/WellFormed.lean ====
section
/-! DEFINITION. Which commands are well formed: what they name exists and has the size it can have. A
meaning answers on an ill-formed command as well; it then says nothing of the device. -/

namespace Sys2Proof

/-- The page exists (R41). -/
def Page.wf (p : Page) : Bool := decide (p.inst < p.kind.count)

/-- What the enable state machine governs exists. -/
def Unit'.wf : Unit' → Bool
  | .page p => p.wf
  | .rxq _ => true
  | .txq _ => true

/-- The register of a page named directly lies in a page that exists, at a word. -/
def Target.wf : Target → Bool
  | .addr _ _ => true
  | .reg p off => p.wf && off % 4 == 0

/-- A message that a bus can carry (R292): its identifier fits, and its data has a length of its format. -/
def CanMsg.wf (m : CanMsg) : Bool :=
  let n := m.data.length
  let fd := [12, 16, 20, 24, 32, 48, 64]
  decide (m.id < if m.ext then 2 ^ 29 else 2 ^ 11) && match m.fmt with
    | 0 => decide (n ≤ 8)
    | 1 => decide (n ≤ 8) || fd.contains n
    | 2 => decide (1 ≤ n) && decide (n ≤ 2048)
    | 3 => decide (n ≤ 8)
    | _ => false

/-- Each descriptor's buffer has the length it names, and the queue exists (R386). -/
def TxNext.wf (t : TxNext) : Bool :=
  decide (t.q < 64) && t.descs.all (fun x => decide (x.len < 2 ^ 16) && x.bytes.length == x.len)

/-- The command is well formed. -/
def Instr.wf : Instr → Bool
  | .registerWrite _ target size _ => target.wf && decide (1 ≤ size ∧ size ≤ 4096)
  | .domainAccessWake _ target _ size _ => target.wf && decide (1 ≤ size ∧ size ≤ 4096)
  | .domainReady _ => true
  | .accessStallTimeout => true
  | .lockAcquire _ p => p.wf
  | .lockRelease _ p => p.wf
  | .commit _ p => p.wf
  | .pageEnRequest _ u _ => u.wf
  | .startComplete u => u.wf
  | .stopComplete u => u.wf
  | .tornClear _ p => p.wf
  | .lockOwnerReset _ => true
  | .snapshot _ p => p.wf
  | .snapshotDone p => p.wf
  | .faultInject _ p _ => p.wf
  | .popAck _ _ _ => true
  | .featuresAccept _ => true
  | .featuresDone => true
  | .vstbyPowerOn _ => true
  | .mainPowerOn _ => true
  | .resetPin _ _ => true
  | .deviceResetRequest _ _ => true
  | .pcieReset _ => true
  | .spiPortReset => true
  | .startStepDone _ => true
  | .startStepTimeout => true
  | .bootRetryTop _ => true
  | .chainTrainRx _ => true
  | .chainTrainTx => true
  | .chainWaitTimeout => true
  | .rxSof _ => true
  | .rxFrameEnd _ _ => true
  | .frameStored _ => true
  | .classifyFrame _ _ => true
  | .connectionLookupDone _ _ => true
  | .resultHandoff _ => true
  | .spillWritten => true
  | .refillRead _ _ => true
  | .refillDone _ _ _ => true
  | .spillBudgetCredit => true
  | .ageHeadScan => true
  | .queueRelease _ _ _ _ => true
  | .txFrameDone _ _ _ => true
  | .auditCheck _ _ _ _ => true
  | .auditCensus _ => true
  | .lowWaterRestart _ => true
  | .portDrainTimeout _ => true
  | .portLanesDown _ => true
  | .pcsLockChange _ _ => true
  | .linkFaultRx _ _ _ => true
  | .anDone _ _ => true
  | .linkUp _ => true
  | .mdioPoll _ reads => reads.all (fun r => decide (r.1 < 40) && decide (r.2.1 < 2 ^ 16) && decide (r.2.2 < 2 ^ 16))
  | .mdioWrite _ _ _ _ _ _ => true
  | .mdioRead _ _ _ _ _ _ => true
  | .mdioDone _ _ => true
  | .mmVerifyTx _ => true
  | .mmVerifyResponse _ => true
  | .plcaBeaconTx _ => true
  | .plcaBeaconRx _ => true
  | .plcaBeaconLost _ => true
  | .tc10SleepCmd _ _ _ => true
  | .tc10WakeCmd _ _ _ => true
  | .tc10DrainDone _ => true
  | .tc10SleepTimeout _ => true
  | .tc10WakeTimeout _ => true
  | .emInsert _ => true
  | .emDelete _ => true
  | .emLookup _ => true
  | .emDone => true
  | .fragRecordExpire => true
  | .tableWindowWrite _ _ _ => true
  | .editionOpen _ => true
  | .editionCommit _ _ _ => true
  | .editionAbandon _ => true
  | .editionLoad _ => true
  | .editionCmdDone => true
  | .editionSaveDone _ _ => true
  | .editionFlip => true
  | .editionResume => true
  | .ctSweep _ _ => true
  | .canLimiterCredit => true
  | .diagGateOpen _ _ _ => true
  | .diagGateClose _ _ => true
  | .diagGateExpire _ => true
  | .ctQuery _ => true
  | .ctFlush _ => true
  | .ctDump _ => true
  | .tokenRefillTick _ => true
  | .frerReset _ => true
  | .gateEvent _ _ => true
  | .gclChange _ _ => true
  | .gclCancel _ _ => true
  | .gclCopyDone _ => true
  | .gclSwap _ => true
  | .gclExtensionEnd _ => true
  | .gclEntryWrite _ _ _ => true
  | .maxRestart _ _ => true
  | .histDepthSample _ => true
  | .frkTblRead _ => true
  | .frkTblWrite _ => true
  | .frkTblDone => true
  | .schedLoad _ _ => true
  | .gptpRx => true
  | .syncTx _ => true
  | .pdelayReqTx => true
  | .anchorTimeout _ => true
  | .anchorSet _ _ => true
  | .anchorResync _ _ => true
  | .wcEnable _ _ _ => true
  | .wcRestep _ _ => true
  | .wcUpdate => true
  | .latch _ => true
  | .latchDone => true
  | .evoLeadingEdge _ => true
  | .evoTrailingEdge _ => true
  | .captureEdge _ _ => true
  | .timeCarry => true
  | .canRxValid _ msg _ _ => msg.wf
  | .canTxDone _ => true
  | .canTxError _ _ _ => true
  | .busOffRecovered _ => true
  | .canRecover _ _ => true
  | .canClrTx _ _ => true
  | .canIntegrated _ => true
  | .canTrxReq _ _ _ => true
  | .canTrxSettled _ => true
  | .canPinsPass _ => true
  | .timedTxDue _ => true
  | .rtRead _ => true
  | .rtWrite _ => true
  | .rtDone => true
  | .linSlotStart _ => true
  | .linResponseRx _ bytes _ _ _ => decide (bytes.length ≤ 8)
  | .linSwitch _ _ _ => true
  | .wakeSourceFire _ => true
  | .nptAlarm => true
  | .sleepGo _ _ => true
  | .sleepGoForce _ _ => true
  | .sleepCancel _ => true
  | .phaseMsgRepeat => true
  | .sleepMsgRx _ _ => true
  | .readyReport _ _ => true
  | .prepMinExpire => true
  | .prepTimerExpire => true
  | .sleepEntryDone => true
  | .sleepExitDone => true
  | .pnWake _ _ => true
  | .pnSleep _ _ => true
  | .useSourceChange _ _ => true
  | .maxAwake => true
  | .quarantineEnd _ _ => true
  | .wakeHourRestart => true
  | .wakeFrameRx _ _ _ data => decide (data.length ≤ 64)
  | .npVerifyDone => true
  | .relayCopyDue => true
  | .relayCopyDone _ => true
  | .npOscStop => true
  | .stateReqRun _ => true
  | .stateReqIdle _ => true
  | .stateReqOff _ => true
  | .stateTransitionDone => true
  | .opRequest _ _ => true
  | .opTransitionDone _ => true
  | .trimCheck _ => true
  | .pmbusTelemetry _ => true
  | .supplyGood _ => true
  | .supplyTimeout _ => true
  | .pfailAssert => true
  | .pfailFlushed => true
  | .pfailDeassert => true
  | .tempHigh _ => true
  | .clockFault => true
  | .spiRead32 _ _ _ => true
  | .spiRead64 _ _ _ => true
  | .spiWrite32 _ _ _ _ => true
  | .spiWrite64 _ _ _ _ => true
  | .spiGetResult _ => true
  | .peerWindowAccess _ _ _ _ _ => true
  | .flashWindowRead _ _ _ => true
  | .flashWindowWrite _ _ _ _ => true
  | .flashProgramDone _ => true
  | .flashErase _ _ => true
  | .flashEraseDone _ => true
  | .pcieLinkChange _ _ _ => true
  | .d3hotEntry => true
  | .dmaTailWrite _ _ _ => true
  | .dmaTxFetch next => next.all TxNext.wf
  | .dmaTxFrameIn _ => true
  | .tsTimeout _ => true
  | .dmaItrExpire _ => true
  | .mailboxGo _ _ => true
  | .mailboxTaken _ => true
  | .echo _ => true
  | .info _ => true
  | .deepStoreGrant _ => true
  | .deepStoreReadDone _ _ _ => true
  | .starvation => true
  | .arbiterStall => true
  | .arbLimitCredit => true
  | .mr4Poll _ _ => true
  | .patrolScrub => true
  | .eccInitGranule => true
  | .useRestart _ => true
  | .capRead _ _ => true
  | .mmuInv _ _ _ => true
  | .mmuInvDone => true
  | .movStart _ _ _ _ => true
  | .movResume _ _ => true
  | .movAbort _ _ => true
  | .movSlotGrant _ => true
  | .movBlockDone _ _ _ _ => true
  | .checkpoint _ _ => true
  | .pairRestart _ _ _ => true
  | .pairResumed _ _ => true
  | .pairTakeover _ => true
  | .slowPathTake _ _ => true
  | .reasmTimeout => true
  | .restartHistory _ => true
  | .keyGenerate _ _ => true
  | .keyDerive _ _ _ _ _ => true
  | .keyLoad _ _ => true
  | .keyImport _ _ _ => true
  | .keyUnwrapKw _ _ _ => true
  | .keyWrapKw _ _ _ => true
  | .keySetAttr _ _ => true
  | .keyDestroy _ _ => true
  | .keyCmdDone _ => true
  | .tamperDetect _ => true
  | .tamperFuseDone => true
  | .rootRevokeDone => true
  | .waxGo _ _ _ => true
  | .waxAbort _ _ => true
  | .waxRelease _ _ => true
  | .waxBlockBoundary _ => true
  | .macsecSaRead _ _ => true
  | .macsecSaWrite _ _ => true
  | .macsecSaDone _ => true
  | .mkaSet _ => true
  | .mkaStatus _ => true
  | .quietTimerExpire _ => true
  | .faultAck _ _ => true
  | .archiveCopy _ => true
  | .eventRead _ _ => true
  | .archiveNow _ _ => true
  | .helloTx => true
  | .helloRx _ => true
  | .heartbeatTx => true
  | .heartbeatRx _ => true
  | .heartbeatMissed => true
  | .orderRx _ _ orders => orders.all (fun o => decide (o.length = 8))
  | .orderApply => true
  | .carbonRx _ _ _ => true
  | .adjAckRx _ _ => true
  | .adjRetransmit _ _ => true
  | .adjTimeRx _ => true
  | .adjIrqRx _ _ _ _ _ => true
  | .remoteReqRx _ _ _ => true
  | .laneDown _ => true
  | .claimRound _ _ => true
  | .joinTimeout => true
  | .adjYield _ => true
  | .adjResync _ => true
  | .staleTxTimeout _ => true
  | .updBegin _ => true
  | .updEraseDone _ => true
  | .updBlock _ _ _ => true
  | .updFinish _ => true
  | .updActivate _ => true
  | .hitlessStepDone _ => true
  | .scheduledActivation => true
  | .updConfirm _ => true
  | .updCancel _ => true
  | .configSave _ _ _ => true
  | .compactionDone _ => true
  | .canRxError _ _ => true
  | .linHeaderRx _ _ => true
  | .mainSupplyLoss => true
  | .vstbyLoss => true
  | .supplyUndervoltage _ => true
  | .pcieConfigWrite _ _ => true
  | .laneUp _ => true
  | .digestOrderTx => true
  | .adjTimeTx => true
  | .carbonGenTx => true
  | .tamperSourceInactive _ => true
  | .mkaTimerDue _ _ => true
  | .bootLoaderFault => true
  | .pairInfo _ => true
  | .remoteRespRx _ _ _ => true

end Sys2Proof
end

