-- ==== Sys2Proof/Safety.lean ====
section
/-! DEFINITION. What the statements call a sound state of the machine. -/

namespace Sys2Proof

/-- The sparse maps of the device are in their one canonical form: keys strictly rising and nothing listed that an
unlisted key reads as. -/
def Machine.Dev.Canonical (d : Machine.Dev) : Prop :=
  NMap.wf resetWord d.regs = true ∧ NMap.wf (fun _ => 0) d.counts = true ∧ NMap.wf (fun _ => 0) d.snaps = true
    ∧ Machine.Memory.wf d.dst.mem = true ∧ NMap.wf (fun _ => (0xFF : Byte)) d.flash.mem = true

/-- A 32-bit write of a register by `who` passes every check of the gate: reset is released, the page exists and is
reached (R37, R70, R76), the size is permitted (R36), its domain is ready and nothing waits ahead (R350), no snapshot
holds it (R58), it can change something (R8, R9), the pair's order rules and the page's own rules let it act (R490, R440, R479, R383), and the lock does
not bar it (R51). -/
def Machine.Dev.admits (d : Machine.Dev) (who : Owner) (p : Page) (off : Nat) (size : Nat := 4) : Bool :=
  d.start.released && p.exists && d.reaches who p && Machine.sizeOk (.reg p off) true size off && d.domainReady p.domain
    && !d.waits p.domain && !d.snapBusy.contains p.idx && !Machine.inert p off size
    && (!Machine.isOrdered p || (!d.orderBarred && !d.noCredit && !d.waits Machine.creditTag))
    && !(Machine.refusesPeer p && who == .peer) && (!Machine.msixArea p off || who == .host)
    && (Machine.openOffset p off || d.mayWrite p who)

/-- What an admitted 32-bit write leaves: its effect, on the holder of the claim the order it becomes where nothing was
refused (R490), and the answer. -/
def Machine.Dev.wrote (d : Machine.Dev) (who : Owner) (p : Page) (off v : Nat)
    (eff : Machine.Dev → Machine.Dev) : Machine.Dev :=
  d.act (Machine.wr who p off v) (Machine.isOrdered p) eff

/-- The commands that wait are well formed. -/
def Machine.State.QueueWf (s : Machine.State) : Prop := ∀ c ∈ s.pending, c.wf = true

/-- A sound state: the sparse maps are canonical. -/
def Machine.State.Sound (s : Machine.State) : Prop := s.dev.Canonical

/-- The state after `n` steps. -/
def Machine.State.steps (s : Machine.State) : Nat → Machine.Answer
  | 0 => .next s
  | n + 1 => match Machine.step s with
    | .next t => t.steps n
    | .fault f => .fault f
    | .refused r => .refused r

/-- The commands of units that run only while the main domains do (R345, R352, R364): frames, schedules, clocks, the
edge, faults, the deep store, the cluster, MACsec, the pair and the update. -/
def Instr.onMain : Instr → Bool
  | .snapshotDone _ | .featuresDone | .rxSof _ | .rxFrameEnd _ _ | .frameStored _ | .classifyFrame _ _ |
  .connectionLookupDone _ _ | .resultHandoff _ | .spillWritten | .refillRead _ _ | .refillDone _ _ _ |
  .spillBudgetCredit | .ageHeadScan | .queueRelease _ _ _ _ | .txFrameDone _ _ _ | .auditCheck _ _ _ _ |
  .auditCensus _ | .portDrainTimeout _ | .portLanesDown _ | .pcsLockChange _ _ | .linkFaultRx _ _ _ | .anDone _ _ |
  .linkUp _ | .mdioPoll _ _ | .mdioDone _ _ | .mmVerifyTx _ | .mmVerifyResponse _ | .plcaBeaconTx _ | .plcaBeaconRx _
  | .plcaBeaconLost _ | .tc10DrainDone _ | .tc10SleepTimeout _ | .tc10WakeTimeout _ | .emDone | .fragRecordExpire |
  .editionCmdDone | .editionSaveDone _ _ | .editionFlip | .editionResume | .ctSweep _ _ | .canLimiterCredit |
  .diagGateExpire _ | .ctQuery _ | .ctFlush _ | .ctDump _ | .tokenRefillTick _ | .frerReset _ | .gateEvent _ _ |
  .gclCopyDone _ | .gclSwap _ | .gclExtensionEnd _ | .histDepthSample _ | .frkTblDone | .schedLoad _ _ | .gptpRx |
  .syncTx _ | .pdelayReqTx | .anchorTimeout _ | .wcUpdate | .latchDone | .evoLeadingEdge _ | .evoTrailingEdge _ |
  .captureEdge _ _ | .canRxValid _ _ _ _ | .canTxDone _ | .canTxError _ _ _ | .busOffRecovered _ | .canIntegrated _ |
  .canTrxSettled _ | .canPinsPass _ | .timedTxDue _ | .rtDone | .linSlotStart _ | .linResponseRx _ _ _ _ _ |
  .trimCheck _ | .pmbusTelemetry _ | .pfailAssert | .pfailFlushed | .pfailDeassert | .tempHigh _ | .clockFault |
  .flashProgramDone _ | .flashEraseDone _ | .pcieLinkChange _ _ _ | .d3hotEntry | .dmaTxFetch _ | .dmaTxFrameIn _ |
  .tsTimeout _ | .dmaItrExpire _ | .mailboxTaken _ | .echo _ | .info _ | .deepStoreGrant _ | .deepStoreReadDone _ _ _
  | .starvation | .arbiterStall | .arbLimitCredit | .mr4Poll _ _ | .patrolScrub | .eccInitGranule | .capRead _ _ |
  .mmuInvDone | .movSlotGrant _ | .movBlockDone _ _ _ _ | .checkpoint _ _ | .pairRestart _ _ _ | .pairResumed _ _ |
  .pairTakeover _ | .slowPathTake _ _ | .reasmTimeout | .restartHistory _ | .macsecSaDone _ | .mkaSet _ | .mkaStatus _
  | .quietTimerExpire _ | .archiveCopy _ | .eventRead _ _ | .archiveNow _ _ | .helloTx | .helloRx _ | .heartbeatTx |
  .heartbeatRx _ | .heartbeatMissed | .orderRx _ _ _ | .orderApply | .carbonRx _ _ _ | .adjAckRx _ _ |
  .adjRetransmit _ _ | .adjTimeRx _ | .adjIrqRx _ _ _ _ _ | .remoteReqRx _ _ _ | .laneDown _ | .claimRound _ _ |
  .joinTimeout | .staleTxTimeout _ | .updBegin _ | .updEraseDone _ | .updBlock _ _ _ | .updFinish _ | .updActivate _ |
  .hitlessStepDone _ | .scheduledActivation | .updConfirm _ | .updCancel _ | .configSave _ _ _ | .compactionDone _ |
  .canRxError _ _ | .linHeaderRx _ _ | .supplyUndervoltage _ | .pcieConfigWrite _ _ | .laneUp _ | .digestOrderTx |
  .adjTimeTx | .carbonGenTx | .mkaTimerDue _ _ | .pairInfo _ | .remoteRespRx _ _ _ => true
  | _ => false

end Sys2Proof
end

