-- ==== Sys2Proof/Certificates/Slice0/Obligations.lean ====
section
/-! DEFINITION. The statements to prove: what each family of commands does, the rules of the page header, the queues and
the tables, and what every step keeps. -/

section

open Sys2Proof Sys2Proof.Machine

/-- With a command waiting, a step is that command on the rest of the queue; commands are taken one at a time, in
order of arrival (R28). -/
def Obligations.StepRunsTheFrontCommand : Prop :=
  ∀ (c : Instr) (rest : List Instr) (s : State), s.pending = c :: rest → step s = exec c { s with pending := rest }

/-- With no command waiting 250 ps pass (the model's choice: assumption 1): registers, counters, the deep store, the
flash and everything that waits stay; of the Sorting Hall only the lists of copies released to the wire may change; what
the last command sent out is gone. -/
def Obligations.EmptyQueuePassesTime : Prop :=
  ∀ (s : State), s.pending = [] →
    ∃ t, step s = .next t ∧ t.pending = [] ∧ t.dev.now = s.dev.now + 1 ∧ t.dev.out = [] ∧ t.dev.regs = s.dev.regs
      ∧ t.dev.counts = s.dev.counts ∧ t.dev.snaps = s.dev.snaps ∧ t.dev.dst = s.dev.dst ∧ t.dev.flash = s.dev.flash
      ∧ t.dev.stalls = s.dev.stalls ∧ (∃ x, t.dev.hall = { s.dev.hall with tx := x }) ∧ t.dev.bur = s.dev.bur ∧ t.dev.cans = s.dev.cans

/-- Every command answers a next state, whatever the state and its operands, and leaves the queue of waiting commands
as it is. -/
def Obligations.NoCommandStops : Prop :=
  ∀ (c : Instr) (s : State), ∃ d : Dev, exec c s = .next (s.ends d) ∧ (s.ends d).pending = s.pending

/-- While the main domains do not run, a command of a unit on them changes nothing: the device is as the command found
it (R345, R352, R364). -/
def Obligations.MainCommandsRestWithoutMains : Prop :=
  ∀ (c : Instr) (s : State), c.onMain = true → s.begun.mainRun = false → exec c s = .next (s.ends s.begun)

/-- The state after reset is sound, and no command waits. -/
def Obligations.ResetIsSound : Prop := State.reset.Sound ∧ State.reset.pending = []

/-- Every step from a sound state leads to a sound state: the register file, the counters, the snapshots, the deep
store and the flash keep their one canonical form. -/
def Obligations.StepKeepsSound : Prop :=
  ∀ (s t : State), s.Sound → step s = .next t → t.Sound

/-- From a sound state every queue of commands runs to its end: as many steps as commands wait meet no fault and no
refusal, empty the queue and leave a sound state. -/
def Obligations.QueueRunsToItsEnd : Prop :=
  ∀ (s : State), s.Sound → ∃ t, s.steps s.pending.length = .next t ∧ t.pending = [] ∧ t.Sound

/-- The canonical form reads as what it came from: every register word, counter, snapshot, byte of the deep store and
byte of the flash. -/
def Obligations.CanonicalFormReadsTheSame : Prop :=
  ∀ (d : Dev) (p : Page) (off a : Nat), p.exists = true → off < pageSpan →
    d.canon.word p off = d.word p off ∧ d.canon.count p off = d.count p off
      ∧ d.canon.snaps.getD (p.key off) 0 = d.snaps.getD (p.key off) 0
      ∧ Memory.read d.canon.dst.mem a = Memory.read d.dst.mem a
      ∧ d.canon.flash.mem.getD a 0xFF = d.flash.mem.getD a 0xFF

/-- A write changes each bit of a register as its access type says (R8): RW takes the value, W1C is cleared by a 1,
W1S set by a 1, WO takes the value, every other bit stays; staged bits wait for COMMIT (R50). -/
def Obligations.BitsFollowTheirType : Prop :=
  ∀ (r : RegDef) (old v i : Nat), i < 32 → r.staged < 2 ^ 32 → r.w1c &&& v < 2 ^ 32 →
    (r.rw &&& r.w1c) = 0 → (r.rw &&& r.w1s) = 0 → (r.w1c &&& r.w1s) = 0 →
    (r.rw &&& r.wo) = 0 → (r.w1c &&& r.wo) = 0 → (r.w1s &&& r.wo) = 0 → r.wo < 2 ^ 32 →
    (r.write old v).testBit i =
      (if r.rw.testBit i && !r.staged.testBit i then v.testBit i
       else if r.w1c.testBit i then old.testBit i && !v.testBit i
       else if r.w1s.testBit i then old.testBit i || v.testBit i
       else if r.wo.testBit i then v.testBit i
       else old.testBit i)

/-- The register maps give every bit of every page one access type at most (R8), and stage only RW bits (R50). -/
def Obligations.EveryBitHasOneType : Prop :=
  ∀ (p : Page) (off : Nat) (r : RegDef), p.reg off = some r →
    (r.rw &&& r.w1c) = 0 ∧ (r.rw &&& r.w1s) = 0 ∧ (r.rw &&& r.ro) = 0 ∧ (r.rw &&& r.wo) = 0 ∧ (r.w1c &&& r.w1s) = 0
      ∧ (r.w1c &&& r.ro) = 0 ∧ (r.w1c &&& r.wo) = 0 ∧ (r.w1s &&& r.ro) = 0 ∧ (r.w1s &&& r.wo) = 0 ∧ (r.ro &&& r.wo) = 0
      ∧ (r.rw ||| r.staged) = r.rw ∧ r.rw ||| r.w1c ||| r.w1s ||| r.ro ||| r.wo < 2 ^ 32

/-- One write of PAGE_CTRL acts in this order: acquisition, COMMIT, EN, release (R53); each part meets the page as the
part before it left it. -/
def Obligations.PageControlOrder : Prop :=
  ∀ (s : State) (who : Owner) (p : Page) (v : BitVec 64),
    let d := s.begun
    let w := v.toNat % 2 ^ 32
    d.admits who p 0x08 = true →
    exec (.registerWrite who (.reg p 0x08) 4 v) s = .next (s.ends (d.act
      { who := who, target := .reg p 0x08, write := true, data := v.toNat } (isOrdered p) (fun d =>
        let d1 := if bits w 9 8 = 1 then d.lockTake who p else d
        let d2 := if bitAt w 4 then d1.commitPage who p else d1
        let d3 :=
          if bits w 1 0 = 1 ∨ bits w 1 0 = 2 then
            (if d2.mayWrite p who then d2.enRequest who.code p (bits w 1 0 == 1) else d2.refuse p)
          else d2
        if bits w 9 8 = 2 then d3.lockDrop who p else d3)))

/-- Of the writes of PAGE_STAT only the lock holder's clears TORN; it clears PAGE_TORN_OWNER with it. A write of 1 to
TORN from anyone else is refused and changes neither (R56). -/
def Obligations.OnlyTheHolderClearsTorn : Prop :=
  ∀ (s : State) (who : Owner) (p : Page) (v : BitVec 64),
    let d := s.begun
    d.admits who p 0x0C = true → bitAt (v.toNat % 2 ^ 32) 8 = true →
    (d.holds p who = true → ∃ d', exec (.registerWrite who (.reg p 0x0C) 4 v) s = .next (s.ends d')
      ∧ d'.flag p R.PAGE_STAT_TORN = false ∧ d'.word p 0x14 = 0)
    ∧ (d.holds p who = false → ∃ d', exec (.registerWrite who (.reg p 0x0C) 4 v) s = .next (s.ends d')
      ∧ d'.flag p R.PAGE_STAT_TORN = d.flag p R.PAGE_STAT_TORN ∧ d'.word p 0x14 = d.word p 0x14
      ∧ d'.flag p R.PAGE_STAT_WRITE_REFUSED = true)

/-- A lock passes by request alone (R49, R54): a free one is granted to the writer and GRANT_SEQ counts; another's
request and another's release are refused and leave PAGE_LOCK and the staging copy; the holder's request changes nothing;
its release frees the lock and empties the staging copy, TORN untouched; a BUR lock that is kept until a commit is done is
not released before (R55; the model's choice: assumption 130). -/
def Obligations.LocksPassByRequest : Prop :=
  ∀ (s : State) (who : Owner) (p : Page),
    let d := s.begun
    d.admits who p 0x08 = true →
    (d.flag p R.PAGE_LOCK_HELD = false → ∃ d', exec (.lockAcquire who p) s = .next (s.ends d')
      ∧ d'.flag p R.PAGE_LOCK_HELD = true ∧ d'.lockOwner p = who.code
      ∧ d'.fld p R.PAGE_LOCK_GRANT_SEQ = (d.fld p R.PAGE_LOCK_GRANT_SEQ + 1) % 256 ∧ d'.staged = d.staged)
    ∧ (d.flag p R.PAGE_LOCK_HELD = true → d.lockOwner p ≠ who.code →
        ∃ d', exec (.lockAcquire who p) s = .next (s.ends d') ∧ d'.word p 0x10 = d.word p 0x10 ∧ d'.staged = d.staged
          ∧ d'.flag p R.PAGE_STAT_WRITE_REFUSED = true)
    ∧ (d.holds p who = true → ∃ d', exec (.lockAcquire who p) s = .next (s.ends d')
      ∧ d'.word p 0x10 = d.word p 0x10 ∧ d'.word p 0x0C = d.word p 0x0C ∧ d'.staged = d.staged)
    ∧ (d.holds p who = false → ∃ d', exec (.lockRelease who p) s = .next (s.ends d')
      ∧ d'.word p 0x10 = d.word p 0x10 ∧ d'.staged = d.staged ∧ d'.flag p R.PAGE_STAT_WRITE_REFUSED = true)
    ∧ (p.kind = .bur → d.bur.ownerGone = true → ∃ d', exec (.lockRelease who p) s = .next (s.ends d')
      ∧ d'.word p 0x10 = d.word p 0x10 ∧ d'.staged = d.staged ∧ d'.flag p R.PAGE_STAT_WRITE_REFUSED = true)
    ∧ (d.holds p who = true → (p.kind = .bur → d.bur.ownerGone = false) → ∃ d', exec (.lockRelease who p) s = .next (s.ends d')
      ∧ d'.flag p R.PAGE_LOCK_HELD = false ∧ d'.lockOwner p = 0 ∧ d'.stagedOf p = []
      ∧ d'.flag p R.PAGE_STAT_TORN = d.flag p R.PAGE_STAT_TORN ∧ d'.word p 0x14 = d.word p 0x14)

/-- While another owner holds the lock of a page, a write of any register of it that is not open to all sets
WRITE_REFUSED and changes no other word, no counter, no staged write and no byte (R51). A write that could change nothing
is ignored (R8, R9), and a GO of an edition command is judged by the command itself (R153). -/
def Obligations.LockBarsOtherOwners : Prop :=
  ∀ (s : State) (who : Owner) (p : Page) (off : Nat) (v : BitVec 64),
    let d := s.begun
    d.start.released = true → p.exists = true → d.reaches who p = true → sizeOk (.reg p off) true 4 off = true →
    d.domainReady p.domain = true → d.waits p.domain = false → d.snapBusy.contains p.idx = false →
    (isOrdered p = true → d.orderBarred = false ∧ d.noCredit = false ∧ d.waits creditTag = false) →
    d.flag p R.PAGE_LOCK_HELD = true → d.lockOwner p ≠ who.code → openOffset p off = false → inert p off 4 = false →
    (p.kind = .bur → off = 0xC8 → bitAt v.toNat 31 = false) →
    ∃ d', exec (.registerWrite who (.reg p off) 4 v) s = .next (s.ends d')
      ∧ d'.flag p R.PAGE_STAT_WRITE_REFUSED = true ∧ d'.staged = d.staged ∧ d'.snaps = d.snaps ∧ d'.stalls = d.stalls
      ∧ d'.hall = d.hall ∧ d'.bur = d.bur ∧ d'.cans = d.cans ∧ d'.dst = d.dst ∧ d'.flash = d.flash
      ∧ (∀ (q : Page) (o : Nat), q.exists = true → o < 0x20000 → q.kind ≠ .hbr → (q = p → o ≠ 0x0C ∧ o ≠ 0x18) →
          d'.word q o = d.word q o ∧ d'.count q o = d.count q o)

/-- A write of a register that only holds its fields, and its frame: the word is the old one with the write applied
(R8), every other word of every page, every counter and every other kind of state stays. -/
def Obligations.RegisterWriteFrame : Prop :=
  ∀ (s : State) (who : Owner) (p : Page) (off : Nat) (r : RegDef) (v : BitVec 64),
    let d := s.begun
    d.admits who p off = true → d.issues = false → p.kind ∈ [.boot, .evo, .cap, .ccl, .dcap, .upd] → recordWords p off = [] →
    0x50 ≤ off → off < 0x20000 → regOf p off = some r → r.writable ≠ 0 → r.staged = 0 →
    d.badWrite who p off (v.toNat % 2 ^ 32) = false →
    ∃ d', exec (.registerWrite who (.reg p off) 4 v) s = .next (s.ends d')
      ∧ d'.word p off = r.write (d.word p off) (v.toNat % 2 ^ 32) % 2 ^ 32
      ∧ (∀ (q : Page) (o : Nat), q.exists = true → o < 0x20000 → (q = p → o ≠ off) → d'.word q o = d.word q o)
      ∧ d'.counts = d.counts ∧ d'.snaps = d.snaps ∧ d'.staged = d.staged ∧ d'.pops = d.pops ∧ d'.stalls = d.stalls
      ∧ d'.hall = d.hall ∧ d'.bur = d.bur ∧ d'.cans = d.cans ∧ d'.pmk = d.pmk ∧ d'.dst = d.dst ∧ d'.flash = d.flash

/-- A write to an offset without a register, or of a register none of whose bits can be written, is ignored, whoever
sends it and whoever holds the lock (R8, R9): no register, counter or byte changes. -/
def Obligations.InertWritesAreIgnored : Prop :=
  ∀ (s : State) (who : Owner) (p : Page) (off : Nat) (v : BitVec 64),
    let d := s.begun
    d.start.released = true → p.exists = true → d.reaches who p = true → sizeOk (.reg p off) true 4 off = true →
    d.domainReady p.domain = true → d.waits p.domain = false → d.snapBusy.contains p.idx = false →
    (∀ r, regOf p off = some r → r.rw = 0 ∧ r.w1c = 0 ∧ r.w1s = 0 ∧ r.wo = 0) →
    ∃ d', exec (.registerWrite who (.reg p off) 4 v) s = .next (s.ends d')
      ∧ d'.regs = d.regs ∧ d'.counts = d.counts ∧ d'.snaps = d.snaps ∧ d'.staged = d.staged ∧ d'.pops = d.pops
      ∧ d'.stalls = d.stalls ∧ d'.hall = d.hall ∧ d'.bur = d.bur ∧ d'.cans = d.cans ∧ d'.pmk = d.pmk ∧ d'.dst = d.dst
      ∧ d'.flash = d.flash

/-- A pop window is a queue (R60, R61): an entry takes the next number behind the others while there is room and is
counted lost where there is none; the head goes when its own SEQ is acknowledged, and any other acknowledge frees nothing. -/
def Obligations.PopWindowIsAQueue : Prop :=
  (∀ (d : Dev) (n : Nat) (bodies : List (List Nat)),
    (d.pop n).entries = [] → (d.pop n).nextSeq < 65536 → bodies.length ≤ popDepth n →
    let d' := bodies.foldl (fun d b => d.popPush n b) d
    (d'.pop n).entries.map (·.body) = bodies
      ∧ (d'.pop n).entries.map (·.seq) = (List.range bodies.length).map (fun i => ((d.pop n).nextSeq + i) % 65536)
      ∧ (d'.pop n).lost = (d.pop n).lost)
  ∧ (∀ (d : Dev) (n : Nat) (body : List Nat), popDepth n ≤ (d.pop n).entries.length →
      ((d.popPush n body).pop n).entries = (d.pop n).entries
        ∧ ((d.popPush n body).pop n).nextSeq = (d.pop n).nextSeq
        ∧ ((d.popPush n body).pop n).lost = min ((d.pop n).lost + 1) 0xFFFFFFFF)
  ∧ (∀ (d : Dev) (n : Nat) (e : PopEntry) (es : List PopEntry), (d.pop n).entries = e :: es →
      (es.head?.map (·.seq)) ≠ some e.seq →
      ((d.popAck n e.seq).pop n).entries = es
        ∧ (((d.popAck n e.seq).popAck n e.seq).pop n).entries = es ∧ (((d.popAck n e.seq).popAck n e.seq).pop n).stale = true)
  ∧ (∀ (d : Dev) (n k m : Nat), n ≠ m → (d.popAck n k).pop m = d.pop m)

/-- Reading a pop window frees nothing, however often it is read (R60), and no read of a register changes a register, a
counter, a table or a queue (R10). A read waits behind a posted write of its requester (R375). -/
def Obligations.ReadsChangeNothing : Prop :=
  ∀ (s : State) (who : Owner) (size : Nat) (w : Fin 64) (p : Page) (off : Nat) (v : BitVec 64),
    let d := s.begun
    d.start.released = true → (∀ x ∈ d.stalls, x.acc.write = true → x.acc.who ≠ who) →
    (w.val < 19 → d.reaches who (popPage w) = true → d.domainReady (popPage w).domain = true → off < 0x400 →
        sizeOk (.pop w off) false size off = true →
      ∃ d', exec (.domainAccessWake who (.addr .bar2 (0x400 * w.val + off)) false size v) s = .next (s.ends d')
        ∧ d'.pops = d.pops ∧ d'.regs = d.regs ∧ d'.counts = d.counts ∧ d'.dst = d.dst ∧ d'.flash = d.flash)
    ∧ (p.exists = true → d.reaches who p = true → d.domainReady p.domain = true → d.waits p.domain = false →
        d.snapBusy.contains p.idx = false → sizeOk (.reg p off) false size off = true →
      ∃ d', exec (.domainAccessWake who (.reg p off) false size v) s = .next (s.ends d')
        ∧ d'.regs = d.regs ∧ d'.counts = d.counts ∧ d'.snaps = d.snaps ∧ d'.staged = d.staged ∧ d'.pops = d.pops
        ∧ d'.stalls = d.stalls ∧ d'.hall = d.hall ∧ d'.bur = d.bur ∧ d'.cans = d.cans ∧ d'.dst = d.dst ∧ d'.flash = d.flash)

/-- A snapshot captures every counter of its page as it stands; counting goes on and leaves it, and so do the snapshots
of other pages; a counter reads the latest snapshot (R58). -/
def Obligations.SnapshotsFreezeTheCounters : Prop :=
  ∀ (s : State) (who : Owner) (p : Page), s.Sound →
    let d := s.begun
    d.admits who p 0x40 = true → d.issues = false → p.kind.counterAreas ≠ [] →
    ∃ d', exec (.snapshot who p) s = .next (s.ends d') ∧ d'.counts = d.counts
      ∧ d'.snapBusy = d.snapBusy ++ [p.idx]
      ∧ (∀ (q : Page) (off : Nat), q.exists = true → off < 0x20000 →
          d'.snaps.getD (q.key off) 0 = if q.idx = p.idx then d.count p off else d.snaps.getD (q.key off) 0)
      ∧ (∀ (q : Page) (o n : Nat) (off : Nat), ((d'.addCount q o n).snaps.getD (p.key off) 0 = d'.snaps.getD (p.key off) 0)
          ∧ (d'.addCount q o n).count q o = (d'.count q o + n) % 2 ^ 64)
      ∧ (∀ off, p.isCounter off = true → absent p off = false → off % 8 = 0 → off < 0x20000 →
          d'.regWord p off = d.count p off % 2 ^ 32 ∧ d'.regWord p (off + 4) = d.count p off / 2 ^ 32 % 2 ^ 32)

/-- One event, one delivery (R44): a bit of IRQ_RAW that is set already changes nothing; one that is not is set, and where
IRQ_MASK lets it through the routes of the page deliver once. -/
def Obligations.RaisedOnceDeliveredOnce : Prop :=
  ∀ (d : Dev) (p : Page) (b : Nat), b < 32 → d.word p 0x18 < 2 ^ 32 → d.word p 0x1C < 2 ^ 32 →
    let d' := d.setWord p 0x18 (d.word p 0x18 ||| 2 ^ b)
    d.raise p b =
      (if bitAt (d.word p 0x18) b then d else if bitAt (d.word p 0x1C) b then d'.deliver p else d')

/-- The frame of the header's small commands: LOCK_ACQUIRE, LOCK_RELEASE, TORN_CLEAR, SNAPSHOT and FAULT_INJECT touch
their page's header alone (LOCK_RELEASE of BUR may also close a shadow, FAULT_INJECT of the time core may raise a fault,
and on the holder of the claim a write becomes an order: these have their own statements). Every other word, every byte
and every other kind of state stays. -/
def Obligations.HeaderCommandsFrame : Prop :=
  ∀ (s : State) (who : Owner) (p : Page) (checker : Byte) (c : Instr),
    c ∈ [Instr.lockAcquire who p, .lockRelease who p, .tornClear who p, .snapshot who p, .faultInject who p checker] →
    let d := s.begun
    p.exists = true → p.kind ≠ .bur → p.kind ≠ .pmk → d.issues = false →
    d.start.released = true → d.reaches who p = true → d.domainReady p.domain = true → d.waits p.domain = false →
    d.snapBusy.contains p.idx = false → (isOrdered p = true → d.orderBarred = false ∧ d.noCredit = false ∧ d.waits creditTag = false) →
    ∃ d', exec c s = .next (s.ends d')
      ∧ (∀ (q : Page) (o : Nat), q.exists = true → o < 0x20000 → q.kind ≠ .hbr → (q = p → 0x50 ≤ o) →
          d'.word q o = d.word q o ∧ d'.count q o = d.count q o)
      ∧ d'.stalls = d.stalls ∧ d'.hall = d.hall ∧ d'.bur = d.bur ∧ d'.cans = d.cans ∧ d'.dst = d.dst ∧ d'.flash = d.flash

/-- What the end of every command leaves as it is: the bytes of the deep store and of the flash, the snapshots, staged
writes, accesses that wait, frames and their queues, the Burin, and the queue of commands. -/
def Obligations.EndOfCommandFrame : Prop :=
  ∀ (s : State) (d : Dev),
    let t := s.ends d
    t.pending = s.pending ∧ t.dev.staged = d.staged ∧ t.dev.stalls = d.stalls ∧ t.dev.hall = d.hall ∧ t.dev.bur = d.bur
      ∧ (∀ a, Memory.read t.dev.dst.mem a = Memory.read d.dst.mem a)
      ∧ (∀ a, t.dev.flash.mem.getD a 0xFF = d.flash.mem.getD a 0xFF)
      ∧ (∀ k, t.dev.snaps.getD k 0 = d.snaps.getD k 0)

/-- Every address decodes to one page (R35, R38, R62): two page sets of BAR0 never answer for one address, the base of a
page and an offset inside it decode to that register, and what lies in no window of BAR0 or BAR2 is unmapped. -/
def Obligations.AddressesDecodeToOnePage : Prop :=
  (∀ (a : Nat) (r r' : Region) (x x' : Page × Nat), r ∈ bar0Stated → r' ∈ bar0Stated →
      r.find a = some x → r'.find a = some x' → x = x')
  ∧ (∀ (r : Region) (n off : Nat), r ∈ bar0Stated → n < r.count → off < r.size →
      resolve (.addr .bar0 (pageBase ⟨r.kind, n⟩ + off)) = .reg ⟨r.kind, n⟩ off)
  ∧ (∀ a, 0x2000000 ≤ a → resolve (.addr .bar0 a) = .unmapped)
  ∧ (∀ a, 0x400 * 19 ≤ a → resolve (.addr .bar2 a) = .unmapped)

/-- A CAN controller offers the message that would win the bus (R307): none in the buffer ranks before it, and of equal
ones it is the earliest. -/
def Obligations.BestMessageIsOffered : Prop :=
  ∀ (l : List TxMsg) (t : TxMsg), bestTx l = some t →
    ∃ a b, l = a ++ t :: b ∧ (∀ u ∈ a, canRank t.msg < canRank u.msg) ∧ ∀ u ∈ b, canRank t.msg ≤ canRank u.msg

/-- The standby keeps the orders it has received by INDEX, each once (R490, R492). -/
def Obligations.OrdersStandByIndex : Prop :=
  ∀ (o : Order) (l : List Order), l.Pairwise (fun x y => x.index < y.index) →
    (orderInsert o l).Pairwise (fun x y => x.index < y.index)
      ∧ (∀ x, x ∈ orderInsert o l ↔ x ∈ l ∨ (x = o ∧ ∀ y ∈ l, y.index ≠ o.index))

/-- A refill tick of a policer (R252): TC gains CIR × 64 ns and stops at CBS; with CF what TC could not take goes to TE,
which gains EIR × 64 ns and stops at EBS; other policers and the tables stay. -/
def Obligations.PolicerBucketsRefill : Prop :=
  ∀ (d : Dev) (i : Nat), d.tcOf i ≤ (d.bucketSizes i).1 → d.teOf i ≤ (d.bucketSizes i).2 →
    let d' := d.policerTick i
    let tc := d.tcOf i + 8 * bits (d.frkWord 1 i 1) 24 0
    let spill := if bitAt (d.frkWord 1 i 0) 29 then tc - (d.bucketSizes i).1 else 0
    d'.tcOf i ≤ (d.bucketSizes i).1 ∧ d'.teOf i ≤ (d.bucketSizes i).2
      ∧ (∀ j, j ≠ i → d'.tcOf j = d.tcOf j ∧ d'.teOf j = d.teOf j) ∧ d'.frk.words = d.frk.words
      ∧ (bitAt (d.frkWord 1 i 0) 31 = true →
          d'.tcOf i = min tc (d.bucketSizes i).1
            ∧ d'.teOf i = min (d.teOf i + spill + 8 * bits (d.frkWord 1 i 2) 24 0) (d.bucketSizes i).2)

/-- A queued flash write that would set no bit is programmed where it says and nowhere else (R380): its bytes read what it
carries, every other byte of the flash, every register and every counter stays. An erase sets its sector to 0xFF and
changes no other byte. -/
def Obligations.FlashProgramsWhereItSays : Prop :=
  ∀ (s : State) (w : FlashWr) (ws : List FlashWr) (sec : Nat),
    let d := s.begun
    d.mainRun = true →
    (d.flash.queue = w :: ws → d.flashHeld d.flash.headAt = false → d.sectorBusy w.addr = false →
      (∀ i, i < w.data.length → d.byteKnown (w.addr + i) = true) → (d.wouldRaise w.addr w.data).1 = false →
      ∃ d', exec (.flashProgramDone true) s = .next (s.ends d') ∧ d'.flash.queue = ws
        ∧ (∀ x, d'.flash.mem.getD x 0xFF =
            if w.addr ≤ x ∧ x < w.addr + w.data.length then w.data.getD (x - w.addr) 0xFF else d.flash.mem.getD x 0xFF)
        ∧ d'.regs = d.regs ∧ d'.counts = d.counts ∧ d'.pops = d.pops ∧ d'.dst = d.dst)
    ∧ (d.flash.queue = w :: ws → d.flashHeld d.flash.headAt = false → d.sectorBusy w.addr = false →
      (∀ i, i < w.data.length → d.byteKnown (w.addr + i) = true) → (d.wouldRaise w.addr w.data).1 = true →
      ∃ d', exec (.flashProgramDone true) s = .next (s.ends d') ∧ d'.flash.queue = ws ∧ d'.flash.mem = d.flash.mem)
    ∧ (d.flash.erasing = some sec → d.flashHeld d.flash.eraseFrom = false →
      ∃ d', exec (.flashEraseDone true) s = .next (s.ends d')
        ∧ (∀ x, d'.flash.mem.getD x 0xFF =
            if x / 65536 = sec then 0xFF else d.flash.mem.getD x 0xFF)
        ∧ d'.flash.queue = d.flash.queue ∧ d'.dst = d.dst ∧ d'.hall = d.hall ∧ d'.bur = d.bur)

/-- The CRC-8 of the management port tells apart every two requests that differ in one byte, and a request with another
CRC changes nothing but its error counter (R371, R372). -/
def Obligations.SpiCrcSeesEveryByte : Prop :=
  (∀ (pre post : List Byte) (x y : Byte), x ≠ y → crc8 (pre ++ x :: post) ≠ crc8 (pre ++ y :: post))
  ∧ (∀ (s : State) (space : Fin 3) (off data : BitVec 32) (crc : Byte),
      let d := s.begun
      d.spiDeep = false → d.start.released = true → d.start.spiUp = true →
      crc8 (spiRequest 3 space off (beBytes 4 data.toNat)) ≠ crc.toNat →
      ∃ d', exec (.spiWrite32 space off data crc) s = .next (s.ends d')
        ∧ d'.regs = d.regs ∧ d'.stalls = d.stalls ∧ d'.staged = d.staged ∧ d'.dst = d.dst ∧ d'.flash = d.flash
        ∧ d'.count hbrPg 0x420 = (d.count hbrPg 0x420 + 1) % 2 ^ 64
        ∧ (∀ (q : Page) (o : Nat), q.key o ≠ hbrPg.key 0x420 → d'.count q o = d.count q o))

/-- Which action a frame takes when a TCAM entry and an exact-match entry hit (R128): with both, the exact-match action
where the TCAM entry has EM_FIRST, else the TCAM action; with one, its action. -/
def Obligations.ExactMatchOrTcam : Prop :=
  ∀ (d : Dev) (m : Made) (key port : Nat),
    let t := d.bur.cur
    let tc := tcamFind t key
    let prof := d.fld burPg (R.BUR_PORT_CFG0_EM_PROF.at port)
    let em := if d.fld burPg (R.BUR_PORT_CFG0_EM_EN.at port) = 1 then t.emFind prof (d.emKey prof key) else none
    (∀ i e, tc = some i → em = some e → bitAt (t.ent tcamWin i 40) 30 = true → (d.lookup m key port).2 = e.action)
      ∧ (∀ i e, tc = some i → em = some e → bitAt (t.ent tcamWin i 40) 30 = false → (d.lookup m key port).2 = i)
      ∧ (∀ i, tc = some i → em = none → (d.lookup m key port).2 = i)
      ∧ (∀ e, tc = none → em = some e → (d.lookup m key port).2 = e.action)

/-- Of several TCAM entries that hit, the lowest index wins (R119): the entry found is valid and hits, and no valid entry
below it hits. -/
def Obligations.LowestTcamEntryWins : Prop :=
  ∀ (t : Tables) (key i : Nat), t.words.rising = true → tcamFind t key = some i →
    tcamHits t key i = true ∧ i < 8192 ∧ bitAt (t.ent tcamWin i 40) 31 = true
      ∧ ∀ j, j < i → bitAt (t.ent tcamWin j 40) 31 = true → tcamHits t key j = false

/-- Lane B searches its inverted copy of the TCAM with the inverted key under the mask as it is written: every entry hits
in lane B exactly where it hits in lane A (R140). -/
def Obligations.LanesSearchAlike : Prop :=
  ∀ (t : Tables) (key i : Nat), i < 8192 → tcamHitsB t key i = tcamHits t key i

/-- A result waits while an earlier stored frame of its port waits for its own (R111): the hand-over then changes
nothing. -/
def Obligations.ResultsKeepStoredOrder : Prop :=
  ∀ (s : State) (a b : List Flight) (fl x : Flight),
    let d := s.begun
    d.mainRun = true → d.bur.flights = a ++ fl :: b → fl.phase = 2 → (∀ y ∈ a, y.frm.id ≠ fl.frm.id) →
    x ∈ a → x.frm.inPort = fl.frm.inPort →
    exec (.resultHandoff fl.frm.id) s = .next (s.ends d)

/-- Bytes written to the deep store are stored where the write says and nowhere else, and read back as written; the store
keeps its canonical form. -/
def Obligations.DeepStoreKeepsBytes : Prop :=
  ∀ (d : Dev) (r : DsReq) (a : Nat), r.write = true → r.addr = some a →
    (∀ x, Memory.read (d.dsServe r).dst.mem x =
      if a ≤ x ∧ x < a + r.data.length then r.data.getD (x - a) 0 else Memory.read d.dst.mem x)
    ∧ (d.dsServe r).memRead a r.data.length = r.data
    ∧ (Memory.wf d.dst.mem = true → Memory.wf (d.dsServe r).dst.mem = true)
    ∧ (d.dsServe r).flash = d.flash ∧ (d.dsServe r).hall = d.hall ∧ (d.dsServe r).pops = d.pops

/-- Counter mode undoes itself, whatever the key, the IV and the first count: deciphering is enciphering (SP 800-38A; the
manual names the standard, assumption 10). -/
def Obligations.CounterModeUndoesItself : Prop :=
  ∀ (key iv msg : List Nat) (c : Nat), key.length = 16 ∨ key.length = 32 →
    ctrMode key iv c (ctrMode key iv c msg) = msg

/-- What the manual states of the state after reset: STBY_POR alone is recorded (R68), every port has the mode of its class
(R88), every fault class its levels (R469), every page is OFF with its lock free, every counter is 0. -/
def Obligations.ResetValues : Prop :=
  let d := State.reset.dev
  d.word sysPg 0x200 = 4
    ∧ (∀ n : Fin 40, d.word (prtPg n) 0x80 =
        if n.val < 8 then 0x61 else if n.val < 24 then 0x52 else if n.val < 32 then 0x1024 else 0x06)
    ∧ (∀ p ∈ allPages, p.exists = true ∧ d.state p = 0 ∧ d.flag p R.PAGE_LOCK_HELD = false ∧ d.fld p R.PAGE_STAT_PENDING = 0
        ∧ d.word p 0x18 = 0 ∧ d.word p 0x1C = 0)
    ∧ (∀ p off, d.count p off = 0)
    ∧ (List.range 12).map (fun c => bits (d.word fltPg (0x100 + 16 * c)) 18 16) = [1, 1, 1, 3, 3, 2, 1, 1, 1, 1, 1, 2]

/-- Every command of the page header takes effect where its checks pass. -/
def Obligations.HeaderCommandsComplete : Prop :=
  ∀ (s : State) (who : Owner) (p : Page) (owner : Owner) (checker : Byte),
    let d := s.begun
    -- LOCK_ACQUIRE takes a free lock (R49); a SCH page counts writes of its list from here (R234)
    (d.admits who p 0x08 = true → d.flag p R.PAGE_LOCK_HELD = false →
      exec (.lockAcquire who p) s = .next (s.ends (d.wrote who p 0x08 0x100 (fun d =>
        (((d.setFlag p R.PAGE_LOCK_HELD true).setFld p R.PAGE_LOCK_OWNER who.code).incWrap p R.PAGE_LOCK_GRANT_SEQ).when
          (p.kind == .sch) (fun d => d.setSched p.inst { d.sched p.inst with adminWrites := 0 })))))
    -- LOCK_RELEASE by the holder discards what is staged (R54), and the holder's open shadow (R160)
    ∧ (d.admits who p 0x08 = true → d.holds p who = true → (p.kind == .bur && d.bur.ownerGone) = false →
      exec (.lockRelease who p) s = .next (s.ends (d.wrote who p 0x08 0x200 (fun d =>
        (((d.unstage p).when (p.kind == .bur && (d.unstage p).ownsShadow who.code) Dev.edAbandon).setFlag p
          R.PAGE_LOCK_HELD false).setFld p R.PAGE_LOCK_OWNER 0))))
    -- COMMIT by the holder applies every staged field (R50, R52)
    ∧ (d.admits who p 0x08 = true → d.holds p who = true → d.flag p R.PAGE_STAT_TORN = false →
        (p.kind == .pmk && d.pmkBad) = false →
      exec (.commit who p) s = .next (s.ends (d.wrote who p 0x08 0x10 (fun d =>
        d.showPin (fun d => (d.applyStaged p).committed d p)))))
    -- a write of 1 to TORN by the holder clears it and PAGE_TORN_OWNER (R56)
    ∧ (d.admits who p 0x0C = true → d.holds p who = true →
      exec (.tornClear who p) s = .next (s.ends (d.wrote who p 0x0C 0x100 (fun d =>
        (d.setFlag p R.PAGE_STAT_TORN false).setWord p 0x14 0))))
    -- a reset event of an owner releases every lock it holds (R55) and ends its Wax contexts (R454)
    ∧ exec (.lockOwnerReset owner) s = .next (s.ends (d.ownerEvent owner.code))
    -- FLT_INJ takes CHECKER and arms it (R143)
    ∧ (d.admits who p 0x28 = true → (checkers p).contains checker.toNat = true → d.armed.any (fun x => x.1 == p.idx) = false →
      exec (.faultInject who p checker) s = .next (s.ends (d.wrote who p 0x28 (2 ^ 31 + checker.toNat) (fun d =>
        let d := d.setFld p R.FLT_INJ_CHECKER checker.toNat
        Dev.injectNow { d with armed := d.armed ++ [(p.idx, checker.toNat)] } p checker.toNat))))
    -- while a checker of the page is armed a second GO is ignored (R143)
    ∧ (d.admits who p 0x28 = true → (checkers p).contains checker.toNat = true → d.armed.any (fun x => x.1 == p.idx) = true →
      exec (.faultInject who p checker) s = .next (s.ends (d.wrote who p 0x28 (2 ^ 31 + checker.toNat) (fun d =>
        d.setFld p R.FLT_INJ_CHECKER checker.toNat))))

/-- Requests ON and OFF of a page, the ends of STARTING and STOPPING, and the same of a DMA queue (R46, R385). -/
def Obligations.EnableCommandsComplete : Prop :=
  ∀ (s : State) (who : Owner) (p : Page) (q : Fin 64) (port : Fin 40) (bus : Fin 2),
    let d := s.begun
    -- ON in OFF, where nothing bars it: the claims are taken, EN shows the request, STARTING begins
    (d.admits who p 0x08 = true → d.mayWrite p who = true → d.state p = 0 → d.enBarred p = false → d.claimClash p = none →
      exec (.pageEnRequest who (.page p) true) s = .next (s.ends (d.wrote who p 0x08 1 (fun d =>
        let d := (d.claimTake p who.code).setFld p R.PAGE_CTRL_EN 1
        ({ d with party := d.party.set p.idx who.code }.setState p 1).starting p))))
    -- OFF in ON, on a page that may go OFF: STOPPING begins
    ∧ (d.admits who p 0x08 = true → d.mayWrite p who = true → d.state p = 2 → staysOn p = false →
      exec (.pageEnRequest who (.page p) false) s = .next (s.ends (d.wrote who p 0x08 2 (fun d =>
        ((d.setFld p R.PAGE_CTRL_EN 2).setState p 3).stopping p))))
    -- the receive and transmit queues of the DMA page
    ∧ (d.admits who dmaPg (0x1000 + 0x40 * q.val) = true → d.isOn dmaPg = true → d.qState q = 0 →
      exec (.pageEnRequest who (.rxq q) true) s = .next (s.ends (d.wrote who dmaPg (0x1000 + 0x40 * q.val) 1 (fun d =>
        let d := (d.setFld dmaPg (R.DMA_Q_CTRL_EN.at q) 1).setQState q 1
        ((d.setFld dmaPg (R.DMA_Q_HEAD_HEAD.at q) 0).setFld dmaPg (R.DMA_Q_TAIL_TAIL.at q) 0).setFld dmaPg
          (R.DMA_Q_STAT_ERR.at q) 0))))
    ∧ (d.admits who dmaPg (0x2000 + 0x40 * q.val) = true → d.qState (64 + q) = 2 →
      exec (.pageEnRequest who (.txq q) false) s = .next (s.ends (d.wrote who dmaPg (0x2000 + 0x40 * q.val) 2 (fun d =>
        (d.setFld dmaPg (R.DMA_Q_CTRL_EN.at (64 + q)) 2).setQState (64 + q) 3))))
    -- STARTING ends in ON; with OFF pending it goes on to STOPPING
    ∧ (d.state p = 1 → (p.kind = .can → p.inst < 2 → d.flag p R.EDG_CAN_STAT_PINS = true) →
      exec (.startComplete (.page p)) s = .next (s.ends (
        let d' := ((d.setFld p R.PAGE_STAT_PENDING 0).setState p 2).started p
        if d.fld p R.PAGE_STAT_PENDING = 2 then ((d'.setFld p R.PAGE_CTRL_EN 2).setState p 3).stopping p else d')))
    ∧ (d.qState q = 1 →
      exec (.startComplete (.rxq q)) s = .next (s.ends (
        let d' := (d.setFld dmaPg (R.DMA_Q_STAT_PENDING.at q) 0).setQState q 2
        if d.qf q R.DMA_Q_STAT_PENDING = 2 then d'.setQState q 3 else d')))
    -- STOPPING ends in OFF and releases the claims; a pending ON is handled as a request in OFF
    ∧ (d.state p = 3 → d.stopReady p = true →
      exec (.stopComplete (.page p)) s = .next (s.ends (
        let d' := (((d.stopped p).claimFree p).setFld p R.PAGE_STAT_PENDING 0).setState p 0
        let d' := (d'.when (p.kind == .adj) Dev.shareBack).when (p.kind == .prt || p.kind == .msc) (fun d =>
          { d with awake := d.awake.filter (· != p.domain) })
        if d.fld p R.PAGE_STAT_PENDING = 1 then (d'.setFld p R.PAGE_CTRL_EN 2).turnOn p (d'.party.getD p.idx 0) else d')))
    ∧ (d.qState q = 3 → (d.dmaQ q).reads = [] → (d.dmaQ q).wbs = [] → d.qf q R.DMA_Q_STAT_PENDING ≠ 1 →
      exec (.stopComplete (.rxq q)) s = .next (s.ends (
        ((d.setFld dmaPg (R.DMA_Q_STAT_PENDING.at q) 0).setDmaQ q {}).setQState q 0)))
    -- the lanes of a stopping port that has sent its last frame power down (R95)
    ∧ (d.mainRun = true → d.state (prtPg port) = 3 → d.stopReady (prtPg port) = true →
      exec (.portLanesDown port) s = .next (s.ends (d.stopEnd (prtPg port))))
    -- the pins of CAN 0 and CAN 1 pass to a controller that has integrated (R30, R31)
    ∧ (d.mainRun = true → d.round ≠ 2 → d.round ≠ 3 → d.npt.relay = none → (d.state (canPg bus) = 1 ∨ d.state (canPg bus) = 2) →
        d.flag (canPg bus) R.EDG_CAN_STAT_PINS = false → d.flag (canPg bus) R.EDG_CAN_STAT_SYNC = true →
      exec (.canPinsPass bus) s = .next (s.ends (
        let d' := d.setClaim (0x10 + bus.val) (claimWord (d.party.getD (canPg bus).idx 0) bus 3)
        let d' := (d'.setFlag (canPg bus) R.EDG_CAN_STAT_PINS true).raise (canPg bus) 6
        let d' := (d'.setCan bus { d'.can bus with trxGoing := none, trxPend := none }).setFld (canPg bus) R.EDG_CAN_TRX_STATE 0
        if d.state (canPg bus) = 1 then d'.startEnd (canPg bus) else d'.trxUpdate bus)))

/-- Feature negotiation, snapshots, and the life of an access: register writes, stalls, pop windows. -/
def Obligations.AccessCommandsComplete : Prop :=
  ∀ (s : State) (who : Owner) (p : Page) (off : Nat) (r : RegDef) (v : BitVec 64) (n : Fin 17) (x : Stall)
    (write : Bool) (size : Nat) (w : Fin 64) (seq : BitVec 16) (set reason bit : Nat),
    let d := s.begun
    -- ACCEPT clears FAILED and the failure's words, and the negotiation runs (R65)
    (d.admits who sysPg 0x120 = true →
      exec (.featuresAccept who) s = .next (s.ends (d.wrote who sysPg 0x120 1 (fun d =>
        { ((d.setFlag sysPg R.SYS_FEATURES_OK_FAILED false).setWord sysPg 0x124 0) with featBusy := some d.wanted }))))
    -- a set that ACCEPT found is in force where it passes every test; one that fails a test leaves the set in force and shows the test
    ∧ (d.mainRun = true → d.featBusy = some set → Dev.featureFault { d with featBusy := none } set = none →
      exec .featuresDone s = .next (s.ends
        { (({ d with featBusy := none } : Dev).setFlag sysPg R.SYS_FEATURES_OK_OK true) with features := set }))
    ∧ (d.mainRun = true → d.featBusy = some set → Dev.featureFault { d with featBusy := none } set = some (reason, bit) →
      exec .featuresDone s = .next (s.ends (
        let d := (({ d with featBusy := none } : Dev).setFlag sysPg R.SYS_FEATURES_OK_FAILED true).setFld sysPg
          R.SYS_FEATURES_FAIL_REASON reason
        (d.setFld sysPg R.SYS_FEATURES_FAIL_BIT bit).showFeatures d.features)))
    -- SNAP captures every counter of a page that has some (R57, R58)
    ∧ (d.admits who p 0x40 = true → p.kind.counterAreas ≠ [] →
      exec (.snapshot who p) s = .next (s.ends (d.wrote who p 0x40 1 (fun d => d.snapGo p 1))))
    ∧ (d.mainRun = true → d.snapBusy.contains p.idx = true →
      exec (.snapshotDone p) s = .next (s.ends
        ((({ d with snapBusy := d.snapBusy.filter (· != p.idx) } : Dev).incWrap p R.SNAP_SEQ_SEQ).releaseHeld
          (snapTag p.idx))))
    -- a 32-bit write of a register that only holds its fields (R8, R50): RW bits take the value, W1C and W1S act,
    -- staged bits are kept for COMMIT
    ∧ (d.admits who p off = true → p.kind ∈ [.boot, .evo, .cap, .ccl, .dcap, .upd] → recordWords p off = [] → 0x50 ≤ off →
        regOf p off = some r → r.writable ≠ 0 → d.badWrite who p off (v.toNat % 2 ^ 32) = false →
        (r.staged ≠ 0 → d.holds p who = true) →
      exec (.registerWrite who (.reg p off) 4 v) s = .next (s.ends (d.act
        { who := who, target := .reg p off, write := true, data := v.toNat } (isOrdered p) (fun d =>
          let d := if r.staged ≠ 0 then d.stage p off r.staged (v.toNat % 2 ^ 32) else d
          d.setWord p off (r.write (d.word p off) (v.toNat % 2 ^ 32))))))
    -- an access to a domain that is not ready is held and fires source 0x2A (R39, R350)
    ∧ (d.start.released = true → p.exists = true → d.reaches who p = true →
        sizeOk (.reg p off) write size off = true → d.domainReady p.domain = false → d.mainRun = true →
        (write = false → ∀ y ∈ d.stalls, y.acc.write = true → y.acc.who ≠ who) →
      exec (.domainAccessWake who (.reg p off) write size v) s = .next (s.ends
        (((d.hold p.domain { who := who, target := .reg p off, write := write, size := size,
                             data := v.toNat }).cnt pwrPg 2).fire 0x2A)))
    -- a read waits behind the posted write of its own requester that was held last (R375)
    ∧ (d.start.released = true → d.stalls.reverse.find? (fun y => y.acc.write && y.acc.who == who) = some x →
      exec (.domainAccessWake who (.reg p off) false size v) s = .next (s.ends
        (d.hold x.domain { who := who, target := .reg p off, write := false, size := size, data := v.toNat })))
    -- a woken domain is ready: what waits for it runs in order (R350)
    ∧ (d.waits n = true → d.mainRun = true → n.val ≠ 5 →
      exec (.domainReady n) s = .next (s.ends (
        let d := (d.stalls.filter (fun x => x.domain == n.val)).foldl (fun d x => d.stallMax x.since) d
        Dev.releaseHeld { d with awake := (d.awake.filter (· != n.val)) ++ [n.val] } n)))
    -- the oldest access that waits for a domain ends after 8 ms with a stall timeout and a POWER fault (R352)
    ∧ (d.oldStall = some x → 8 * msTicks ≤ d.now - x.since →
      exec .accessStallTimeout s = .next (s.ends (
        let d := ({ d with stalls := d.stalls.filter (· != x) } : Dev)
        let d := (d.stallMax x.since).accessFail x.acc 3 0x85
        ((d.cnt pwrPg 3).raise pwrPg 3).fault { cls := 5, page := pwrPg })))
    -- POP_ACK with the head's SEQ drops it; any other sets STALE (R60)
    ∧ (d.start.released = true → w.val < 19 → d.reaches who (popPage w) = true → d.domainReady (popPage w).domain = true →
      exec (.popAck who w seq) s = .next (s.ends ((d.popAck w seq.toNat).written
        { who := who, target := .addr .bar2 (0x400 * w.val + 8), write := true, data := seq.toNat })))

/-- The start sequence and chain addressing (R73 to R83). -/
def Obligations.StartCommandsComplete : Prop :=
  ∀ (s : State) (who : Owner) (e : StepEnd) (n : Fin 16),
    let d := s.begun
    -- a step without effects of its own succeeds at its variant: RESULT 1 at variant 0, 2 at a later one, and the
    -- step after it begins (R73, R75, R79)
    (d.start.released = true → d.start.step ∈ [1, 2, 7, 0xE] → d.start.variant < stepVariants d.start.step → e.good = true →
      exec (.startStepDone e) s = .next (s.ends (
        let d' := (d.stepWrite (if d.start.variant = 0 then 1 else 2) 0).stepFrom d.start.variant
        let d' := d'.withStart (fun x => { x with attempts := x.attempts.erase x.step })
        d'.stepNext)))
    -- step 0x09 loads committed configuration (R66, R71); step 0x0B decodes the BARs (R70)
    ∧ (d.start.released = true → d.start.step = 0xB → d.start.variant < 4 → e.good = true →
      exec (.startStepDone e) s = .next (s.ends (d.stepOk 0 (fun d => d.withStart (fun x => { x with barsDecoded := true })))))
    ∧ (d.start.released = true → d.start.step = 9 → d.start.variant < 3 → e.good = true →
      exec (.startStepDone e) s = .next (s.ends (d.stepOk 0 (fun d => d.cfgLoad e.linear))))
    -- the step watchdog resets the device; the next start begins the step at its next variant (R74)
    ∧ (d.start.released = true → d.start.step ≠ 0 →
      exec .startStepTimeout s = .next (s.ends
        (((d.stepWrite 4 0).stepFrom (d.start.variant + 1)).deviceReset R.SYS_RESET_CAUSE_STEP_WDOG)))
    -- a boot loader fault loses the loader's locks and ends the start in Hold (R55, R72)
    ∧ (d.start.released = true → d.start.step ≠ 0 → d.flag bootPg R.BOOT_STATUS_HOLD = false →
      exec .bootLoaderFault s = .next (s.ends ((d.ownerEvent 8).enterHold 0)))
    -- TOP is kept until the next reset reads it (R75, R78)
    ∧ (d.admits who bootPg 0x8C = true →
      exec (.bootRetryTop who) s = .next (s.ends (d.wrote who bootPg 0x8C 1 (fun d => d.setFlag bootPg R.BOOT_RETRY_TOP true))))
    -- a complete train; CHAIN_IN held low (R81)
    ∧ (d.start.released = true → n.val ≠ 0 →
      exec (.chainTrainRx (.train n)) s = .next (s.ends (d.chainTrain n)))
    ∧ (d.start.released = true → d.start.chained = false → d.start.step ≠ 0xA →
      exec (.chainTrainRx .low) s = .next (s.ends (d.withStart (fun x => { x with head := true }))))
    -- the unit sends as many pulses as its address (R81)
    ∧ (d.start.released = true → d.start.chained = true → d.addr ≠ 0 →
      exec .chainTrainTx s = .next (s.ends (d.emit (.pin 0x23 d.addr))))
    -- without a train by 100 ms the unit takes address 0 and the step is skipped (R82)
    ∧ (d.start.released = true → d.start.step = 0xA → d.start.chained = false →
      exec .chainWaitTimeout s = .next (s.ends ((d.chainTake 0 0 false false).stepSkip 0 true)))

/-- Resets and the loss and return of supplies (R67 to R69, R482). -/
def Obligations.ResetCommandsComplete : Prop :=
  ∀ (s : State) (who : Owner) (ns : Nat) (dbg flr up : Bool) (width : Byte) (speed : Fin 16),
    let d := s.begun
    exec (.vstbyPowerOn dbg) s = .next (s.ends ((d.standbyLost.dbg dbg).supplyFrom 3))
    ∧ exec .vstbyLoss s = .next (s.ends d.standbyLost)
    ∧ exec (.mainPowerOn dbg) s = .next (s.ends (
        let d' := d.dbg dbg
        Dev.deviceReset { d' with supply := { enabled := 0xF, wait := none } } R.SYS_RESET_CAUSE_MAIN_POR d.start.released))
    ∧ (d.start.released = true →
      exec .mainSupplyLoss s = .next (s.ends ((d.rootTorn.docketTorn.pinsDown.mainClear true).withStart (fun x =>
        { x with released := false, step := 0, spiUp := false, barsDecoded := false, cfgLoaded := false,
                 chained := false, train := none, firstTrain := none, head := false }))))
    -- RESET_N low for 1 µs or more resets the device (R67)
    ∧ (1000 ≤ ns → d.start.released = true →
      exec (.resetPin ns dbg) s = .next (s.ends ((d.dbg dbg).deviceReset R.SYS_RESET_CAUSE_PIN)))
    -- DEVICE with KEY 0x5A17 resets the device (R69)
    ∧ (d.admits who sysPg 0x204 = true →
      exec (.deviceResetRequest who 0x5A17#16) s = .next (s.ends (d.wrote who sysPg 0x204 (0x5A17 * 2 ^ 16 + 1) (fun d =>
        d.deviceReset R.SYS_RESET_CAUSE_SOFTWARE))))
    -- PERST# and hot reset take the link down, Function Level Reset keeps it (R67)
    ∧ exec (.pcieReset flr) s = .next (s.ends (d.pcieReset (!flr)))
    -- a reset of the management port releases its locks (R45, R55) and forgets its latest access
    ∧ (d.spiDeep = false → d.start.released = true → d.start.spiUp = true →
      exec .spiPortReset s = .next (s.ends (Dev.ownerEvent { d with spi := {} } 2)))
    -- the link changes: L0, WIDTH and SPEED show it; a link that goes down is a reset event (R67, R383)
    ∧ (d.mainRun = true →
      exec (.pcieLinkChange up width speed) s = .next (s.ends (
        let d' := ((d.setFlag hbrPg R.HBR_LINK_STAT_L0 up).setFld hbrPg R.HBR_LINK_STAT_WIDTH width.toNat).setFld hbrPg
          R.HBR_LINK_STAT_SPEED speed.val
        let d' := d'.when (d'.word hbrPg 0x80 != d.word hbrPg 0x80) (fun d => d.raise hbrPg 3)
        let d' := d'.when (d'.pcie.linkUp && !up) (fun d => d.pcieReset true)
        let d' := { d' with pcie := { d'.pcie with linkUp := up } }
        d'.when (up && d'.pcie.wakeLow) (fun d =>
          let d := { d with pcie := { d.pcie with wakeLow := false } }
          d.emit (.pin 0x22 1)))))
    -- D3hot requests OFF of every DMA queue (R370, R385); a configuration write returns to D0 and sets Bus Master Enable
    ∧ (d.mainRun = true → d.start.barsDecoded = true →
      exec .d3hotEntry s = .next (s.ends ((List.range 128).foldl Dev.qStop { d with pcie := { d.pcie with d3hot := true } })))
    ∧ (d.mainRun = true → d.start.barsDecoded = true →
      exec (.pcieConfigWrite up dbg) s = .next (s.ends (
        let d' := { d with pcie := { d.pcie with d3hot := d.pcie.d3hot && !up, busMaster := dbg } }
        d'.when (!d'.pcie.d3hot && dbg && d'.pcie.linkUp) Dev.releaseMsix)))

/-- Power-state and operating-point requests, supplies and telemetry (R346 to R364). -/
def Obligations.PowerCommandsComplete : Prop :=
  ∀ (s : State) (who : Owner) (op : Fin 4) (settled : Bool) (g : Fin 4) (mv : BitVec 16),
    let d := s.begun
    let cur := d.fld pwrPg R.PWR_STATE_STAT_CUR
    -- with no transition running and another state asked for, the transition begins (R353); Off asks for round 0 (R347)
    -- and forgets wakes latched before
    (d.admits who pwrPg 0x80 = true → d.flag pwrPg R.PWR_STATE_STAT_BUSY = false → d.reqHeld = false →
      let from_ (t : Nat) (d : Dev) : Dev :=
        ((d.setFld pwrPg R.PWR_STATE_REQ_TARGET t).setFlag pwrPg R.PWR_STATE_STAT_BUSY true).setFld pwrPg R.PWR_STATE_STAT_NEXT t
      (cur ≠ 0 → exec (.stateReqRun who) s = .next (s.ends (d.wrote who pwrPg 0x80 (2 ^ 31) (from_ 0))))
      ∧ (cur ≠ 1 → exec (.stateReqIdle who) s = .next (s.ends (d.wrote who pwrPg 0x80 (2 ^ 31 + 1) (from_ 1))))
      ∧ (cur ≠ 4 → d.round = 0 →
          exec (.stateReqOff who) s = .next (s.ends (d.wrote who pwrPg 0x80 (2 ^ 31 + 4) (fun d =>
            ((((d.setFld pwrPg R.PWR_STATE_REQ_TARGET 4).withNpt (fun n => { n with latched := [] })).setFlag pwrPg
              R.PWR_STATE_STAT_BUSY true).setFld pwrPg R.PWR_STATE_STAT_NEXT 4))))))
    -- while one runs, or the device sleeps, a request for a state that is not the one it goes to is pending (R353, R354)
    ∧ (d.admits who pwrPg 0x80 = true → d.flag pwrPg R.PWR_STATE_STAT_BUSY = true ∨ d.reqHeld = true →
        d.fld pwrPg R.PWR_STATE_STAT_NEXT ≠ 0 →
      exec (.stateReqRun who) s = .next (s.ends (d.wrote who pwrPg 0x80 (2 ^ 31) (fun d =>
        ((d.setFld pwrPg R.PWR_STATE_REQ_TARGET 0).setFld pwrPg R.PWR_STATE_STAT_PEND 0).setFlag pwrPg
          R.PWR_STATE_STAT_PEND_VALID true))))
    -- the transition ends: CUR takes NEXT, a POWER event is made, a pending request starts (R353, R477)
    ∧ (d.flag pwrPg R.PWR_STATE_STAT_BUSY = true → d.fld pwrPg R.PWR_STATE_STAT_NEXT = 0 →
      exec .stateTransitionDone s = .next (s.ends (
        let d' := (d.setFld pwrPg R.PWR_STATE_STAT_CUR 0).setFlag pwrPg R.PWR_STATE_STAT_BUSY false
        let d' := (d'.cnt pwrPg 0).raise pwrPg 0
        ((d'.event 3 pwrPg [d'.word pwrPg 0x84, d'.word pwrPg 0x8C]).leaveIdle).stPending)))
    -- an operating point: the transition begins with VID at its code (R353, R357, R358)
    ∧ (d.admits who pwrPg 0x88 = true → d.flag pwrPg R.PWR_OP_STAT_BUSY = false → d.reqHeld = false → d.fld pwrPg R.PWR_OP_STAT_CUR ≠ op.val →
      exec (.opRequest who op) s = .next (s.ends (d.wrote who pwrPg 0x88 (2 ^ 31 + op.val) (fun d =>
        (d.setFld pwrPg R.PWR_OP_REQ_OP op.val).opStart op))))
    ∧ (d.flag pwrPg R.PWR_OP_STAT_BUSY = true →
      exec (.opTransitionDone settled) s = .next (s.ends (
        let d' := d.setFld pwrPg R.PWR_OP_STAT_CUR (d.fld pwrPg R.PWR_OP_STAT_NEXT)
        let d' := ((d'.setFlag pwrPg R.PWR_OP_STAT_BUSY false).cnt pwrPg 1).raise pwrPg 1
        (d'.when (!settled && d'.flag pwrPg R.PWR_VCTRL_PMBUS_EN) Dev.voutErr).opPending)))
    -- TRIM rises by one, is stored, and the present operating point is driven again (R359)
    ∧ (d.mainRun = true → d.fld pwrPg R.PWR_OP_TRIM_TRIM ≠ 3 → d.flag pwrPg R.PWR_OP_STAT_BUSY = false →
      exec (.trimCheck true) s = .next (s.ends (
        let t := d.fld pwrPg R.PWR_OP_TRIM_TRIM
        let d' := d.setFld pwrPg R.PWR_OP_TRIM_TRIM (t + 1)
        let d' := { d' with start := { d'.start with trimStored := t + 1 } }
        let d' := d'.raise pwrPg 4
        if d'.flag pwrPg R.PWR_OP_STAT_BUSY then
          if d'.flag pwrPg R.PWR_OP_STAT_PEND_VALID then d'
          else (d'.setFld pwrPg R.PWR_OP_STAT_PEND (d'.fld pwrPg R.PWR_OP_STAT_NEXT)).setFlag pwrPg R.PWR_OP_STAT_PEND_VALID true
        else d'.opStart (d'.fld pwrPg R.PWR_OP_STAT_CUR))))
    ∧ (d.mainRun = true → d.flag pwrPg R.PWR_VCTRL_PMBUS_EN = true →
      exec (.pmbusTelemetry (some mv)) s = .next (s.ends (d.setFld pwrPg R.PWR_PMB_STAT_VOUT_MV mv.toNat)))
    -- the awaited monitor is good: groups follow in the order 3, 0, 1, 2 (R364)
    ∧ (d.supply.wait = some g.val → g.val ≠ 2 →
      exec (.supplyGood g) s = .next (s.ends (d.supplyFrom (if g.val = 3 then 0 else g.val + 1))))
    -- it is not good in time: every enable is released, a SUPPLY fault is raised, the device is Off (R364)
    ∧ (d.supply.wait = some g.val →
      exec (.supplyTimeout g) s = .next (s.ends (
        let d' := { d with supply := { d.supply with wait := none } }
        let d' := [2, 1, 0, 3].foldl (fun d k => d.wakeEn k false) d'
        let d' := d'.fault { cls := 5, page := pwrPg }
        let d' := (d'.setFld pwrPg R.PWR_STATE_STAT_CUR 4).setFld pwrPg R.PWR_STATE_STAT_NEXT 4
        d'.setRound 0)))
    -- an undervoltage of a group is a SUPPLY fault (R365)
    ∧ (d.mainRun = true →
      exec (.supplyUndervoltage g) s = .next (s.ends ((d.disarm pwrPg g).fault
        { cls := 5, page := pwrPg, checker := g, injected := d.isArmed pwrPg g })))

/-- Wake sources, sleep rounds, partial networks and the awake timer (R316 to R334). -/
def Obligations.SleepCommandsComplete : Prop :=
  ∀ (s : State) (who : Owner) (source : Fin 40) (bus : Fin 24) (id : BitVec 11) (nodes : Word) (groups : BitVec 8)
    (pin : Fin 8) (active : Bool) (src : Fin 48) (node : Fin 32),
    let d := s.begun
    -- a source fires; a CAN source only while its transceiver is in STANDBY or SLEEP (R316)
    ((8 ≤ source.val → source.val < 32 → 2 ≤ d.fld (canPg (source.val - 8)) R.EDG_CAN_TRX_STATE) →
      exec (.wakeSourceFire source) s = .next (s.ends (d.fire source)))
    ∧ (d.fld nptPg R.NPT_ALARM_NS ≠ 0 → d.fld nptPg R.NPT_ALARM_NS ≤ d.carriedNs →
      exec .nptAlarm s = .next (s.ends ((d.setFld nptPg R.NPT_ALARM_NS 0).fire 0x29)))
    -- GO in AWAKE starts PREPARE toward Slumber (R322); with FORCE the round commits at once; READY is cleared
    ∧ (d.admits who nptPg 0x100 = true → d.adjState ≠ 4 → d.round = 0 →
      exec (.sleepGo who 2) s = .next (s.ends (d.wrote who nptPg 0x100 (2 ^ 31 + 2) (fun d =>
        let d := ((d.setFld nptPg R.NPT_SLEEP_STAT_TARGET 2).setFld nptPg R.NPT_READY_READY 0).cnt nptPg 10
        ((d.setRound 1).withNpt (fun n => { n with prepMinPassed := false })).phaseMsg 1)))
      ∧ exec (.sleepGoForce who 2) s = .next (s.ends (d.wrote who nptPg 0x100 (2 ^ 31 + 2 ^ 29 + 2) (fun d =>
        (((d.setFld nptPg R.NPT_SLEEP_STAT_TARGET 2).setFld nptPg R.NPT_READY_READY 0).cnt nptPg 10).commitPoint))))
    -- CANCEL fires source 0x2C and cancels a round in PREPARE (R320, R322)
    ∧ (d.admits who nptPg 0x100 = true →
      exec (.sleepCancel who) s = .next (s.ends (d.wrote who nptPg 0x100 (2 ^ 30) Dev.cancelCmd)))
    ∧ (d.round = 1 → exec .phaseMsgRepeat s = .next (s.ends (d.phaseMsg 1)))
    -- a ready message of a node (R321)
    ∧ (bitAt (d.fld nptPg R.NPT_SLEEP_BUSES_CAN) bus = true →
        id.toNat - id.toNat % 32 = d.fld nptPg R.NPT_SLEEP_ID_READY_BASE →
      exec (.sleepMsgRx bus id) s = .next (s.ends
        (d.setFld nptPg R.NPT_READY_READY (d.fld nptPg R.NPT_READY_READY ||| 2 ^ (id.toNat % 32))).readyCheck))
    ∧ (d.admits who nptPg 0x110 = true →
      exec (.readyReport who nodes) s = .next (s.ends (d.wrote who nptPg 0x110 nodes.toNat (fun d =>
        (d.setFld nptPg R.NPT_READY_READY (d.fld nptPg R.NPT_READY_READY ||| nodes.toNat)).readyCheck))))
    ∧ (d.round = 1 → exec .prepMinExpire s = .next (s.ends (d.withNpt (fun n => { n with prepMinPassed := true })).readyCheck))
    ∧ (d.round = 1 → exec .prepTimerExpire s = .next (s.ends (d.cnt nptPg 8).commitPoint))
    -- entry is complete: the pins pass to the Night Post; to Slumber, with a wake latched, the exit begins (R325, R326)
    ∧ (d.round = 2 → exec .sleepEntryDone s = .next (s.ends (
        let d' := ((d.onPages .can).foldl Dev.canAsleep d).pinsDown
        let d' := [0, 1].foldl Dev.pinsToNp d'
        let d' := if d'.toSlumber then d'.slumberIn
          else if d'.flag pwrPg R.PWR_VCTRL_PMBUS_EN then d' else d'.setVid (d'.vidCode 3)
        let d' := d'.setRound 3
        if d'.npt.latched.isEmpty then d' else d'.exitBegin)))
    -- the exit is complete: the round is AWAKE, CUR reads Run, the awake timer is loaded (R326, R331)
    ∧ (d.round = 4 → d.supply.wait = none → exec .sleepExitDone s = .next (s.ends (
        let d' := ((d.setRound 0).raise nptPg 6).awakeLoad
        let d' := (d'.setFld pwrPg R.PWR_STATE_STAT_CUR 0).setFld pwrPg R.PWR_STATE_STAT_NEXT 0
        let d' := d'.when (d'.toSlumber && d'.isOn pmkPg) (fun d =>
          d.pmkStart.wcResume (allPages.filter (fun p => d.state p != 0)))
        (d'.npCopy.sleepEvent.stPending).opPending)))
    -- partial networks wake and sleep (R328)
    ∧ (d.admits who nptPg 0x158 = true →
      exec (.pnWake who groups) s = .next (s.ends (d.wrote who nptPg 0x158 (2 ^ 31 + groups.toNat) (fun d =>
        let was := d.setFld nptPg R.NPT_PN_CTRL_GROUPS groups.toNat
        (was.setGroups (d.fld nptPg R.NPT_SLEEP_STAT_GROUPS_AWAKE ||| groups.toNat)).members was
          (fun m => (onesOf groups.toNat 8).any (was.inGroup m)))))
      ∧ exec (.pnSleep who groups) s = .next (s.ends (d.wrote who nptPg 0x158 (2 ^ 30 + groups.toNat) (fun d =>
        let was := d.setFld nptPg R.NPT_PN_CTRL_GROUPS groups.toNat
        (was.setGroups (d.fld nptPg R.NPT_SLEEP_STAT_GROUPS_AWAKE &&& (0xFF - groups.toNat))).members was (fun _ => false)))))
    -- a USE source: the awake timer keeps what is left while one is active, and is loaded as the last goes (R331)
    ∧ exec (.useSourceChange pin active) s = .next (s.ends (
        let d' := d.awakeHold (fun d => d.setFlag nptPg (R.NPT_SRC_STAT_ACTIVE.at pin) active)
        if d'.inUse then d'.when (active && d'.flag nptPg (R.NPT_SRC_CFG_USE.at pin)) Dev.quarEndAll
        else d'.when d.inUse Dev.awakeLoad))
    -- the awake timer has run out: the offender is quarantined and recorded, the device sleeps by FORCE (R332)
    ∧ (d.awakeCounts = true → d.awakeLeft = 0 → exec .maxAwake s = .next (s.ends (
        let d' := ((d.awakeHold (fun d => d)).quarOffender d.offenderOf.1 d.offenderOf.2).offender d.offenderOf.1 1 d.offenderOf.2
        let d' := (d'.raise nptPg 4).cnt nptPg 11
        d'.sleepGo (d'.fld nptPg R.NPT_MAX_AWAKE_TARGET) true)))
    ∧ (src.val ≠ 0x2B → d.flag nptPg (R.NPT_SRC_STAT_QUAR.at src) = true →
      exec (.quarantineEnd src node) s = .next (s.ends (d.quarEnd src)))
    ∧ exec .wakeHourRestart s = .next (s.ends ((List.range 48).foldl
        (fun d i => d.setFld nptPg (R.NPT_SRC_STAT_WAKES_HOUR.at i) 0) d))

/-- The commands of the switch hall (R201 to R229): frames arrive, are stored, metered, spilled, refilled, aged,
released and counted, and the audit checks the accounts. -/
def Obligations.HallCommandsComplete : Prop :=
  ∀ (s : State) (who : Owner) (p : Fin 40) (n : Fin 43) (q : Fin 8) (e : RxEnd) (r : RxCur) (frame : Nat) (f : Machine.Frm)
    (fl : Flight) (c : Copy) (rest : List Copy) (kind : Fin 5) (island : BitVec 8) (account : BitVec 16) (diff : Int)
    (corrected uncorr : Bool) (host : HostSide) (frags colls : Nat) (w : Nat × Nat) (ws : List (Nat × Nat)) (t : TxCopy)
    (ts : List TxCopy) (x : TxSof) (m : Metered) (dm : Dev),
    let d := s.begun
    let i := qIdx n q
    -- a delimiter at an enabled MAC takes both time stamps (R92, R269)
    (d.mainRun = true → d.looped p = false → d.macReceives p = true → exec (.rxSof p) s = .next (s.ends (
        let cur : RxCur :=
          { stamp0 := d.rxStamp p 0
            stamp1 := d.rxStamp p 1
            at0 := d.rxPoint p
            deep := d.flag (prtPg p) R.PRT_CTRL_CLASS_MODE
            maxLen := d.fld (prtPg p) R.PRT_FRAME_MAX_LEN
            stopped := d.state (prtPg p) == 3 }
        d.setPort p { d.port p with rx := some cur })))
    -- a good frame at a port without MACsec is taken by the hall, unless it belongs to gPTP (R92, R267)
    ∧ (d.mainRun = true → d.looped p = false → (d.port p).rx = some r →
        let d' := d.setPort p { d.port p with rx := none }
        d'.macReceives p = true → r.stopped = false → e.assemblyErr = false → rxFails e r.maxLen = none → 24 ≤ p.val →
        ((d'.rxSymbols p e).flag pmkPg R.PMK_GPTP_CFG_EN && isGptp e.data) = false →
      exec (.rxFrameEnd p e) s = .next (s.ends ((d'.rxSymbols p e).rxTake p r e.data)))
    -- a port in loopback hears its own frames alone (R88; the model's choice: assumption 143)
    ∧ (d.mainRun = true → d.looped p = true →
      exec (.rxSof p) s = .next (s.ends d) ∧ exec (.rxFrameEnd p e) s = .next (s.ends d))
    -- a stored frame counts RX_FRAMES and RX_BYTES and its header goes to the Burin (R106, R164)
    ∧ (d.mainRun = true → d.hall.stored.get? frame = some f → (f.inPort < 40 → d.isoPort f.inPort = false) →
      d.stalled (portIsland f.inPort) 0 = false → d.stalled 0 1 = false →
      let d' := d.withHall (fun h => { h with stored := h.stored.erase frame })
      let d' := (d'.prtCnt f.inPort 0).prtCnt f.inPort 1 f.len
      d'.isOn shlPg = true → d'.isOn burPg = true →
      exec (.frameStored frame) s = .next (s.ends (
        let f' := { f with storedAt := d'.now, rxMirror := d'.rxMirrorOf f.inPort, mirrors := d'.mirrorsNow }
        let g : Flight := { frm := f', pipe := d'.pipeFor, at0 := d'.now, portCfg := d'.burPortCfg f.inPort }
        d'.withBur (fun b => { b with flights := b.flights ++ [g] }))))
    -- a checked DROP result is handed off unmetered (R197)
    ∧ (d.mainRun = true → d.bur.flights.find? (fun x => x.frm.id == frame && x.phase == 2) = some fl →
        d.resultWaits fl = false → d.stalled 1 0 = false → fl.frm.res.destType = 0 →
      exec (.resultHandoff frame) s = .next (s.ends (
        (d.withBur (fun b => { b with flights := b.flights.filter (fun x => x.frm.id != frame) })).admitAll fl.frm
          fl.frm.sessions [])))
    -- any other is metered and asks for its copies (R206, R230)
    ∧ (d.mainRun = true → d.bur.flights.find? (fun x => x.frm.id == frame && x.phase == 2) = some fl →
        d.resultWaits fl = false → d.stalled 1 0 = false → fl.frm.res.destType ≠ 0 →
        (d.withBur (fun b => { b with flights := b.flights.filter (fun x => x.frm.id != frame) })).meter fl.frm = (some m, dm) →
      exec (.resultHandoff frame) s = .next (s.ends
        ((dm.copiesOf fl.frm m).2.admitAll fl.frm fl.frm.sessions (dm.copiesOf fl.frm m).1)))
    -- a spill write done: the frame's cells are free (R214); the write of a copy that is revoked or aged is withdrawn (R407)
    ∧ (d.mainRun = true → d.hall.writing = w :: ws → d.stalled 0 0x0E = false →
      exec .spillWritten s = .next (s.ends (
        let gone := (d.queue w.1).spill.any (fun c => c.frm.id == w.2 && (d.revoked c.frm.res || d.aged w.1 c))
        let d' := d.withHall (fun h => { h with writing := ws })
        (if gone then d'.dsWithdraw 0 w.2 else d'.dsFinish 0 w.2).endCopy w.2)))
    -- the head of a spilled queue is read back within the read budget (R213, R214)
    ∧ (d.mainRun = true → (d.queue i).spill = c :: rest → (d.queue i).refill = none →
        d.hall.writing.contains (i, c.frm.id) = false → d.stalled 0x0E 0 = false →
        d.depth i < (d.fld shlPg (R.SHL_Q_SPILL_ON_ON.at i) + 1) / 2 → c.cells ≤ d.sharedFree → 0 < d.hall.readBudget →
      exec (.refillRead n q) s = .next (s.ends (
        let d' := (d.setQueue i { d.queue i with spill := rest, refill := some c }).withHall (fun h => { h with
          readBudget := h.readBudget - 2048 * c.blocks })
        (((List.range c.blocks).foldl (fun d _ => d.dsAsk { who := 1, at0 := 0, tag := c.frm.id }) d').shlCnt 8).lowWater)))
    -- a frame read back is the last of its queue on chip again (R214)
    ∧ (d.mainRun = true → (d.queue i).refill = some c →
        let d' := (d.dsTake 1 c.frm.id).2.setQueue i { d.queue i with refill := none }
        (d.dsTake 1 c.frm.id).1 = false → d'.aged i c = false →
      exec (.refillDone n q false) s = .next (s.ends (
        let (k, d'') := d'.newFrame
        let held : Held := { inPort := c.frm.inPort, cells := c.cells, copies := 1 }
        let d'' := d''.withHall (fun h => { h with held := h.held.set k held })
        (d''.setQueue i { d''.queue i with chip := (d''.queue i).chip ++ [{ c with blocks := 0, hold := some k }] }).lowWater)))
    -- every 100 ns both budgets are credited, to one credit at most (R213)
    ∧ (d.mainRun = true → d.spillOn = true →
      exec .spillBudgetCredit s = .next (s.ends (
        let credit : Int := 100 * d.spillGbps
        d.withHall (fun h => { h with writeBudget := min credit (h.writeBudget + credit),
                                      readBudget := min credit (h.readBudget + credit) }))))
    -- the head of every queue is examined for age (R216)
    ∧ (d.mainRun = true → exec .ageHeadScan s = .next (s.ends ((d.hall.queues.map (·.1)).foldl Dev.examine d)))
    -- a port releases the head of the queue its selection picks (R215, R227)
    ∧ (d.mainRun = true → (n.val < 40 → d.state (prtPg n) ≠ 0) → d.mayRelease n = true →
      let d' := (d.pick n (d.queued n + 1)).2
      ∀ qc, (d.pick n (d.queued n + 1)).1 = some qc →
        let d2 := d'.released n qc.1 qc.2 qc.2.read.2
        d2.shlInject qc.2 = none →
      exec (.queueRelease n corrected uncorr host) s = .next (s.ends (
        let d2 := d2.when corrected (fun d => d.shlCnt 16)
        let d2 := d2.when uncorr (fun d => ((d.shlCnt 15).raise shlPg 3).fault { cls := 0, page := shlPg, checker := 0x10 })
        (d2.toPort n qc.1 qc.2 qc.2.read.1 uncorr host).lowWater)))
    -- a frame has left: it is on the wire, counted and time stamped (R106, R269); a looped-back one is received (R88)
    ∧ (d.mainRun = true → d.txOf p = t :: ts → d.portUp p = true → d.forcedIdle p = false → t.cut = false →
        d.looped p = false → (d.txSof p t).sof = some x →
      exec (.txFrameDone p frags colls) s = .next (s.ends (
        let d' := ((d.setTx p (d.txNext p ts)).merge p).emit (.frame p t.bytes t.bad)
        let d' := if t.bad then d' else (d'.prtCnt p 8).prtCnt p 9 (t.bytes.length + 4)
        let d' := d'.when (d.txSof p t).pre (fun d => d.prtCnt p 17 frags)
        let d' := d'.when (decide (32 ≤ p.val)) (fun d => d.prtCnt p 23 colls)
        ((d'.txSettle t.copy.frm.id 0 (some (x.stamp0.toNat, p))).gptpStamped p x t.copy.frm.id).endOf t.copy)))
    -- the audit: the accounts are added up and held against the total and what was found before (R225, R226)
    ∧ (d.mainRun = true → d.isArmed shlPg kind = false → d.isArmed shlPg 5 = false →
      let d1 := d.disarm shlPg kind
      let expected : Int := d.auditTotal kind + d.hall.drift.getD kind.val 0
      let found := d1.auditSum kind + diff
      let checked := (d1.setFld shlPg (R.SHL_AUDIT_SUM_SUM.at kind) (wrapTo 32 (found + 0))).incWrap shlPg
        (R.SHL_AUDIT_CHECKS_COUNT.at kind)
      exec (.auditCheck kind island account diff) s = .next (s.ends (if found = expected then checked
        else checked.auditDiff kind kind island.toNat account.toNat (wrapTo 32 expected) (found - expected) false))
      ∧ exec (.auditCensus diff) s = .next (s.ends (if diff = 0 then d.disarm shlPg 5
        else (d.disarm shlPg 5).auditDiff 0 5 0 0xFFFF (wrapTo 32 (98304 + (d.disarm shlPg 5).hall.drift.getD 0 0)) diff false)))
    -- RESTART sets SHL_LOW_WATER to the cells free now (R217)
    ∧ (d.admits who shlPg 0x98 = true → exec (.lowWaterRestart who) s = .next (s.ends
        (d.wrote who shlPg 0x98 (2 ^ 31) (fun d => d.setFld shlPg R.SHL_LOW_WATER_LOW d.sharedFree))))

/-- Link, MDIO, MAC merge, PLCA and TC10 commands of the Ethernet ports (R85 to R107). -/
def Obligations.PortCommandsComplete : Prop :=
  ∀ (s : State) (who : Owner) (p : Fin 40) (v : Fin 24) (k : Fin 8) (m : Fin 4) (lock lf rf c45 acc : Bool) (speed : Fin 16)
    (reads : List (Nat × Nat × Nat)) (phyad devad : Fin 32) (reg answer : BitVec 16) (run : MdioRun),
    let d := s.begun
    let g := prtPg p
    -- a drain ends with its frames discarded, counted in TX_STOP_DISCARD (R95)
    (d.mainRun = true → d.state g = 3 → exec (.portDrainTimeout p) s = .next (s.ends (d.flushPort p 12)))
    -- PCS_LOCK, link faults and the auto-negotiation result; UP falls where a condition no longer holds (R96 to R98)
    ∧ (d.mainRun = true → d.state g ≠ 0 →
      exec (.pcsLockChange p lock) s = .next (s.ends ((d.setFlag g R.PRT_LINK_STAT_PCS_LOCK lock).linkCheck p)))
    ∧ (d.mainRun = true → d.state g ≠ 0 → d.hasFaultSignal p = true →
      exec (.linkFaultRx p lf rf) s = .next (s.ends (d.faultBits p lf rf)))
    ∧ (d.mainRun = true → d.state g ≠ 0 → d.flag g R.PRT_MODE_AN = true →
      exec (.anDone p speed) s = .next (s.ends ((d.setFlag g R.PRT_LINK_STAT_AN_DONE true).setFld g R.PRT_LINK_STAT_RES_SPEED
        (min speed.val (d.fld g R.PRT_MODE_SPEED)))))
    ∧ (d.mainRun = true → d.isOn g = true → d.linkGood p = true → d.flag g R.PRT_LINK_STAT_UP = false →
      exec (.linkUp p) s = .next (s.ends (d.upRises p)))
    -- MDIO: a poll of every port of the master, a write, a read, the end of one (R104)
    ∧ (d.mainRun = true → d.fld (prtPg 0) (R.PRT_MDIO_CFG_POLL_MS.at m) ≠ 0 →
      exec (.mdioPoll m reads) s = .next (s.ends ((d.polled m).foldl (fun d n =>
        match reads.find? (fun r => r.1 == n) with
        | some r => d.pollPort n r.2.1 r.2.2
        | none => d.pollPort n 0xFFFF 0xFFFF) d)))
    ∧ (d.admits who (prtPg 0) (0x804 + 0x40 * m) = true → d.flag (prtPg 0) (R.PRT_MDIO_STAT_BUSY.at m) = false →
      let go (w : Bool) (op : Nat) (d : Dev) : Dev :=
        let d := d.setWord (prtPg 0) (0x804 + 0x40 * m) (mdioCmd op c45 phyad devad reg % 2 ^ 30 &&& (0xFFFFFFFF - 0x10000))
        let data := d.fld (prtPg 0) (R.PRT_MDIO_DATA_DATA.at m)
        let d := { d with mdio := d.mdio.set m { write := w, c45 := c45, phyad := phyad, devad := devad, reg := reg.toNat, data := data } }
        (d.setFlag (prtPg 0) (R.PRT_MDIO_STAT_BUSY.at m) true).emit (.mdio m w c45 phyad devad reg.toNat (if w then data else 0))
      exec (.mdioWrite who m c45 phyad devad reg) s = .next (s.ends (d.wrote who (prtPg 0) (0x804 + 0x40 * m)
        (mdioCmd 0 c45 phyad devad reg) (go true 0)))
      ∧ exec (.mdioRead who m c45 phyad devad reg) s = .next (s.ends (d.wrote who (prtPg 0) (0x804 + 0x40 * m)
        (mdioCmd 1 c45 phyad devad reg) (go false 1))))
    ∧ (d.mainRun = true → d.mdio.get? m = some run →
      exec (.mdioDone m answer) s = .next (s.ends (
        let d' := { d with mdio := d.mdio.erase m }
        let d' := d'.when (!run.write) (fun d => d.setFld (prtPg 0) (R.PRT_MDIO_DATA_DATA.at m) answer.toNat)
        ((d'.setFlag (prtPg 0) (R.PRT_MDIO_STAT_BUSY.at m) false).setFlag (prtPg 0) (R.PRT_MDIO_STAT_DONE.at m) true).raise
          (prtPg 0) 8)))
    -- MAC merge verification: three tries, then failed; a response ends it (R101)
    ∧ (d.mainRun = true → d.flag (prtPg v) R.PRT_LINK_STAT_UP = true → d.fld (prtPg v) R.PRT_MM_STAT_VERIFY = 1 →
        (d.port v).verifyTries < 3 →
      exec (.mmVerifyTx v) s = .next (s.ends (((d.setFld (prtPg v) R.PRT_MM_STAT_VERIFY 2).setPort v
        { d.port v with verifyTries := (d.port v).verifyTries + 1 }).emit (.mmVerify v))))
    ∧ (d.mainRun = true → d.fld (prtPg v) R.PRT_MM_STAT_VERIFY = 2 →
      exec (.mmVerifyResponse v) s = .next (s.ends ((d.setFld (prtPg v) R.PRT_MM_STAT_VERIFY 3).mmActive v)))
    -- PLCA beacons: node 0 sends, the others hear or lose them (R103)
    ∧ (d.mainRun = true → d.plcaOn (32 + k.val) = true → d.fld (prtPg (32 + k.val)) R.PRT_PLCA_NODE_ID = 0 →
      exec (.plcaBeaconTx k) s = .next (s.ends (((d.setFlag (prtPg (32 + k.val)) R.PRT_PLCA_STAT_ACTIVE true).prtCnt
        (32 + k.val) 22).emit (.beacon (32 + k.val)))))
    ∧ (d.mainRun = true → d.plcaOn (32 + k.val) = true → d.fld (prtPg (32 + k.val)) R.PRT_PLCA_NODE_ID ≠ 0 →
      exec (.plcaBeaconRx k) s = .next (s.ends ((d.setFlag (prtPg (32 + k.val)) R.PRT_PLCA_STAT_ACTIVE true).prtCnt
        (32 + k.val) 22)))
    ∧ (d.mainRun = true → d.plcaOn (32 + k.val) = true → d.fld (prtPg (32 + k.val)) R.PRT_PLCA_NODE_ID ≠ 0 →
        d.flag (prtPg (32 + k.val)) R.PRT_PLCA_STAT_ACTIVE = true →
      exec (.plcaBeaconLost k) s = .next (s.ends ((d.setFlag (prtPg (32 + k.val)) R.PRT_PLCA_STAT_ACTIVE false).raise
        (prtPg (32 + k.val)) 7)))
    -- TC10: a sleep command drains the port, a wake command wakes the PHY; the ends and the time limits (R105)
    ∧ (d.admits who g 0xE0 = true → d.isOn g = true → d.tc10 p = 0 →
      exec (.tc10SleepCmd who p acc) s = .next (s.ends (d.wrote who g 0xE0 (b2n acc * 2 ^ 8 + 1) (fun d =>
        let d := d.setFlag g R.PRT_TC10_CTRL_ACCEPT_REMOTE acc
        (d.setTc10 p 1).setPort p { d.port p with closed := true, tc10Drain := true }))))
    ∧ (d.admits who g 0xE0 = true → d.isOn g = true → d.tc10 p = 2 →
      exec (.tc10WakeCmd who p acc) s = .next (s.ends (d.wrote who g 0xE0 (b2n acc * 2 ^ 8 + 2) (fun d =>
        let d := d.setFlag g R.PRT_TC10_CTRL_ACCEPT_REMOTE acc
        (d.setTc10 p 3).tc10Write p (d.fld g R.PRT_TC10_VAL_WAKE_VALUE)))))
    ∧ (d.mainRun = true → (d.port p).tc10Drain = true →
      exec (.tc10DrainDone p) s = .next (s.ends (
        let d' := (d.setPort p { d.port p with tc10Drain := false }).flushPort p 12
        d'.tc10Write p (d'.fld g R.PRT_TC10_VAL_SLEEP_VALUE))))
    ∧ (d.mainRun = true → d.tc10 p = 1 →
      exec (.tc10SleepTimeout p) s = .next (s.ends ((((d.setTc10 p 0).tc10Write p (d.fld g
        R.PRT_TC10_VAL_WAKE_VALUE)).reopen p).raise g 6)))
    ∧ (d.mainRun = true → d.tc10 p = 3 →
      exec (.tc10WakeTimeout p) s = .next (s.ends (((d.setTc10 p 0).reopen p).linkDown p)))

/-- The commands of the Burin, of editions and of the firewall (R108 to R197). -/
def Obligations.ClassifierCommandsComplete : Prop :=
  ∀ (s : State) (who : Owner) (off : BitVec 32) (data : BitVec 64) (frame bucket : Nat) (fl : Flight) (u : Upset)
    (revoke selfTest : Bool) (bad : Option (Fin 8)) (k : Fin 3) (seconds : BitVec 16) (run : Nat × Nat × List Nat)
    (t : Tables) (table : TabWin) (load : Nat × Nat × Nat),
    let d := s.begun
    let busy (op : Nat) (d : Dev) : Dev :=
      let d := (d.setFld burPg R.BUR_EM_CMD_OP op).setFlag burPg R.BUR_EM_STAT_BUSY true
      let ws := (List.range 8).map (fun k => d.fld burPg (R.BUR_EM_ENTRY_WORD.at k))
      d.withBur (fun b => { b with emRun := some (op, who.code, ws) })
    -- GO of an exact-match command by the lock's holder takes the eight words (R124)
    (d.admits who burPg 0x120 = true → d.holds burPg who = true → d.flag burPg R.BUR_EM_STAT_BUSY = false →
        d.flag burPg R.BUR_EDITION_STAT_BUSY = false →
      exec (.emInsert who) s = .next (s.ends (d.wrote who burPg 0x120 (2 ^ 31) (busy 0)))
      ∧ exec (.emDelete who) s = .next (s.ends (d.wrote who burPg 0x120 (2 ^ 31 + 1) (busy 1)))
      ∧ exec (.emLookup who) s = .next (s.ends (d.wrote who burPg 0x120 (2 ^ 31 + 2) (busy 2))))
    -- it completes: BUSY clears, DONE is set, RESULT tells, EM_DONE is raised (R124), and the order
    -- digest takes the RESULT in (R499)
    ∧ (d.mainRun = true → d.bur.emRun = some run →
      exec .emDone s = .next (s.ends (
        let r := d.emRunOp run.1 run.2.1 run.2.2
        let d' := r.2.withBur (fun b => { b with emRun := none })
        ((((d'.setFlag burPg R.BUR_EM_STAT_BUSY false).setFlag burPg R.BUR_EM_STAT_DONE true).setFld
          burPg R.BUR_EM_STAT_RESULT r.1).raise burPg 1).digestResult 2 r.1)))
    -- the oldest fragment record goes (R113)
    ∧ (d.mainRun = true → exec .fragRecordExpire s =
        .next (s.ends ((d.withBur (fun b => { b with frags := b.frags.drop 1 })).fragShow)))
    -- an aligned 64-bit write of a table window by the shadow's owner goes to the shadow (R149, R150)
    ∧ (let p := bar4Page off.toNat
        let a : Access := { who := who, target := .addr .bar4 off.toNat, write := true, size := 8, data := data.toNat }
        d.start.released = true → bar4Mapped off.toNat = true → d.reaches who p = true → off.toNat % 8 = 0 →
        d.domainReady p.domain = true → d.orderBarred = false → d.waits p.domain = false → d.noCredit = false →
        d.waits creditTag = false →
      (exec (.tableWindowWrite who off data) s = .next (s.ends (d.act a true (fun d =>
        d.bar4Write who.code off.toNat data.toNat))))
      ∧ (d.ownsShadow who.code = true → d.frozen = false → emWin.has off.toNat = false → inLoad off.toNat = false →
          findTab off.toNat = some table → d.bur.shadow = some t →
        d.bar4Write who.code off.toNat data.toNat = match t.write64 table off.toNat data.toNat with
          | some t => (d.withBur (fun b => { b with shadow := some t })).shadowCount 1
          | none => d.refuse burPg))
    -- a waiting frame is classified, unless the pipelines are paused (R112, R127, R155) or an earlier frame of its
    -- port has not got its slot (the model's choice: assumption 147)
    ∧ (d.mainRun = true → d.bur.flights.find? (fun x => x.frm.id == frame && x.phase == 0) = some fl →
        d.bur.paused = false → d.slotWaits fl = false →
      exec (.classifyFrame frame u) s = .next (s.ends (d.classify fl u)))
    -- its connection read returns, with no frame before it at the same bucket (R183)
    ∧ (d.mainRun = true → d.bur.flights.find? (fun x => x.frm.id == frame && x.phase == 1) = some fl →
        d.ctBehind fl = false →
      exec (.connectionLookupDone frame u) s = .next (s.ends (d.ctDone fl u)))
    -- edition commands are taken while none runs; the party's rights are checked by the command itself, whoever holds
    -- the lock (R152, R153)
    ∧ (d.start.released = true → d.reaches who burPg = true → d.domainReady burPg.domain = true →
        d.waits burPg.domain = false → d.snapBusy.contains burPg.idx = false → d.orderBarred = false → d.noCredit = false →
        d.waits creditTag = false → d.flag burPg R.BUR_EDITION_STAT_BUSY = false →
      let starts (op : Nat) (d : Dev) : Dev :=
        let d := d.edAccept (2 ^ 31 + op)
        d.withBur (fun b => { b with edRun := some (op, who.code, d.edCheck who op) })
      let v := 2 ^ 31 + b2n revoke * 2 ^ 8 + 2
      exec (.editionOpen who) s = .next (s.ends (d.wrote who burPg 0xC8 (2 ^ 31 + 1) (starts 1)))
      ∧ exec (.editionAbandon who) s = .next (s.ends (d.wrote who burPg 0xC8 (2 ^ 31 + 3) (starts 3)))
      ∧ exec (.editionLoad who) s = .next (s.ends (d.wrote who burPg 0xC8 (2 ^ 31 + 4) (starts 4)))
      ∧ exec (.editionCommit who revoke selfTest) s = .next (s.ends (d.wrote who burPg 0xC8 v (fun d =>
          (d.edAccept v).edCommit who revoke selfTest))))
    -- a refused OPEN, ABANDON or LOAD ends with its reason; a granted OPEN makes the shadow (R153)
    ∧ (d.mainRun = true → d.bur.edRun = some load →
      (load.2.2 ≠ 0 → exec .editionCmdDone s = .next (s.ends (d.edFinish load.2.2 0)))
      ∧ (load.1 = 1 → load.2.2 = 0 → exec .editionCmdDone s = .next (s.ends ((d.edOpen load.2.1).edFinish 0 0))))
    -- the flip, once the paused pipelines are empty (R154, R155)
    ∧ (d.mainRun = true → d.bur.paused = true → d.bur.flipped = false → d.pipesEmpty = true →
      exec .editionFlip s = .next (s.ends d.edFlip))
    -- the sweeper visits a bucket; after the last it shows its period (R180, R185)
    ∧ (d.mainRun = true →
      exec (.ctSweep bucket bad) s = .next (s.ends (
        let swept := (d.fwl.conns.filter (fun c => c.bucket == bucket)).foldl (fun d' c =>
          if bad.map (·.val) = some c.slot then d'.ctBad c 2 0x0A
          else if c.epoch ≠ d'.ctEpoch then d'.ctFree c
          else if d'.ctExpired c then d'.ctExpire c
          else if decide (2 ^ 30 ≤ (d.commits + 2 ^ 32 - c.gen) % 2 ^ 32) then (d'.ctRecheck c).2
          else d') d
        if bucket + 1 = 2 ^ (swept.ctLog - 3) then
          (swept.setFld fwlPg R.FWL_CT_SWEEP_MS ((swept.now - swept.fwl.sweepAt) / msTicks)).withFwl
            (fun f => { f with sweepAt := swept.now })
        else swept)))
    -- every CAN limiter is credited (R189)
    ∧ (d.mainRun = true → exec .canLimiterCredit s = .next (s.ends (d.limiters.foldl (fun d n =>
        let w := d.bur.cur.ent limWin n 0
        let v := min (d.fwl.tokens.getD n 0 + bits w 15 0) (1000 * bits w 25 16)
        d.withFwl (fun f => { f with tokens := put0 f.tokens n v })) d)))
    -- a diagnostic gate opens for SECONDS and closes by command or at its end (R191)
    ∧ (d.admits who fwlPg (0xB0 + 4 * k) = true → seconds.toNat ≠ 0 →
      exec (.diagGateOpen who k seconds) s = .next (s.ends (d.wrote who fwlPg (0xB0 + 4 * k) (2 ^ 30 + seconds.toNat)
        (fun d => d.gateOpen k seconds.toNat))))
    ∧ (let close (d : Dev) : Dev :=
        if d.flag fwlPg (R.FWL_DIAG_GATE_OPEN.at k) then
          let d := d.withFwl (fun f => { f with gateAt := f.gateAt.erase k })
          (d.setWord fwlPg (0xB0 + 4 * k) 0).raise fwlPg 3
        else d
      (d.admits who fwlPg (0xB0 + 4 * k) = true →
        exec (.diagGateClose who k) s = .next (s.ends (d.wrote who fwlPg (0xB0 + 4 * k) (2 ^ 29) close)))
      ∧ (d.mainRun = true → exec (.diagGateExpire k) s = .next (s.ends (close d))))

/-- The commands of the schedulers and of Franking (R230 to R261). -/
def Obligations.ScheduleCommandsComplete : Prop :=
  ∀ (s : State) (who : Owner) (k : Fin 1024) (n : Fin 43) (m : Fin 40) (g : Gcl) (value : BitVec 64)
    (run : Nat × Nat × Nat × List Nat) (bad : List (Fin 43 × Fin 8)),
    let d := s.begun
    let p := schPg n
    let pm := schPg m
    let a : Access := { who := who, target := .reg p 0xE0, write := true, size := 8, data := value.toNat }
    -- a refill tick: waiting table writes apply, policers and shapers are credited (R243, R249, R252)
    (d.mainRun = true → exec (.tokenRefillTick bad) s = .next (s.ends (
      let d' := d.frk.writes.foldl (fun d x => d.frkApply x.1 x.2.1 x.2.2) (d.withFrk (fun f => { f with writes := [] }))
      let d' := if d'.isOn frkPg then d'.policers.foldl Dev.policerTick d' else d'
      (List.range 43).foldl (fun d n => d.schTick n ((bad.filter (fun b => b.1.val == n)).map (·.2.val))) d')))
    -- a recovery function that saw no frame in time takes any number again (R255)
    ∧ (d.mainRun = true → d.isOn frkPg = true → (d.recovOf k).recov.isSome = true →
      exec (.frerReset k) s = .next (s.ends
        (((d.withFrk (fun f => { f with recovs := f.recovs.erase k.val })).entCnt 6 k 5).raise frkPg 3)))
    -- an entry of the gate control list begins (R235)
    ∧ (n.val < 40 → d.mainRun = true → d.isOn p = true → d.flag p R.SCH_GCL_STAT_EXTENDING = false → d.isArmed p 0 = false →
        (d.sched n).shut = false →
      exec (.gateEvent n false) s = .next (s.ends (
        let d' := d.disarm p 0
        (d'.setSched n { d'.sched n with shut := false }).gclEnter n (d'.gclNow n))))
    -- CHANGE by the holder starts the copy of the list (R236); CANCEL drops what is pending (R238)
    ∧ (n.val < 40 → d.admits who p 0xC0 = true → d.holds p who = true → d.flag p R.SCH_GCL_STAT_COPYING = false →
        d.flag p R.PAGE_STAT_TORN = false → d.changeBad n = false →
      exec (.gclChange who n) s = .next (s.ends (d.wrote who p 0xC0 (2 ^ 31) (fun d =>
        let x := d.sched n
        let near := match x.pend with
          | some o => d.flag p R.SCH_GCL_STAT_EXTENDING || decide (o.swap < d.anchorNs o.clock + 1000)
          | none => false
        let d := (d.setSched n { x with copying := some (d.adminCfg n), nearSwap := near, next := none
                                        pend := if near then x.pend else none }).setFlag p R.SCH_GCL_STAT_COPYING true
        if near then d else d.setFlag p R.SCH_GCL_STAT_PENDING false))))
    ∧ (d.admits who p 0xC0 = true → d.holds p who = true →
      exec (.gclCancel who n) s = .next (s.ends (d.wrote who p 0xC0 (2 ^ 30) (fun d =>
        let d := (d.setSched n { d.sched n with pend := none, next := none }).setFlag p R.SCH_GCL_STAT_PENDING false
        if d.flag p R.SCH_GCL_STAT_EXTENDING then
          ((d.setSched n { d.sched n with extEnd := 0 }).setFlag p R.SCH_GCL_STAT_EXTENDING false).gclEnter n (d.gclNow n)
        else d))))
    -- the copy is done: the list is pending until S (R236)
    ∧ (d.mainRun = true → (d.sched m).copying = some g → (d.sched m).nearSwap = false ∨ (d.sched m).pend = none →
      let st := (g.swapAt (d.anchorNs g.clock + 1000)).1
      let late := (g.swapAt (d.anchorNs g.clock + 1000)).2
      exec (.gclCopyDone m) s = .next (s.ends (
        let g' := { g with swap := st }
        let d' := d.setFlag pm R.SCH_GCL_STAT_COPYING false
        let d' := ((d'.setSched m { d.sched m with copying := none, pend := some g' }).setFlag pm
          R.SCH_GCL_STAT_PENDING true).setFld pm R.SCH_GCL_PEND_TIME_S st
        d'.when late (fun d => (d.addCount pm 0x308 1).raise pm 1))))
    -- a copy that ends with its forerunner still pending waits behind it (R238)
    ∧ (d.mainRun = true → (d.sched m).copying = some g → (d.sched m).nearSwap = true → (d.sched m).pend.isSome = true →
      let st := (g.swapAt (d.anchorNs g.clock + 1000)).1
      let late := (g.swapAt (d.anchorNs g.clock + 1000)).2
      exec (.gclCopyDone m) s = .next (s.ends (
        let d' := d.setFlag pm R.SCH_GCL_STAT_COPYING false
        let d' := d'.setSched m { d.sched m with copying := none, next := some { g with swap := st } }
        d'.when late (fun d => (d.addCount pm 0x308 1).raise pm 1))))
    -- at S the list takes over at once, or the running entry is extended first (R237)
    ∧ (d.mainRun = true → d.isOn pm = true → d.flag pm R.SCH_GCL_STAT_EXTENDING = false → (d.sched m).pend = some g →
      let x := d.extension m g
      exec (.gclSwap m) s = .next (s.ends (if x = 0 then d.gclTake m g.swap g
        else (d.setSched m { d.sched m with extEnd := g.swap + x }).setFlag pm R.SCH_GCL_STAT_EXTENDING true)))
    ∧ (d.mainRun = true → d.isOn pm = true → d.flag pm R.SCH_GCL_STAT_EXTENDING = true → (d.sched m).pend = some g →
      exec (.gclExtensionEnd m) s = .next (s.ends (d.gclTake m (d.sched m).extEnd g)))
    -- a valid entry written by the holder goes to INDEX, which steps (R234)
    ∧ (n.val < 40 → d.admits who p 0xE0 8 = true → d.holds p who = true → d.flag p R.SCH_GCL_STAT_COPYING = false →
        d.flag p R.SCH_GCL_INDEX_LIST = false → gclBad value.toNat = false →
      exec (.gclEntryWrite who n value) s = .next (s.ends (d.act a true (fun d =>
        let x := d.sched n
        let i := d.fld p R.SCH_GCL_INDEX_INDEX
        (d.setSched n { x with admin := put0 x.admin i (bits value.toNat 43 0), adminWrites := x.adminWrites + 1 }).setFld p
          R.SCH_GCL_INDEX_INDEX ((i + 1) % 1024)))))
    -- the depth histograms sample every queue (R259)
    ∧ (d.mainRun = true → d.histOn n = true →
      exec (.histDepthSample n) s = .next (s.ends ((List.range 8).foldl (fun d q =>
        let v := d.depth (qIdx n q) + d.spillBlocks (qIdx n q)
        let f := R.SCH_Q_MAX_DEPTH_CELLS.at q
        (d.histCount n q 0 v (d.fld p (R.SCH_Q_HIST_DEPTH_LOG2.at q))).setFld p f (max v (d.fld p f))) d)))
    -- SCH_MAX_RESTART restarts the maxima (R259)
    ∧ (d.admits who p 0xEC = true →
      exec (.maxRestart who n) s = .next (s.ends (d.wrote who p 0xEC 1 (fun d => d.maxRestart n 1))))
    -- a table command takes the eight words while none runs, and ends with its result (R248, R249)
    ∧ (d.admits who frkPg 0x84 = true → d.flag frkPg R.FRK_TBL_STAT_BUSY = false →
      let go (op : Nat) (d : Dev) : Dev :=
        let d := (d.setFld frkPg R.FRK_TBL_CMD_OP op).setFlag frkPg R.FRK_TBL_STAT_BUSY true
        let ws := (List.range 8).map (fun k => d.fld frkPg (R.FRK_TBL_W_WORD.at k))
        d.withFrk (fun f => { f with run := some (op, d.fld frkPg R.FRK_TBL_SEL_TABLE, d.fld frkPg R.FRK_TBL_SEL_INDEX, ws) })
      exec (.frkTblRead who) s = .next (s.ends (d.wrote who frkPg 0x84 (2 ^ 31) (go 0)))
      ∧ exec (.frkTblWrite who) s = .next (s.ends (d.wrote who frkPg 0x84 (2 ^ 31 + 1) (go 1))))
    ∧ (d.mainRun = true → d.frk.run = some run →
      exec .frkTblDone s = .next (s.ends (
        let r := d.frkRun run.1 run.2.1 run.2.2.1 run.2.2.2
        let d' := r.2.withFrk (fun f => { f with run := none })
        ((((d'.setFlag frkPg R.FRK_TBL_STAT_BUSY false).setFlag frkPg R.FRK_TBL_STAT_DONE true).setFld frkPg
          R.FRK_TBL_STAT_RESULT r.1).raise frkPg 0).digestResult 3 r.1)))

/-- The commands of the Postmark (R262 to R290): gPTP, anchors, working clocks, latch, EVO outputs and captures. -/
def Obligations.PostmarkCommandsComplete : Prop :=
  ∀ (s : State) (who : Owner) (m : GptpMsg) (rest : List GptpMsg) (n : Fin 2) (c : Fin 6) (value : Word) (o : Fin 16)
    (k : Fin 8) (rising : Bool),
    let d := s.begun
    let cmd := 0xA8 + 0x40 * n.val
    let src := bits value.toNat 30 28
    -- the engine takes the oldest message: Sync of the followed domain on its follower port (R267, R269)
    (d.mainRun = true → d.gptpOn = true → d.gptpStamps.pmk.rx = m :: rest → beNat (slice (gptpBody m.data) 0 1) % 16 = 0 →
        let d' := d.gptpStamps.withPmk (fun x => { x with rx := rest })
        [0, 1].find? (fun n => d'.flag pmkPg (R.PMK_ANCHOR_CFG_TRACK.at n)
          && d'.domainOf n == beNat (slice (gptpBody m.data) 4 1)) = some n.val → d'.role n m.port = 2 →
      exec .gptpRx s = .next (s.ends (d'.syncRx n m (gptpBody m.data))))
    -- a grandmaster sends Sync on its master ports; Pdelay_Req leaves on each measuring port (R269)
    ∧ (d.mainRun = true → d.gptpOn = true →
      ((List.range 40).any (fun p => d.role n p == 2) = false →
        exec (.syncTx n) s = .next (s.ends ((d.masters n).foldl (fun d p => d.syncOut n p (.grand n)) d)))
      ∧ exec .pdelayReqTx s = .next (s.ends (((List.range 40).filter (fun p =>
          !d.flag pmkPg (R.PMK_PORT_CFG_DELAY_STATIC.at p))).foldl (fun d p =>
        let l := d.link p
        let seq := (l.seq + 1) % 65536
        let d := d.setLink p { l with seq := seq, t1 := none, resp := none }
        let log := wrapTo 8 (signed 4 (d.fld pmkPg R.PMK_GPTP_CFG_PDELAY))
        d.gptpSend p (d.gptpHead p 2 2 54 0 0x0008 0 seq log ++ beBytes 20 0) (some (.pdelayReq seq)) (some 5)) d)))
    -- Sync has not come: the anchor holds over, or follows the hot standby's other anchor (R273)
    ∧ (d.mainRun = true → d.isOn pmkPg = true → d.ancState n = 2 →
      let d' := d.bump pmkPg 0x2000 8
      (d'.flag pmkPg R.PMK_HS_CFG_EN = false → exec (.anchorTimeout n) s = .next (s.ends (d'.setAncState n 3)))
      ∧ (d'.flag pmkPg R.PMK_HS_CFG_EN = true → d'.ancState (1 - n.val) = 2 → exec (.anchorTimeout n) s = .next (s.ends (
          let a := d'.anchor n
          ((d'.setAnchor n { a with delta := (a.sub : Int) - (d'.anchor (1 - n.val)).sub }).bump pmkPg 0x2000 13).setAncState
            n 4))))
    -- SET in FREE and RESYNC in SPLIT (R271)
    ∧ (d.admits who pmkPg cmd = true → d.ancState n = 0 →
      exec (.anchorSet who n) s = .next (s.ends (d.wrote who pmkPg cmd (2 ^ 30) (fun d =>
        d.ancStep n (d.fld pmkPg (R.PMK_ANCHOR_SET_NS.at n) * subPerNs)))))
    ∧ (d.admits who pmkPg cmd = true → d.flag pmkPg (R.PMK_ANCHOR_STAT_SPLIT.at n) = true →
      exec (.anchorResync who n) s = .next (s.ends (d.wrote who pmkPg cmd (2 ^ 31) (fun d =>
        ((d.ancBack n (d.anchor n).offset).setAncState n 1).setFlag pmkPg (R.PMK_ANCHOR_STAT_SPLIT.at n) false))))
    -- a working clock is enabled at its source's time, and stepped to it again (R276)
    ∧ (d.admits who pmkPg (0x200 + 0x20 * c) = true → src ≤ 1 → bits value.toNat 27 24 ≤ 10 →
        0 < bits value.toNat 23 0 → bits value.toNat 23 0 ≤ 1000000 → bitAt value.toNat 31 = true → d.wcOn (c + 2) = false →
      exec (.wcEnable who c value) s = .next (s.ends (d.wrote who pmkPg (0x200 + 0x20 * c) value.toNat (fun d =>
        let d := d.setWord pmkPg (0x200 + 0x20 * c) value.toNat
        let d := d.setWc (c + 2) { sub := (d.anchor src).sub, rate := d.ancRate src }
        -- the end of a slew is raised (R277)
        let slew := d.flag pmkPg (R.PMK_WC_STAT_SLEWING.at c)
        (d.setFlag pmkPg (R.PMK_WC_STAT_SLEWING.at c) false).when slew (fun d => d.raise pmkPg 5)))))
    ∧ (d.admits who pmkPg (0x204 + 0x20 * c) = true → d.claimHeld (0x32 + c) = false → d.wcOn (c + 2) = true →
      exec (.wcRestep who c) s = .next (s.ends (d.wrote who pmkPg (0x204 + 0x20 * c) (2 ^ 31) (fun d =>
        d.setWc (c + 2) { d.wclock (c + 2) with sub := (d.anchor (d.wcSource (c + 2))).sub }))))
    ∧ (d.mainRun = true → d.isOn pmkPg = true →
      exec .wcUpdate s = .next (s.ends ([2, 3, 4, 5, 6, 7].foldl Dev.wcUpdate d)))
    -- the latch takes the eight clocks at one edge and is done (R279)
    ∧ (d.admits who pmkPg 0x60 = true → d.isOn pmkPg = true →
      exec (.latch who) s = .next (s.ends (d.wrote who pmkPg 0x60 1 (fun d =>
        let d := (List.range 8).foldl (fun d c => d.setFld pmkPg (R.PMK_LATCHED_NS.at c) (d.clockSub c / subPerNs)) d
        let fr := ((List.range 8).map (fun c => quarter (d.clockSub c) * 4 ^ c)).sum
        (d.setFld pmkPg R.PMK_LATCHED_FRAC_FRAC fr).withPmk (fun p => { p with latching := true })))))
    ∧ (d.mainRun = true → d.pmk.latching = true →
      exec .latchDone s = .next (s.ends
        (((d.withPmk (fun p => { p with latching := false })).incWrap pmkPg R.PMK_LATCH_SEQ_SEQ).raise pmkPg 7)))
    -- an armed EVO output pulses, unless it is forced or muted, and ends or waits for the next (R282, R283)
    ∧ (d.mainRun = true → d.isOn (evoPg o) = true → d.flag (evoPg o) R.PMK_EVO_STAT_ARMED = true → d.evoForced o = false →
      let d' := d.setEvo o { d.evo o with emitted := (d.evo o).emitted + 1 }
      d'.flag (evoPg o) R.PMK_EVO_FLAGS_MUTE = false →
      exec (.evoLeadingEdge o) s = .next (s.ends (
        let d' := (d'.evoDrive o true).when (!d'.evoShared o) (fun d => d.evoCnt o 0)
        let d' := d'.when (d'.flag (evoPg o) R.PMK_EVO_CFG_IRQ_EACH) (fun d => d.raise (evoPg o) 0)
        let per := d'.fld (evoPg o) R.PMK_EVO_PERIOD_NS
        let count := d'.fld (evoPg o) R.PMK_EVO_COUNT_PULSES
        -- the last pulse ends the run when its own end comes (R282)
        if per = 0 || (count != 0 && decide (count ≤ (d'.evo o).emitted)) then
          if (d'.evo o).high then (d'.setEvo o { d'.evo o with last := true }).setFlag (evoPg o) R.PMK_EVO_STAT_ARMED false
          else d'.evoEnd o true
        else d'.setFld (evoPg o) R.PMK_EVO_NEXT_NS (d'.fld (evoPg o) R.PMK_EVO_NEXT_NS + per))))
    ∧ (d.mainRun = true → (d.evo o).high = true → exec (.evoTrailingEdge o) s = .next (s.ends
        (((d.setEvo o { d.evo o with last := false }).evoDrive o false).when (d.evo o).last (fun d => d.evoEnd o true))))
    -- an edge asked for, at least 20 ns after the last, is stamped by both anchors into the page's region (R285)
    ∧ (d.mainRun = true → d.isOn (capPg k) = true →
        bitAt (d.fld (capPg k) R.PMK_CAP_CFG_EDGE) (if rising then 0 else 1) = true → d.pmk.caps.get? k = none →
      exec (.captureEdge k rising) s = .next (s.ends (
        let wc := d.fld (capPg k) R.PMK_CAP_CFG_WC
        let w := if wc = 0 then 0 else d.clockSub wc
        let s (n : Nat) : Nat := (d.anchor n).sub
        let coarse := d.flag pmkPg (R.PMK_ANCHOR_STAT_COARSE.at 0) || d.flag pmkPg (R.PMK_ANCHOR_STAT_COARSE.at 1)
        let w0 := 2 ^ 28 + k * 2 ^ 24 + b2n rising * 2 ^ 23 + d.ancState 0 * 2 ^ 20 + d.ancState 1 * 2 ^ 17
          + b2n coarse * 2 ^ 16 + quarter (s 0) * 64 + quarter (s 1) * 16 + quarter w * 4
        let two (v : Nat) : List Nat := [v / subPerNs % 2 ^ 32, v / subPerNs / 2 ^ 32 % 2 ^ 32]
        let d' := d.withPmk (fun x => { x with caps := x.caps.set k d.now })
        let d' := d'.popPush (2 + d'.fld (capPg k) R.PMK_CAP_CFG_REGION) (w0 :: two (s 0) ++ two (s 1) ++ two w ++ [wc])
        (d'.bump (capPg k) 0x100 0).raise (capPg k) 0)))
    -- every 1 ms the always-on island takes the time to carry (R287)
    ∧ (d.isOn pmkPg = true → exec .timeCarry s = .next (s.ends (d.withPmk (fun p => { p with
        carried := (d.anchor 0).sub, carriedAt := d.now, carriedDelta := signed 64 (d.fld pmkPg R.PMK_HS_DELTA_NS) }))))

/-- CAN, LIN and the route table of the edge (R291 to R314). -/
def Obligations.EdgeCommandsComplete : Prop :=
  ∀ (s : State) (who : Owner) (bus : Fin 24) (lin : Fin 8) (msg : CanMsg) (ago : Nat) (u : Upset) (eight lost exempt : Bool)
    (t : TxMsg) (value : Word) (state : Nat) (len : BitVec 8) (id : Fin 64) (bytes : List Byte) (err : Fin 3)
    (run : Bool × Nat × List Nat),
    let d := s.begun
    let p := canPg bus
    let l := linPg lin
    -- a valid message of a format that is on is counted, and stamped for its routes (R292, R300)
    (d.mainRun = true → d.canListens bus = true → d.canKnows bus msg = true →
      exec (.canRxValid bus msg ago u) s = .next (s.ends (
        let d' := ((d.cnt p 0).when (msg.fmt == 1) (fun d => d.cnt p 1)).when (msg.fmt == 2) (fun d => d.cnt p 2)
        let d' := (d'.recGood bus).when (d'.canMuted bus) (fun d => d.txRetire bus msg)
        let at0 : Int := (d'.now : Int) - ago
        d'.edgeRx ⟨bus, { msg with ts := none }, (d'.stampAt 0 at0).toNat, (d'.stampAt 1 at0).toNat, none, u⟩)))
    -- a receive error adds 1 or 8 to REC (R299)
    ∧ (d.mainRun = true → d.canListens bus = true →
      exec (.canRxError bus eight) s = .next (s.ends
        ((d.cnt p 12).canErr bus (d.tec bus) (d.recErr bus + if eight then 8 else 1))))
    -- a message sent is counted and takes 1 from TEC (R299, R306); a Night Post copy is told of it (R340)
    ∧ (d.mainRun = true → (d.can bus).wire = some t →
      exec (.canTxDone bus) s = .next (s.ends (
        let d' := (((d.wireEnd bus []).cnt p 4).canErr bus (d.tec bus - 1) (d.recErr bus)).tdcMeasure bus t.msg
        let d' := match t.np, d'.npt.relay with
          | true, some r => d'.copySent r
          | _, _ => d'
        d'.trxNext bus)))
    -- a transmit error adds 8 to TEC unless exempt, lost arbitration adds none; the message stays first (R299, R306)
    ∧ (d.mainRun = true → (d.can bus).wire = some t → t.np = false →
      exec (.canTxError bus lost exempt) s = .next (s.ends (
        let d' := d.wireEnd bus [t]
        (if lost then d' else (d'.cnt p 12).canErr bus (d'.tec bus + if exempt then 0 else 8) (d'.recErr bus)).trxNext bus)))
    -- messages whose time has come enter the transmit buffer (R308)
    ∧ (d.mainRun = true → exec (.timedTxDue bus) s = .next (s.ends (
        let c := d.can bus
        let now := d.clockNs (d.fld p R.EDG_CAN_CFG_TX_WC)
        (c.held.filter (fun m => decide (m.ts.getD 0 ≤ now))).foldl (fun d m => d.txPlace bus { msg := m })
          (d.setCan bus { c with held := c.held.filter (fun m => !decide (m.ts.getD 0 ≤ now)) }))))
    -- RECOVER starts the recovery from bus-off, which ends error active (R299); CLR_TX empties the buffer
    ∧ (d.admits who p 0x9C = true →
      exec (.canRecover who bus) s = .next (s.ends (d.wrote who p 0x9C (2 ^ 31) (fun d =>
        if d.busOff bus then d.setFlag p R.EDG_CAN_STAT_RECOVERING true else d)))
      ∧ exec (.canClrTx who bus) s = .next (s.ends (d.wrote who p 0x9C (2 ^ 30) (fun d => d.canDrop bus))))
    ∧ (d.mainRun = true → d.busOff bus = true → d.flag p R.EDG_CAN_STAT_RECOVERING = true →
        d.keptAsleep (.can bus) = false →
      exec (.busOffRecovered bus) s = .next (s.ends
        (((d.canErr bus 0 0).setFlag p R.EDG_CAN_STAT_RECOVERING false).raise p 2)))
    -- on a shared bus without the claim, messages 2 ms old are dropped and counted (R498)
    ∧ (d.mainRun = true → d.canMuted bus = true → exec (.staleTxTimeout bus) s = .next (s.ends (
        let c := d.can bus
        let old (t : TxMsg) : Bool := decide (t.since + 2 * msTicks ≤ d.now)
        let kept := d.setCan bus { c with tx := c.tx.filter (fun t => !old t) }
        -- a relay copy among them returns to NP-CAN B (R340)
        let kept := match c.tx.any (fun t => t.np && old t), d.npt.relay with
          | true, some r => { kept with npt := { kept.npt with relay := some { r with viaCan1 := false } } }
          | _, _ => kept
        kept.cnt adjPg 10 (c.tx.filter old).length)))
    -- 11 recessive bits: the controller is integrated (R298)
    ∧ (d.mainRun = true → d.isOn p = true → d.fld p R.EDG_CAN_TRX_STATE ≤ 1 → d.keptAsleep (.can bus) = false →
      exec (.canIntegrated bus) s = .next (s.ends (d.setFlag p R.EDG_CAN_STAT_SYNC true)))
    -- a transceiver request that keeps SETTLE_US and PIN_MAP (R293, R296), and its end
    ∧ (d.admits who p 0x94 = true → bits value.toNat 23 16 = bits (d.word p 0x94) 23 16 →
        bits value.toNat 7 0 = bits (d.word p 0x94) 7 0 →
      exec (.canTrxReq who bus value) s = .next (s.ends (d.wrote who p 0x94 value.toNat (fun d =>
        let d := d.setFld p R.EDG_CAN_TRX_REQ (bits value.toNat 29 28)
        let d := (d.setFld p R.EDG_CAN_TRX_SETTLE_US (bits value.toNat 23 16)).setFld p R.EDG_CAN_TRX_PIN_MAP
          (bits value.toNat 7 0)
        d.when (d.isOn p) (fun d => d.trxUpdate bus)))))
    ∧ (d.mainRun = true → (d.can bus).trxGoing = some state →
      exec (.canTrxSettled bus) s = .next (s.ends (
        let c := d.can bus
        let d' := (d.setCan bus { c with trxGoing := none }).setFld p R.EDG_CAN_TRX_STATE state
        ((d'.when (decide (2 ≤ state)) (fun d => d.setFlag p R.EDG_CAN_STAT_SYNC false)).trxNext bus).gapCheck 4)))
    -- a route-table command takes the four words; it ends with the entry read or written (R301)
    ∧ (d.admits who (canPg 0) 0x830 = true → d.flag (canPg 0) R.EDG_RT_STAT_BUSY = false →
      let go (write : Bool) (d : Dev) : Dev :=
        let ws := (List.range 4).map (fun w => d.fld (canPg 0) (R.EDG_RT_W_WORD.at w))
        let d := { d with rtRun := some (write, d.fld (canPg 0) R.EDG_RT_SEL_INDEX, ws) }
        (d.setWord (canPg 0) 0x830 (b2n write)).setFlag (canPg 0) R.EDG_RT_STAT_BUSY true
      exec (.rtRead who) s = .next (s.ends (d.wrote who (canPg 0) 0x830 (2 ^ 31) (go false)))
      ∧ exec (.rtWrite who) s = .next (s.ends (d.wrote who (canPg 0) 0x830 (2 ^ 31 + 1) (go true))))
    ∧ (d.mainRun = true → d.rtRun = some run →
      exec .rtDone s = .next (s.ends (
        let bad := run.1 && rtBad run.2.2
        let d' := (List.range 4).foldl (fun d w =>
          if !run.1 then d.setFld (canPg 0) (R.EDG_RT_W_WORD.at w) (d.rtWord run.2.1 w)
          else if bad then d else d.setRt run.2.1 w (run.2.2.getD w 0)) { d with rtRun := none }
        ((((d'.setFlag (canPg 0) R.EDG_RT_STAT_BUSY false).setFlag (canPg 0) R.EDG_RT_STAT_DONE true).setFld (canPg 0)
          R.EDG_RT_STAT_RESULT (b2n bad)).raise (canPg 0) 7).digestResult 4 (b2n bad))))
    -- a good LIN table of LEN slots is switched to, at once where none runs and no start time is asked (R310, R311)
    ∧ (d.admits who l 0x84 = true → d.flag l R.EDG_LIN_SCHED_PENDING = false → len.toNat ≤ 64 →
        d.flag l R.EDG_LIN_CFG_MASTER = true →
        let v := 2 ^ 31 + len.toNat * 2 ^ 8
        (List.range len.toNat).any ((d.setFld l R.EDG_LIN_SCHED_LEN len.toNat).slotBad lin) = false →
      exec (.linSwitch who lin len) s = .next (s.ends (d.wrote who l 0x84 v (fun d =>
        let d := d.setFld l R.EDG_LIN_SCHED_LEN len.toNat
        if (d.lin lin).running || d.fld l R.EDG_LIN_CFG_SCHED_WC ≠ 0 then
          (d.setLin lin { d.lin lin with first := !(d.lin lin).running }).setFlag l R.EDG_LIN_SCHED_PENDING true
        else d.linSwap lin))))
    -- a slot of the running table starts; a waiting table takes over at the slot's end (R311, R312)
    ∧ (d.mainRun = true → d.isOn l = true → d.flag l R.EDG_LIN_CFG_MASTER = true → (d.lin lin).running = true →
        (d.lin lin).first = false → (d.linMissed lin).keptAsleep (.lin lin) = false →
      exec (.linSlotStart lin) s = .next (s.ends (
        let d' := d.linMissed lin
        if d'.flag l R.EDG_LIN_SCHED_PENDING then d'.linSwap lin
        else (d'.setLin lin { d'.lin lin with restart := false }).linSlot lin (if (d.lin lin).restart then 0
          else (d'.fld l R.EDG_LIN_SCHED_CUR_SLOT + 1) % max (d.lin lin).len 1))))
    -- a responder answers a header it publishes, else awaits the response (R313)
    ∧ (d.mainRun = true → d.isOn l = true → d.flag l R.EDG_LIN_CFG_MASTER = false → d.keptAsleep (.lin lin) = false →
      exec (.linHeaderRx lin id) s = .next (s.ends (
        let d' := d.linMissed lin
        if d'.linDrives lin && d'.pub lin id R.EDG_LIN_PUB_W0_PUBLISH && d'.pub lin id R.EDG_LIN_PUB_W0_VALID then
          d'.linRespond lin id
        else d'.setLin lin { d'.lin lin with await := some id.val })))
    -- a response to a diagnostic header: counted by its error, length and checksum, or received (R314)
    ∧ (d.mainRun = true → (d.lin lin).await = some 0x3C →
        let d' := d.setLin lin { d.lin lin with await := none }
        d'.isOn l = true →
      exec (.linResponseRx lin bytes err ago u) s = .next (s.ends (
        let data := bytes.take 8
        if err.val = 2 then d'.cnt l 6
        else if err.val = 1 || bytes.length ≠ 9 then d'.cnt l 5
        else if linSum (data.map (·.toNat)) ≠ (bytes.getD 8 0).toNat then (d'.cnt l 4).raise l 2
        else
          let d' := d'.cnt l 2
          if d'.isoLin lin then d'
          else
            let at0 : Int := (d'.now : Int) - ago
            d'.edgeRx ⟨24 + lin, { fmt := 3, id := 0x3C, data := data }, (d'.stampAt 0 at0).toNat, (d'.stampAt 1 at0).toNat,
              none, u⟩)))

/-- The always-on Night Post takes wake frames of its identifier, four waiting at most (R337), sends the copies of a relay
through NP-CAN B (R339, R340) and stops its oscillator (R335). -/
def Obligations.NightPostCommandsComplete : Prop :=
  ∀ (s : State) (fd ext ok : Bool) (id : BitVec 29) (data : List Byte) (r : Relay),
    let d := s.begun
    (d.isOn nptPg = true → d.npt.serving = true → ext = d.flag nptPg R.NPT_RX_ID_IDE →
        id.toNat = d.fld nptPg R.NPT_RX_ID_ID →
        let d' := (d.cnt nptPg 0).withNpt (fun n => { n with oscillator := true })
      -- a frame joins those that wait, and the first is handled where none is
      (d.npt.frames.length < (if d.npt.relay.isSome then 4 else 5) →
        exec (.wakeFrameRx fd ext id data) s = .next (s.ends
          (d'.withNpt (fun n => { n with frames := n.frames ++ [⟨fd, data⟩] })).npNext))
      -- a fifth is counted and discarded
      ∧ ((if d.npt.relay.isSome then 4 else 5) ≤ d.npt.frames.length →
        exec (.wakeFrameRx fd ext id data) s = .next (s.ends (d'.cnt nptPg 6))))
    -- the next copy is offered: to CAN 1's transmit buffer while it holds the pins, else by NP-CAN B (R339, R340, R343)
    ∧ (d.npt.relay = some r → r.onOffer = false → r.left ≠ 0 →
      let r' := { r with onOffer := true, attempts := 0, left := r.left - 1 }
      exec .relayCopyDue s = .next (s.ends (
        if d.flag (canPg 1) R.EDG_CAN_STAT_PINS then
          let d' := d.canDeliver 1 { msg := d.relayMsg r', np := true }
          d'.setRelay (some { r' with viaCan1 := (d'.can 1).tx.any (·.np) })
        else d.setRelay (some { r' with viaCan1 := false }))))
    -- an attempt of NP-CAN B sends the copy, or counts as one of RETRY; at level 3 it fails (R32, R339)
    ∧ (d.npt.relay = some r → r.onOffer = true → r.viaCan1 = false → d.flag (canPg 1) R.EDG_CAN_STAT_PINS = false →
      exec (.relayCopyDone ok) s = .next (s.ends (
        if ok && !d.safe then
          let r' := { r with sent := r.sent + 1 }
          let d' := (d.emit (.can 1 (d.relayMsg r))).setFld nptPg R.NPT_RELAY_STAT_COPIES r'.sent
          (if r'.sent = 1 then
            let d' := ((d'.setFld nptPg R.NPT_RELAY_STAT_RESULT 1).cnt nptPg 1).raise nptPg 0
            if d'.flag nptPg (R.NPT_CMD_MAP_WAKE.at r'.cmd) then d'.fire 0x28 else d'
          else d').copyOver r'
        else
          let r' := { r with attempts := r.attempts + 1 }
          if r'.attempts < d.fld nptPg R.NPT_RELAY_CFG_RETRY then d.setRelay (some r')
          else
            let d' := d.cnt nptPg 5
            (if r'.left = 0 ∧ r'.sent = 0 then d'.setFld nptPg R.NPT_RELAY_STAT_RESULT 8 else d').copyOver r')))
    -- the oscillator stops once nothing waits and no relay runs (R335)
    ∧ (d.npt.frames = [] → d.npt.relay = none →
      exec .npOscStop s = .next (s.ends (d.withNpt (fun n => { n with oscillator := false }))))

/-- The end of a wake frame's verification (R337 steps 5 and 6, R341): the key's CMAC over the identifier and the first
sixteen bytes decides, then the counter; a frame that passes sets LAST and its first copy is offered. -/
def Obligations.VerifiedWakeFramesAreRelayed : Prop :=
  ∀ (s : State) (f : NpFrame) (rest : List NpFrame) (key : List Nat),
    let d := s.begun
    d.npt.frames = f :: rest → d.npt.verify = some key → d.wax.npWork = 0 → key ≠ [] →
    let d' := (d.withNpt (fun n => { n with verify := none, frames := rest })).slotSpent
      (d.fld nptPg (R.NPT_SENDER_KEY_SLOT.at f.sender))
    let ide := d'.fld nptPg R.NPT_RX_ID_IDE * 2 ^ 31 + d'.fld nptPg R.NPT_RX_ID_ID
    let good := (cmac key ((beBytes 4 ide ++ f.data.take 16).map (·.toNat))).take 8 = (f.data.drop 16).map (·.toNat)
    let last := R.NPT_CNT_LAST_LAST.at f.sender
    let x := (f.counter + 2 ^ 32 - d'.fld nptPg last) % 2 ^ 32
    -- the tag is right and the counter within WINDOW: LAST is written and the relay starts, unless the peer relays (R502)
    (good → d'.isArmed nptPg 0 = false → 0 < x → x ≤ d'.fld nptPg R.NPT_RELAY_CFG_WINDOW →
      exec .npVerifyDone s = .next (s.ends (
        let d' := ((d'.setFld nptPg last f.counter).carbon 4 [f.sender, f.counter]).npShow f 1
        if d'.npt.peerRelays && !d'.mainRun then (d'.npPins 1 2).npNext
        else d'.relayOffer { cmd := f.cmd, body := slice f.data 8 8, left := d'.fld nptPg R.NPT_RELAY_CFG_REPEAT })))
    -- the counter repeats or runs past WINDOW: COUNTER
    ∧ (good → d'.isArmed nptPg 0 = false → x = 0 ∨ d'.fld nptPg R.NPT_RELAY_CFG_WINDOW < x →
      exec .npVerifyDone s = .next (s.ends
        (((((d'.cnt nptPg 4).npShow f 6).raise nptPg 1).npPins 1 2).npNext)))
    -- another tag: MAC, with a SECURITY fault
    ∧ (¬ good →
      exec .npVerifyDone s = .next (s.ends
        ((((((d'.cnt nptPg 3).fault { cls := 9, page := nptPg }).npShow f 5).raise nptPg 1).npPins 1 2).npNext)))

/-- Fault classes, power failure, temperature and clock (R364, R468 to R482). -/
def Obligations.FaultCommandsComplete : Prop :=
  ∀ (s : State) (who : Owner) (cls : Fin 12) (celsius : Int),
    let d := s.begun
    let state := d.fld fltPg (R.FLT_CLS_STAT_STATE.at cls)
    -- the quiet time has passed: RECOVERING leaves to NORMAL; ACTIVE leaves by AUTO, or shows QUIET_DONE (R470)
    (d.mainRun = true →
      (state = 2 → exec (.quietTimerExpire cls) s = .next (s.ends (d.clsLeave cls)))
      ∧ (state = 1 → d.flag fltPg (R.FLT_CLS_CFG_AUTO.at cls) = true →
          exec (.quietTimerExpire cls) s = .next (s.ends (d.clsLeave cls)))
      ∧ (state = 1 → d.flag fltPg (R.FLT_CLS_CFG_AUTO.at cls) = false →
          exec (.quietTimerExpire cls) s = .next (s.ends
            (d.setFlag fltPg (R.FLT_CLS_STAT_QUIET_DONE.at cls) true))))
    -- ACK of an ACTIVE class recovers it, at once where its quiet time has passed (R470)
    ∧ (d.admits who fltPg (0x108 + 0x10 * cls) = true → state = 1 →
      exec (.faultAck who cls) s = .next (s.ends (d.wrote who fltPg (0x108 + 0x10 * cls) 1 (fun d =>
        if d.flag fltPg (R.FLT_CLS_STAT_QUIET_DONE.at cls) then d.clsLeave cls
        else d.setFld fltPg (R.FLT_CLS_STAT_STATE.at cls) 2))))
    -- PFAIL: the time is carried; the staged records are flushed to flash; deassertion returns what did not reach it
    ∧ (d.mainRun = true →
      exec .pfailAssert s = .next (s.ends (
        let d' := d.setFlag fltPg R.FLT_PFAIL_ASSERTED true
        { d' with
          flt := { d'.flt with warnAt := d'.now }
          pmk := { d'.pmk with carried := (d'.anchor 0).sub, carriedAt := d'.now,
                               carriedDelta := signed 64 (d'.fld pmkPg R.PMK_HS_DELTA_NS) } }))
      ∧ (d.flag fltPg R.FLT_PFAIL_ASSERTED = true → exec .pfailFlushed s = .next (s.ends (
          let d' := (d.setFld fltPg R.FLT_PFAIL_RECORDS d.flt.staging.length).setFlag fltPg R.FLT_PFAIL_FLUSHED true
          let r := d'.eventWords 8 fltPg [d'.word fltPg 0x90]
          let d' := { d' with flt := { d'.flt with retained := d'.flt.staging ++ [r], staging := [] } }
          (d'.popPush 0 r).raise fltPg 5)))
      ∧ exec .pfailDeassert s = .next (s.ends (
          let d' := d.setFlag fltPg R.FLT_PFAIL_ASSERTED false
          { d' with flt := { d'.flt with staging := d'.flt.retained ++ d'.flt.staging, retained := [] } })))
    -- above HIGH a TEMPERATURE fault, at 135 °C of level 3 (R481); a lost clock is a CLOCK fault
    ∧ (d.mainRun = true →
      let d' := d.setFld fltPg R.FLT_TEMP_NOW (wrapTo 8 celsius)
      ((d'.fld fltPg R.FLT_TEMP_HIGH : Int) < celsius ∨ 135 ≤ celsius → exec (.tempHigh celsius) s = .next (s.ends
        (d'.fault { cls := 6, page := fltPg, detail := d'.word fltPg 0x8C, level := if 135 ≤ celsius then 3 else 0 })))
      ∧ (celsius ≤ (d'.fld fltPg R.FLT_TEMP_HIGH : Int) → celsius < 135 → exec (.tempHigh celsius) s = .next (s.ends d'))
      ∧ exec .clockFault s = .next (s.ends (d.fault { cls := 4, page := fltPg })))

/-- The management port, the remote windows and the flash (R369 to R382). -/
def Obligations.WindowCommandsComplete : Prop :=
  ∀ (s : State) (who : Owner) (wide ok : Bool) (space : Fin 3) (addr low : BitVec 32) (crc : Byte) (off : BitVec 23) (data : BitVec 64)
    (sector : BitVec 16) (w : FlashWr) (ws : List FlashWr) (k : Nat),
    let d := s.begun
    let size := if wide then 8 else 4
    let reached (off : Nat) : Prop := d.start.released = true ∧ d.reaches who hbrPg = true ∧ off % size = 0
      ∧ d.domainReady 1 = true ∧ d.feature 7 = true ∧ who ≠ .peer
    -- a request of the port with a good CRC, none pending, is the access it asks for (R366, R369)
    (d.spiDeep = false → d.start.released = true → d.start.spiUp = true → d.spiPending = false →
      let a (write : Bool) (size v : Nat) : Access :=
        { who := .spi, target := .addr (spiSpace space) addr.toNat, write := write, size := size, data := v }
      let good (op : Nat) (data : List Byte) : Prop := crc8 (spiRequest op space addr data) = crc.toNat
      (good 1 [] → exec (.spiRead32 space addr crc) s = .next (s.ends (d.access (a false 4 0))))
      ∧ (good 2 [] → exec (.spiRead64 space addr crc) s = .next (s.ends (d.access (a false 8 0))))
      ∧ (good 3 (beBytes 4 low.toNat) → exec (.spiWrite32 space addr low crc) s = .next (s.ends
          (d.access (a true 4 (beNat (beBytes 4 low.toNat))))))
      ∧ (good 4 (beBytes 8 data.toNat) → exec (.spiWrite64 space addr data crc) s = .next (s.ends
          (d.access (a true 8 (beNat (beBytes 8 data.toNat))))))
      ∧ (crc8 [0x60] = crc.toNat → exec (.spiGetResult crc) s = .next (s.ends d.spiResult)))
    -- an access of the peer window becomes a REMOTE_REQ at the joined peer (R378, R379)
    ∧ (reached off.toNat → d.peerJoined = true →
      let at_ := d.fld hbrPg R.HBR_RWIN_PEER_BASE * 2 ^ 23 + off.toNat
      let a (write : Bool) : Access :=
        { who := who, target := .addr .bar0 (0x1000000 + off.toNat), write := write, size := size, data := data.toNat }
      (d.heldWrite (a false) = none → exec (.peerWindowAccess who false wide off data) s = .next (s.ends
        (d.remoteSend (a false) (d.fld hbrPg R.HBR_RWIN_PEER_SPACE) at_)))
      -- a read behind a posted write of its sender that still waits waits with it (R375)
      ∧ (∀ tag, d.heldWrite (a false) = some tag →
        exec (.peerWindowAccess who false wide off data) s = .next (s.ends (d.hold tag (a false))))
      ∧ (d.flag hbrPg R.HBR_RWIN_PEER_FENCED = false →
        exec (.peerWindowAccess who true wide off data) s = .next (s.ends
          ((d.remoteSend (a true) (d.fld hbrPg R.HBR_RWIN_PEER_SPACE) at_).written (a true)))))
    -- the flash window reads the flash; a write to the user area is queued (R378, R380, R382)
    ∧ (let at_ := d.fld hbrPg R.HBR_RWIN_FLASH_BASE * 2 ^ 23 + off.toNat
       let a (write : Bool) (v : Nat) : Access :=
        { who := who, target := .addr .bar0 (0x1800000 + off.toNat), write := write, size := size, data := v }
       reached off.toNat → d.sectorBusy at_ = false →
      (d.heldWrite (a false 0) = none → exec (.flashWindowRead who wide off) s = .next (s.ends
        ((d.flashRead at_ size).2.answer (a false 0) 0x80 (d.flashRead at_ size).1)))
      ∧ (d.flag hbrPg R.HBR_RWIN_FLASH_FENCED = false → inUser at_ = true → d.flash.queue.length < 256 →
        exec (.flashWindowWrite who wide off data) s = .next (s.ends
          ((d.withFlash (fun f => { f with queue := f.queue ++ [⟨at_, leBytes size data.toNat, who.code, wide⟩],
                                            headAt := if f.queue.isEmpty then d.now else f.headAt })).written
            (a true data.toNat)))))
    -- the oldest queued write is programmed where it only clears bits of a sector that is not being erased (R380), unless a
    -- power-failure warning came before its programming began (R481)
    ∧ (d.mainRun = true → d.flash.queue = w :: ws → d.flashHeld d.flash.headAt = false →
        let d' := d.withFlash (fun f => { f with queue := ws, headAt := d.now })
        let r := d'.flashRead w.addr w.data.length
        d'.sectorBusy w.addr = false → r.1 &&& leNat w.data = leNat w.data →
      exec (.flashProgramDone true) s = .next (s.ends (r.2.withFlash (fun f => f.program w.addr w.data))))
    -- an erase of a user sector begins and ends (R381)
    ∧ (d.admits who hbrPg 0xCC = true → d.flag hbrPg R.HBR_FLASH_STAT_BUSY = false → inUser (sector.toNat * 65536) = true →
      exec (.flashErase who sector) s = .next (s.ends (d.wrote who hbrPg 0xCC (2 ^ 31 + sector.toNat) (fun d =>
        let d := d.setFld hbrPg R.HBR_FLASH_ERASE_SECTOR sector.toNat
        (d.withFlash (fun f => { f with erasing := some sector.toNat, eraseFrom := d.now })).setFlag hbrPg
          R.HBR_FLASH_STAT_BUSY true))))
    ∧ (d.mainRun = true → d.flash.erasing = some k → d.flashHeld d.flash.eraseFrom = false →
      exec (.flashEraseDone ok) s = .next (s.ends (
        let d' := d.withFlash (fun f =>
          let g : Flash := { f with erasing := none, spoiled := f.spoiled.filter (· != k) ++ (if ok then [] else [k]) }
          if ok then g.eraseAt (k * 65536) 65536 else g)
        let d' := (d'.setFlag hbrPg R.HBR_FLASH_STAT_BUSY false).setFlag hbrPg R.HBR_FLASH_STAT_DONE true
        (d'.setFld hbrPg R.HBR_FLASH_STAT_RESULT (if ok then 0 else 2)).raise hbrPg 2)))

/-- The DMA queues and the mailboxes of the host (R383 to R399). -/
def Obligations.HostCommandsComplete : Prop :=
  ∀ (s : State) (q : Fin 128) (t : Fin 64) (tail : BitVec 32) (next : List TxNext) (n : TxNext) (r : TxRead)
    (rest : List TxRead) (m : Fin 4) (who : Owner) (w : TxWb) (id : Nat),
    let d := s.begun
    let i := 64 + t.val
    let x := d.dmaQ i
    -- the host moves a queue's tail (R387)
    (d.admits who dmaPg (0x1014 + 0x40 * q.val) = true → d.badWrite .host dmaPg (0x1014 + 0x40 * q.val) tail.toNat = false →
      exec (.dmaTailWrite who q tail) s = .next (s.ends (d.wrote who dmaPg (0x1014 + 0x40 * q.val) tail.toNat (fun d =>
        d.setFld dmaPg (R.DMA_Q_TAIL_TAIL.at q) tail.toNat))))
    -- the round picks a queue, whose next frame is read (R389, R390)
    ∧ (d.mainRun = true → d.state dmaPg = 2 → d.dma.freeAt ≤ d.now → d.stalled 13 0 = false → (d.drr next (64 * 128)).1 = some n → n.fail = none →
        let d' := (d.drr next (64 * 128)).2
        d'.hostBarred = none →
      exec (.dmaTxFetch next) s = .next (s.ends (
        let data := n.descs.flatMap (fun x => x.bytes.take x.len)
        let r : TxRead :=
          { data := data ++ List.replicate (60 - data.length) 0, descs := n.descs.length,
            ts := (n.descs.getLast?.map (·.ts)).getD false,
            bad := decide (9212 < data.length) || decide (16 < n.descs.length) || n.descs.any (fun x => x.len == 0) }
        let old := d'.dmaQ (64 + n.q)
        let d' := d'.setDmaQ (64 + n.q) { old with fetched := old.fetched + r.descs, reads := old.reads ++ [r] }
        -- the credit of port 41: the frame and 20 bytes more at 64 Gbit/s pass before the next is read (R14)
        { d' with dma := { d'.dma with freeAt := d'.now + (8 * (r.data.length + 20) + 15) / 16 } })))
    -- a frame that is read enters port 41 and is counted, or is discarded for its format (R389)
    ∧ (d.mainRun = true → x.reads = r :: rest →
      let d' := d.setDmaQ i { x with reads := rest }
      (r.bad = true → exec (.dmaTxFrameIn t) s = .next (s.ends
        ((d'.qCount i 2).txWrite i { status := some 3, descs := r.descs })))
      ∧ (r.bad = false → exec (.dmaTxFrameIn t) s = .next (s.ends (
          let d' := (d'.inject 41 r.data 0 0)
          let d2 := (d'.2.qCount i 0).qCount i 1 r.data.length
          if r.ts then d2.txWrite i { frm := some d'.1, descs := r.descs }
          else d2.txWrite i { status := some 0, descs := r.descs }))))
    -- a time stamp that does not come in time is written back as lost (R391)
    ∧ (d.mainRun = true → x.wbs.find? (fun w => w.status.isNone && decide (w.since + 2 * msTicks ≤ d.now)) = some w → w.frm = some id →
      exec (.tsTimeout t) s = .next (s.ends ((d.qCount i 3).txSettle id 2 none)))
    -- the moderation timer ends: what is unannounced is announced by the queue's vector (R392)
    ∧ (d.mainRun = true → (d.dmaQ q).unann ≠ 0 → d.qf q R.DMA_Q_IRQ_EN = 1 →
        (d.dmaQ q).timerAt + d.qf q R.DMA_Q_IRQ_ITR_US * usTicks ≤ d.now →
      exec (.dmaItrExpire q) s = .next (s.ends
        ((d.setDmaQ q { d.dmaQ q with unann := 0 }).sendMsix (d.qf q R.DMA_Q_IRQ_VECTOR))))
    -- a mailbox's party submits a request (R394, R396); the pair of its code takes it when framing is good (R397)
    ∧ (d.admits who lbxPg (0x80 + 0x10 * m.val) = true → who.code = mbParty m → d.mbState m ≠ 1 → d.mbState m ≠ 2 →
      exec (.mailboxGo who m) s = .next (s.ends (d.wrote who lbxPg (0x80 + 0x10 * m.val) (2 ^ 31) (fun d =>
        let d := (d.setResp m []).setMb m 1
        let d := d.withLbx (fun l => { l with go := l.go.set m (l.order, d.now), order := l.order + 1 })
        d.when (decide (2 ≤ codePair (d.word lbxPg (reqOff m 0) / 2 ^ 16))) Dev.idleReturn))))
    ∧ (let w := d.word lbxPg (reqOff m 0)
       let k := d.carrier (codePair (w / 2 ^ 16))
       let body := (List.range (w % 64)).map (fun i => d.word lbxPg (reqOff m (2 + i)))
       d.mainRun = true → d.mbState m = 1 → d.mbAhead m = false → d.flag bootPg R.BOOT_STATUS_HOLD = false →
        (d.pairState 2 ≠ 5 ∨ d.pairState 3 ≠ 5) → d.pairState k = 1 → d.framing m (w / 2 ^ 16) (w % 64) body = 0 →
      exec (.mailboxTaken m) s = .next (s.ends ((d.setMb m 2).withLbx (fun l => { l with
        runs := l.runs ++ [⟨m, w / 2 ^ 16, bits w 15 8, body, (d.lbx.go.getD m (0, 0)).2, k, false, d.now⟩] }))))

/-- The Letterbox commands of hardware, firewall, schedules, captures, history, MKA and events, each run to its
response (R399, R200, R258, R415, R437, R466, R478). -/
def Obligations.MailboxCommandsComplete : Prop :=
  ∀ (s : State) (m : Fin 4) (r : MbRun) (image : List Byte) (port : Fin 24) (step : MkaStep) (ok : Bool) (secs : List SchedSec),
    let d := s.begun
    let runs (code : Nat) : Prop := d.mainRun = true ∧ d.mbRun m code = some r
    let w (i : Nat) : Nat := r.body.getD i 0
    let answers (c : Instr) (ws : List Nat) (d' : Dev) : Prop := exec c s = .next (s.ends (d'.mbEnd r 0 ws))
    -- ECHO answers its body; INFO the firmware, the slot, the start's number and the unit (R399)
    (runs 1 → answers (.echo m) r.body d)
    ∧ (runs 2 → answers (.info m) ([0, d.fwVersion, d.activeSlot, d.fld bootPg R.BOOT_START_NUMBER_NUMBER]
        ++ (List.range 4).map (fun k => Config.unitId / 2 ^ (32 * k) % 2 ^ 32)) d)
    -- CT_QUERY answers the record and counters of the connection, or 1; CT_FLUSH frees the matches; CT_DUMP writes them
    ∧ (runs 0x0710 → d.ctServes = true → bits (w 0) 15 8 ∈ [1, 6, 17, 58] → bits (w 0) 7 6 ≠ 0 → bits (w 0) 7 6 ≠ 3 →
      answers (.ctQuery m) (match d.ctQuery r.body with
        | some c => 0 :: (c.recordA ++ c.counters)
        | none => [1]) d.ctCmd)
    ∧ (runs 0x0711 → d.ctServes = true →
      let hit := d.ctAll.filter (ctMatches (w 0))
      answers (.ctFlush m) [0, hit.length] (hit.foldl Dev.ctFree d).ctCmd)
    ∧ (runs 0x0712 → d.ctServes = true → iovaBad (r.wide 0) = false →
      let hit := d.ctAll.filter (ctMatches (w 3))
      let out := hit.take (w 2 / 128)
      answers (.ctDump m) [if out.length < hit.length then 4 else 0, out.length]
        (d.when (!out.isEmpty) (fun d => d.emit (.hostWrite (r.wide 0) (out.flatMap dumpBytes)))).ctCmd)
    -- SCHED_LOAD applies a good image to the pages it names, where no lock is held and no list is copied (R258)
    ∧ (runs 0x0900 → iovaBad (r.wide 0) = false → schedHeader image (w 2) = 0 →
        schedSections image (imgW image 0x0C % 2 ^ 16) 0 64 [] = .ok secs →
        (enum secs).find? (fun e => (List.range e.2.count).any (fun k => e.2.bad image k)) = none →
      let pages := (secs.map SchedSec.page).eraseDups
      pages.any (fun p => d.flag p R.PAGE_LOCK_HELD || (p.kind == .sch && d.flag p R.SCH_GCL_STAT_COPYING)) = false →
      answers (.schedLoad m image) [0] (secs.foldl (fun d x => d.schedWrite image x)
        (pages.foldl (fun d p => d.incWrap p R.PAGE_LOCK_GRANT_SEQ) d)))
    -- CAP_READ writes the bytes of a capture region that the host holds (R415)
    ∧ (runs 0x0C01 → bitAt (d.claim (0x20 + w 0 % 16)) 31 = true →
        d.fld sysPg (R.SYS_CLAIM_FEATURE.at (0x20 + w 0 % 16)) = 5 → w 4 ≠ 0 → w 4 ≤ 2 ^ 24 →
        w 1 * 64 + w 4 ≤ d.capUnits (w 0 % 16) * 64 → iovaBad (r.wide 2) = false →
      answers (.capRead m true) [0, w 4] (d.emit (.hostWrite (r.wide 2) (d.memRead (d.capBase (w 0 % 16) + 64 * w 1) (w 4)))))
    -- RESTART_HISTORY answers every recorded restart (R437)
    ∧ (runs 0x0D01 → answers (.restartHistory m) (d.ccl.history.length * 256 :: d.ccl.history.flatMap (fun x =>
        [x.word, x.us, x.at0 % 2 ^ 32, x.at0 / 2 ^ 32 % 2 ^ 32])) d)
    -- MKA_SET starts or ends MKA on a port; MKA_STATUS tells where it stands; its timers act (R466)
    ∧ (runs 0x0B01 → answers (.mkaSet m) [(d.mkaSet r.body).1] (d.mkaSet r.body).2)
    ∧ (runs 0x0B02 → w 0 % 32 ≤ 23 →
      let x := d.mka (w 0 % 32)
      answers (.mkaStatus m) [0, x.state * 2 ^ 28 + b2n x.keyServer * 2 ^ 27 + x.txAn * 2 ^ 24 + min x.live 255, x.keyNumber,
        if x.state = 3 then (d.now - x.installedAt) / (1000 * msTicks) % 2 ^ 32 else 0] d)
    ∧ (d.mainRun = true → d.idleReturn.duty 3 = true → (d.idleReturn.mka port).en = true →
      exec (.mkaTimerDue port step) s = .next (s.ends (
        let d' := d.idleReturn
        match step with
        | .send body => (d'.inject 40 (d'.mkpduFrame port body) (d'.stampNow 0) (d'.stampNow 1)).2
        | .peers n server =>
          let x := d'.mka port
          d'.setMka port { x with live := n.toNat, keyServer := server, state := if n = 0 then 1
            else if x.state = 3 then 3 else 2 }
        | .sak an number wrapped ssci salt peers => d'.mkaSak port an number.toNat wrapped ssci.toNat salt peers
        | .other => d')))
    -- the staged event records are archived, by the firmware or by ARCHIVE_NOW; EVENT_READ writes archived ones (R478)
    ∧ (d.mainRun = true → d.archiveRuns = true → d.flt.staging ≠ [] →
      exec (.archiveCopy ok) s = .next (s.ends (d.archive ok).2))
    ∧ (runs 0x1002 → answers (.archiveNow m true) [0, (d.archive true).1] (d.archive true).2)
    ∧ (runs 0x1001 → iovaBad (r.wide 0) = false →
      let out := (d.flt.archive.filter (fun e => decide ((e.1 + 2 ^ 32 - w 3) % 2 ^ 32 < 2 ^ 31))).take (w 2 / 36)
      let next := match out.getLast? with
        | some e => (e.1 + 1) % 2 ^ 32
        | none => w 3
      answers (.eventRead m true) [0, out.length, next]
        (d.when (!out.isEmpty) (fun d => d.emit (.hostWrite (r.wide 0) (out.flatMap archiveBytes)))))

/-- Firmware slots, activation, configuration records and the save of editions (R154, R505 to R520). -/
def Obligations.UpdateCommandsComplete : Prop :=
  ∀ (s : State) (m : Fin 4) (r : MbRun) (host : List Byte) (slot : Fin 2) (pages k : Nat) (ok : Bool),
    let d := s.begun
    let runs (code : Nat) : Prop := d.mainRun = true ∧ d.mbRun m code = some r
    let w (i : Nat) : Nat := r.body.getD i 0
    let answers (c : Instr) (ws : List Nat) (d' : Dev) : Prop := exec c s = .next (s.ends (d'.mbEnd r 0 ws))
    let n := w 0 % 2
    -- UPD_BEGIN empties a slot that is not active, and its erase begins (R514); the erase ends
    (runs 0x0F01 → d.flag updPg (R.UPD_SLOT_STAT_ACTIVE.at n) = false → d.actPhase = 0 → 8192 ≤ w 1 → w 1 ≤ slotSize →
        w 1 % 4096 = 0 → answers (.updBegin m) [0] (
      let d' := (d.setFlag updPg (R.UPD_SLOT_STAT_CONFIRMED.at n) false).setFld updPg (R.UPD_SLOT_STAT_ROLLBACK.at n) 0
      let d' := (d'.setFld updPg (R.UPD_SLOT_VER_VERSION.at n) 0).setFld updPg (R.UPD_SLOT_LEN_LENGTH.at n) (w 1)
      (d'.withUpd (fun u => { u with known := u.known.filter (· != n), eraseFrom := d.now })).setSlot n 1 0))
    ∧ (d.mainRun = true → d.slotState slot = 1 → d.flashHeld d.upd.eraseFrom = false → exec (.updEraseDone slot) s = .next (s.ends (
        let len := (d.fld updPg (R.UPD_SLOT_LEN_LENGTH.at slot) + 65535) / 65536 * 65536
        let d' := d.withFlash (fun f => f.eraseAt (slotBase slot) len)
        (d'.withUpd (fun u => { u with known := u.known ++ [slot.val] })).setSlot slot 2 0)))
    -- an inline block with a good CRC is programmed into an erasable slot and counted (R514)
    ∧ (let size := w 2 % 2 ^ 17
       let data := ((r.body.drop 4).flatMap (leBytes 4)).take size
       runs 0x0F02 → bitAt (w 0) 1 = true → w 1 % 4 = 0 → size % 4 = 0 → 4 ≤ size → size ≤ 232 →
        w 1 + size ≤ d.fld updPg (R.UPD_SLOT_LEN_LENGTH.at n) → w 1 / 65536 = (w 1 + size - 1) / 65536 →
        d.slotState n = 2 → data.length = size → crc32c data = w 3 → d.overlaps (slotBase n + w 1) data = false →
      answers (.updBlock m host true) [0]
        (((d.withFlash (fun f => f.program (slotBase n + w 1) data)).cnt updPg 0).cnt updPg 1 size))
    -- UPD_FINISH checks the image of a slot under way: the slot is VALID, or INVALID with the reason, a fault where it is
    -- the signature; version and rollback number show but for what is no image at all (R514)
    ∧ (runs 0x0F03 → d.slotState n = 2 →
      let img := d.slotImage n
      let c := img.2.imageCheck n (img.2.fld updPg (R.UPD_SLOT_LEN_LENGTH.at n)) img.1
      let d' := if c.1 = 4 then c.2 else
        (c.2.setFld updPg (R.UPD_SLOT_VER_VERSION.at n) (imgLe img.1 0x14)).setFld updPg
          (R.UPD_SLOT_STAT_ROLLBACK.at n) (imgLe img.1 0x18 % 64)
      let d' := (d'.setSlot n (if c.1 = 0 then 3 else 4) c.1).mbEnd r 0 [if c.1 = 0 then 0 else 0x0E, c.1]
      exec (.updFinish m) s = .next (s.ends (if 1 ≤ c.1 ∧ c.1 ≤ 3 then d'.fault { cls := 9, page := updPg } else d')))
    -- UPD_CANCEL of a slot under way makes it INVALID; UPD_CONFIRM of the active image raises the rollback count
    ∧ (runs 0x0F06 → d.actPhase ≠ 4 → d.slotState n = 2 → answers (.updCancel m) [0]
        ((d.withUpd (fun u => { u with known := u.known.filter (· != n) })).setSlot n 4 8))
    ∧ (runs 0x0F05 → d.flag updPg (R.UPD_SLOT_STAT_ACTIVE.at n) = true → d.actPhase = 0 →
        d.fld updPg R.UPD_ACT_DONE_MASK = 0xF → answers (.updConfirm m) [0] (
      let count := max (d.fld updPg R.UPD_ROLLBACK_COUNT) (d.fld updPg (R.UPD_SLOT_STAT_ROLLBACK.at n))
      let d' := d.setFld updPg R.UPD_ROLLBACK_COUNT count
      let d' := (d'.setFlag updPg (R.UPD_SLOT_STAT_CONFIRMED.at n) true).setFlag updPg (R.UPD_SLOT_STAT_CONFIRMED.at (1 - n))
        false
      d'.when (d'.slotState (1 - n) == 3 && decide (d'.fld updPg (R.UPD_SLOT_STAT_ROLLBACK.at (1 - n)) < count)) (fun d =>
        d.setSlot (1 - n) 4 7)))
    -- UPD_ACTIVATE that passes its tests begins after its response (R515); a step of the renewal ends (R516)
    ∧ (runs 0x0F04 → (d.actStatus (bits (w 0) 4 4) (w 0 % 4) (r.wide 1)).1 = 0 →
      exec (.updActivate m) s = .next (s.ends (((d.actStatus (bits (w 0) 4 4) (w 0 % 4) (r.wide 1)).2.mbEnd r 0 [0]).actBegin
        (bits (w 0) 4 4) (w 0 % 4) (r.wide 1))))
    ∧ (d.mainRun = true → d.actPhase = 3 →
      exec (.hitlessStepDone .done) s = .next (s.ends (
        let p := d.fld updPg R.UPD_ACT_PAIR
        let d' := (d.pairBack p).setFld updPg R.UPD_ACT_DONE_MASK (d.fld updPg R.UPD_ACT_DONE_MASK ||| 2 ^ p)
        (d'.withUpd (fun u => { u with todo := u.todo.drop 1 })).renewNext)))
    -- the time of a scheduled activation has come: the slot is active and the device resets (R515, R520)
    ∧ (d.mainRun = true → d.actPhase = 4 → d.feature 6 = true → d.wide updPg 0xA8 ≤ d.time →
      exec .scheduledActivation s = .next (s.ends (d.activateReset d.upd.slot)))
    -- CONFIG_SAVE with no lock held or torn records the configuration (R523); the copies are compacted (R524)
    ∧ (runs 0x0F10 → allPages.any (fun p => d.flag p R.PAGE_LOCK_HELD || d.flag p R.PAGE_STAT_TORN) = false →
        d.cfgFits pages = true → answers (.configSave m pages true) [0] (
      let d' := allPages.foldl (fun d p => d.incWrap p R.PAGE_LOCK_GRANT_SEQ) d
      (d'.withCfg (fun c => c.put (fun x => { x with conf := some (d'.cfgRecord r.body) }))).cfgAppend pages))
    -- the copy being compacted ends with the other copy's records, and what was appended meanwhile (R508)
    ∧ (d.mainRun = true → d.cfg.compact = some k → d.flashHeld d.cfg.since = false →
      let y : CfgCopy := { (if k = 0 then d.cfg.b else d.cfg.a) with used := pages + d.cfg.meanwhile }
      let c := if k = 0 then { d.cfg with a := y } else { d.cfg with b := y }
      -- after the first copy the other is erased and compacted
      (d.cfg.second = false → exec (.compactionDone pages) s = .next (s.ends { d with cfg :=
        let c := if 1 - k = 0 then { c with a := {} } else { c with b := {} }
        { c with compact := some (1 - k), second := true, meanwhile := 0, since := d.now } }))
      -- after the second the compaction is done: counted, and raised
      ∧ (d.cfg.second = true → exec (.compactionDone pages) s = .next (s.ends
        (({ d with cfg := { c with compact := none, second := false, meanwhile := 0 } }.cnt updPg 4).raise updPg 3))))
    -- an edition is saved, and the commit goes on; after the flip the held headers and messages go on (R154)
    ∧ (d.mainRun = true → d.bur.committing = true → d.bur.paused = false → d.flashHeld d.bur.saveAt = false →
      exec (.editionSaveDone pages ok) s = .next (s.ends (
        let good := ok && d.cfgFits pages
        ((d.when good (fun d => d.cfgAppend pages)).edSaved good).goneDone)))
    ∧ (d.mainRun = true → d.bur.paused = true → d.bur.flipped = true →
      exec .editionResume s = .next (s.ends ((d.edResume.goneDone).edgeResume)))

/-- The deep store, the MMU and the movers (R400 to R421). -/
def Obligations.StoreCommandsComplete : Prop :=
  ∀ (s : State) (who : Owner) (arrived : List DsArrival) (requester : BitVec 8) (found : Fin 3) (addr : BitVec 64)
    (r : DsReq) (rs : List DsReq) (code : Fin 8) (hot walkBad fail : Bool) (scope : Fin 4) (ctx : Fin 16) (ch : Fin 32)
    (prio : Fin 4) (inv : Nat × Nat × Nat) (invs : List (Nat × Nat × Nat)) (host : List Byte) (c : Nat),
    let d := s.begun
    let off := 0x1000 + 0x40 * ch.val
    -- the requests that arrived queue, and the arbiter grants one (R405)
    (d.mainRun = true → d.isOn dstPg = true →
      exec (.deepStoreGrant arrived) s = .next (s.ends (arrived.foldl Dev.dsArrive d).dsGrant))
    -- a granted read returns; a corrected error is counted, an uncorrectable one poisons it (R402)
    ∧ (d.mainRun = true → d.isOn dstPg = true → d.dst.reads.find? (fun r => r.who == requester.toNat) = some r →
        d.isArmed dstPg 0 = false →
      exec (.deepStoreReadDone requester found addr) s = .next (s.ends (
        -- the requester may now have one more outstanding (R405)
        let d' := ((d.disarm dstPg 0).withDst (fun s => { s with reads := dropReq r s.reads })).dsMore
        if found.val = 2 then
          (d'.withDst (fun s => { s with poison := s.poison ++ [⟨r.who, r.tag, false⟩] })).dsUncorr r.who
            (r.block addr.toNat) false
        else d'.when (found.val == 1) (fun d => d.cnt dstPg 0))))
    -- starvation and a stall are found in the oldest due request (R408)
    ∧ (d.mainRun = true → d.isOn dstPg = true →
      (d.dst.waiting.filter (fun r => !r.starved && decide (r.at0 + 4 * d.fld dstPg R.DST_ARB_CFG_STARVE_NS ≤ d.now)) = r :: rs →
        exec .starvation s = .next (s.ends (
          let x := rs.foldl older r
          let d' := d.dsMark x { x with starved := true }
          let d' := d'.record dstPg R.DST_STARVE_VALID R.DST_STARVE_OVERRUN (fun d =>
            (d.setFld dstPg R.DST_STARVE_REQUESTER x.who).setFld dstPg R.DST_STARVE_WAIT_NS
              (min ((d.now - x.at0) / 4) 0xFFFF))
          (d'.cnt dstPg 4).raise dstPg 0)))
      ∧ (d.dst.waiting.filter (fun r => !r.stalled && decide (r.at0 + usTicks * d.fld dstPg R.DST_ARB_CFG_STALL_US ≤ d.now))
          = r :: rs →
        exec .arbiterStall s = .next (s.ends (
          let x := rs.foldl older r
          (d.dsMark x { x with stalled := true }).fault { cls := 0, page := dstPg }))))
    -- one microsecond of credit for each limit (R410); MR4 (R403); a patrol read; a granule initialised
    ∧ (d.mainRun = true → d.isOn dstPg = true →
      exec .arbLimitCredit s = .next (s.ends (Dev.dsUse ([0, 1, 2].foldl (fun d k =>
        if d.flag dstPg (R.DST_ARB_LIMIT_EN.at k) then
          d.withDst (fun s => { s with credit := s.credit.set k (min 4096 (s.credit.getD k 0
            + d.fld dstPg (R.DST_ARB_LIMIT_RATE.at k))) })
        else d.withDst (fun s => { s with credit := s.credit.erase k })) d)))
      ∧ exec (.mr4Poll code hot) s = .next (s.ends (
          let d' := (d.setFld dstPg R.DST_TEMP_MR4 code).setFlag dstPg R.DST_TEMP_DERATED hot
          d'.when (d.flag dstPg R.DST_TEMP_DERATED != hot) (fun d => d.raise dstPg 3)))
      ∧ (d.flag dstPg R.DST_SCRUB_EN = true → ((d.dst.waiting ++ d.dst.reads).filter (fun r => r.who == 5)).length < 2 →
        exec .patrolScrub s = .next (s.ends (
          let d' := d.dsAsk { who := 5, at0 := 0, bytes := 64, addr := some d.dst.scrubAt }
          if d.dst.scrubAt + 64 < d'.dstSize then d'.withDst (fun s => { s with scrubAt := d.dst.scrubAt + 64 })
          else ((d'.withDst (fun s => { s with scrubAt := 0 })).cnt dstPg 5).raise dstPg 2)))
      ∧ (d.dst.granules < d.dstSize / 2 ^ 21 → exec .eccInitGranule s = .next (s.ends
          (d.withDst (fun s => { s with granules := s.granules + 1 })))))
    -- RESTART of DST_USE: the peak is the use now (R411)
    ∧ (d.admits who dstPg 0x84 = true → exec (.useRestart who) s = .next (s.ends (d.wrote who dstPg 0x84 (2 ^ 31) (fun d =>
        d.setFld dstPg R.DST_USE_PEAK (d.fld dstPg R.DST_USE_USE)))))
    -- an invalidation of a scope queues and drops what it names (R418)
    ∧ (d.admits who mmuPg 0x180 = true → mmuWriter who = true → scope.val ≠ 3 →
      exec (.mmuInv who scope ctx) s = .next (s.ends (d.wrote who mmuPg 0x180 (2 ^ 31 + scope.val * 2 ^ 29 + ctx.val) (fun d =>
        let d := (d.setFld mmuPg R.MMU_INV_SCOPE scope).setFld mmuPg R.MMU_INV_CTX ctx
        d.withMmu (fun m => { m with invs := m.invs ++ [(scope.val, ctx.val, d.fld mmuPg R.MMU_INV_DVA_DVA)] })))))
    ∧ (d.mainRun = true → d.mmu.invs = inv :: invs →
      exec .mmuInvDone s = .next (s.ends (
        let gone (t : Tlb) : Bool :=
          inv.1 == 0 || (t.ctx == inv.2.1 && (inv.1 == 1 || t.page == inv.2.2 / 2 ^ t.log))
        (d.withMmu (fun m => { m with tlb := m.tlb.filter (fun t => !gone t), invs := invs })).raise mmuPg 2)))
    -- START of a free channel copies its addresses and length and waits for a slot (R419); RESUME and ABORT (R421)
    ∧ (d.admits who mmuPg off = true → mmuWriter who = true →
      (d.movFree ch = true →
        exec (.movStart who ch prio ctx) s = .next (s.ends (d.wrote who mmuPg off (2 ^ 31 + prio.val * 2 ^ 24 + ctx.val) (fun d =>
          let d := (d.setFld mmuPg (R.MOV_CTRL_PRIO.at ch) prio).setFld mmuPg (R.MOV_CTRL_CTX.at ch) ctx
          let d := d.setWord mmuPg (0x1004 + 0x40 * ch) (who.code * 2 ^ 24)
          let d := (d.setFld mmuPg (R.MOV_CUR_SRC_DVA.at ch) (d.fld mmuPg (R.MOV_SRC_DVA.at ch))).setFld mmuPg
            (R.MOV_CUR_DST_DVA.at ch) (d.fld mmuPg (R.MOV_DST_DVA.at ch))
          (d.setFld mmuPg (R.MOV_REMAIN_BYTES.at ch) (d.fld mmuPg (R.MOV_LEN_BYTES.at ch))).movWait ch))))
      ∧ (d.movState ch = 3 → exec (.movResume who ch) s = .next (s.ends
          (d.wrote who mmuPg off (2 ^ 30) (fun d => d.movWait ch))))
      ∧ exec (.movAbort who ch) s = .next (s.ends (d.wrote who mmuPg off (2 ^ 29) (fun d =>
          if d.movState ch = 2 then d.setMov ch { d.mov ch with abort := true }
          else if d.movState ch = 1 || d.movState ch = 3 then d.movAborted ch else d))))
    -- a waiting channel takes a free slot (R419); a running one ends its block
    ∧ (d.mainRun = true → d.movNext = some c → ((List.range 32).filter (fun x => d.movState x == 2)).length < 4 →
      exec (.movSlotGrant walkBad) s = .next (s.ends ((d.setMovState c 2).movIssue c walkBad)))
    ∧ (d.mainRun = true → d.movState ch = 2 →
        let m := d.mov ch
        (d.dsTake (0x20 + ch) 0).1 = false → (d.dsTake (0x20 + ch) 0).2.dsPending (0x20 + ch) 0 = false → ((m.src ++ m.dst).any (·.1)) = false →
      exec (.movBlockDone ch host fail walkBad) s = .next (s.ends (
        let d' := (d.dsTake (0x20 + ch) 0).2
        let n := (m.src.map (·.2.2)).sum
        let bs := d'.readParts m.src host
        let d' := bs.2.writeParts (0x20 + ch) m.dst bs.1
        let d' := (d'.setFld mmuPg (R.MOV_CUR_SRC_DVA.at ch) (d'.fld mmuPg (R.MOV_CUR_SRC_DVA.at ch) + n)).setFld mmuPg
          (R.MOV_CUR_DST_DVA.at ch) (d'.fld mmuPg (R.MOV_CUR_DST_DVA.at ch) + n)
        let d' := d'.setFld mmuPg (R.MOV_REMAIN_BYTES.at ch) (d'.fld mmuPg (R.MOV_REMAIN_BYTES.at ch) - n)
        if d'.fld mmuPg (R.MOV_REMAIN_BYTES.at ch) = 0 then d'.movDone ch
        else if m.abort then d'.movAborted ch
        else if m.ownerGone then d'.movPark ch 6
        else if m.preempt then (d'.incSat mmuPg (R.MOV_STAT_PREEMPTS.at ch)).movWait ch
        else d'.movIssue ch walkBad)))

/-- The service pairs and the slow path (R422 to R437). -/
def Obligations.ClusterCommandsComplete : Prop :=
  ∀ (s : State) (n : Fin 4) (cause : Fin 5) (point corr : BitVec 8) (corrected uncorr : Bool),
    let d := s.begun
    -- a RUNNING pair commits a checkpoint: its number and time, and an empty log (R425, R429); errors corrected count
    (d.mainRun = true → d.pairState n = 1 →
      exec (.checkpoint n corr) s = .next (s.ends (
        let early := decide (8192 ≤ (d.pair n).undo.length)
        let d' := (d.incWrap cclPg (R.CCL_PAIR_STAT_CKPT_SEQ.at n)).setWide cclPg (0x88 + 0x10 * n) d.time
        let d' := (d'.setPair n { d'.pair n with undo := [] }).setFld cclPg (R.CCL_PAIR_UNDO_KIB.at n) 0
        let d' := (d'.pairCnt n 0).when early (fun d => d.pairCnt n 1)
        -- the slot not used last takes the state, a free value (assumption 155); pairs 2 and 3 mirror theirs (R493)
        let slot := 1 - (d'.pair n).slot
        let x := Config.free d'.draw.1 % 2 ^ 32
        let d' := d'.draw.2
        let d' := d'.setPair n { d'.pair n with slot := slot, ckpt := x }
        let d' := if 2 ≤ n.val then d'.carbon 3 [n, 0x10000 * slot, (d'.pair n).ckpt] else d'
        d'.addCount cclPg (0x400 + 0x40 * n + 8 * 3) corr.toNat)))
    -- a pair that runs restarts for a cause its comparison, firmware or watchdog finds (R424, R430)
    ∧ (d.mainRun = true → d.pairState n = 1 → cause.val ≠ 0 → cause.val ≠ 4 →
      exec (.pairRestart n cause point) s = .next (s.ends
        (d.pairRestart n cause (if cause.val = 3 then 0 else point.toNat) (pairChecker n cause point.toNat) false)))
    -- the restart ends: the pair runs again, or fails (R430)
    ∧ (d.mainRun = true → d.pairState n = 3 →
      exec (.pairResumed n false) s = .next (s.ends (d.pairResume n))
      ∧ exec (.pairResumed n true) s = .next (s.ends (d.pairFail n 0xFF)))
    -- the partner covers a FAILED pair's duties (R432)
    ∧ (d.mainRun = true → d.pairState n = 5 → d.pairRuns (partner n) = true →
        d.flag cclPg (R.CCL_PAIR_STAT_COVER.at (partner n)) = false →
      exec (.pairTakeover n) s = .next (s.ends
        ((d.setFlag cclPg (R.CCL_PAIR_STAT_COVER.at (partner n)) true).raise cclPg 3)))
    -- the slow path takes the next frame of port 40 (R438)
    ∧ (d.mainRun = true → d.duty 2 = true →
      d.ccl.slowAt ≤ d.now → d.stalled 0 12 = false →
      let d0 := (d.pick 40 (d.queued 40 + 1)).2
      -- one frame in a slow-path period
      let d' := { d0 with ccl := { d0.ccl with slowAt := d0.now + slowPeriod } }
      ∀ qc, (d.pick 40 (d.queued 40 + 1)).1 = some qc →
        let d2 := d'.released 40 qc.1 qc.2 qc.2.read.2
        d2.shlInject qc.2 = none → (d.pairState 2 ≠ 5 ∨ d.pairState 3 ≠ 5) →
      exec (.slowPathTake corrected uncorr) s = .next (s.ends (
        let d2 := if corrected then d2.shlCnt 16 else d2
        if uncorr then
          (((d2.shlCnt 15).raise shlPg 3).fault { cls := 0, page := shlPg, checker := 0x10 }).endOf qc.2
        else
          let frm := qc.2.frm
          ((((d2.txSettle frm.id 0 none).endOf qc.2).slowCnt 0).slowAct { frm with data := qc.2.read.1 }).lowWater)))
    -- datagrams 2 ms old are given up and counted (R441)
    ∧ (d.mainRun = true → exec .reasmTimeout s = .next (s.ends (
        let due (g : Datagram) : Bool := decide (g.at0 + 2 * msTicks ≤ d.now)
        let n := (d.ccl.held.filter due).length
        if n = 0 then d
        else Dev.slowCnt { d with ccl := { d.ccl with held := d.ccl.held.filter (fun g => !due g) } } 5 n)))

/-- Keys, tampering and the Wax engine (R438 to R458), and the MACsec tables (R462). -/
def Obligations.SecurityCommandsComplete : Prop :=
  ∀ (s : State) (who : Owner) (slot parent : BitVec 8) (root stored : Bool) (format : Fin 2) (source c : Fin 4)
    (ctrl : BitVec 29) (k : Fin 6) (run : KeyRun) (sa : SaRun) (w : Nat),
    let d := s.begun
    -- GO of a key command by the lock's holder plans it and, where it ciphers, asks the Wax engine (R444, R445)
    (d.admits who keyPg 0xC0 = true → d.holds keyPg who = true → d.flag keyPg R.KEY_CMD_STAT_BUSY = false →
      let begins (op v : Nat) : Dev := d.wrote who keyPg 0xC0 v (fun d =>
        let d := (d.setWord keyPg 0xC0 (v &&& 0x4FFFFF01)).setFlag keyPg R.KEY_CMD_STAT_BUSY true
        let plan := (d.cnt keyPg 0).keyPlan who.code v
        let d := plan.2.withKeys (fun x => { x with run := some { plan.1 with since := plan.2.now } })
        if usesWax op && plan.1.result = 0 then (d.withWax (fun w => { w with keyWork := true })).waxKick else d)
      exec (.keyGenerate who slot) s = .next (s.ends (begins 1 (keyCmd 1 slot)))
      ∧ exec (.keyDerive who slot root parent format) s = .next (s.ends
          (begins 2 (keyCmd 2 slot + b2n root * 2 ^ 30 + parent.toNat * 2 ^ 8 + format.val)))
      ∧ exec (.keyLoad who slot) s = .next (s.ends (begins 3 (keyCmd 3 slot)))
      ∧ exec (.keyImport who slot parent) s = .next (s.ends (begins 4 (keyCmd 4 slot + parent.toNat * 2 ^ 8)))
      ∧ exec (.keyUnwrapKw who slot parent) s = .next (s.ends (begins 5 (keyCmd 5 slot + parent.toNat * 2 ^ 8)))
      ∧ exec (.keyWrapKw who slot parent) s = .next (s.ends (begins 6 (keyCmd 6 slot + parent.toNat * 2 ^ 8)))
      ∧ exec (.keySetAttr who slot) s = .next (s.ends (begins 7 (keyCmd 7 slot)))
      ∧ exec (.keyDestroy who slot) s = .next (s.ends (begins 8 (keyCmd 8 slot))))
    -- a planned command that succeeds has its effect, recorded in flash where the key is kept there (R445, R449)
    ∧ (d.keys.run = some run → run.result = 0 → (d.keyRecords run && d.flashHeld run.since) = false →
      exec (.keyCmdDone stored) s = .next (s.ends (
        if d.keyRecords run then
          if stored then ((d.keyEffect run).recordSlot run.slot).keyEnd run 0 else d.keyEnd run 8
        else (d.keyEffect run).keyEnd run 0)))
    -- a tamper source that is enabled clears the slots and locks the vault out (R448)
    ∧ (d.tamperOn source = true →
        let d' := (d.withKeys (fun k => { k with active := k.active ||| 2 ^ source.val }))
        d'.lockout = false →
      exec (.tamperDetect source) s = .next (s.ends (
        let d' := d'.setWord keyPg 0x88 (d'.word keyPg 0x88 ||| 2 ^ source.val)
        let d' := (d'.setFlag keyPg R.KEY_TAMPER_STAT_LOCKOUT true).setFlag keyPg R.KEY_TAMPER_STAT_FUSE_PENDING true
        let kill := d'.flag keyPg R.KEY_TAMPER_CFG_KILL_ROOT || decide (32 ≤ d'.keys.tamperFuses)
        let d' := d'.withKeys (fun k => { k with revokeDue := kill })
        let d' := ((d'.tamperClear).cnt keyPg 4).raise keyPg 1
        d'.when d'.mainRun (fun d => d.fault { cls := 10, page := keyPg }))))
    -- the tamper fuse is blown; the root key is revoked; a source goes quiet (R448 to R450)
    ∧ (d.flag keyPg R.KEY_TAMPER_STAT_FUSE_PENDING = true → exec .tamperFuseDone s = .next (s.ends (
        let d' := d.withKeys (fun k => { k with tamperFuses := min (k.tamperFuses + 1) 32, record := none })
        (d'.setFlag keyPg R.KEY_TAMPER_STAT_FUSE_PENDING false).lockoutEnd)))
    ∧ (d.keys.revokeDue = true → d.flag keyPg R.KEY_TAMPER_STAT_FUSE_PENDING = false → exec .rootRevokeDone s = .next (s.ends (d.withKeys (fun k => { k with
        revokeDue := false, revA := k.revA || k.bank == some 0, revB := k.revB || k.bank == some 1 }))))
    ∧ exec (.tamperSourceInactive source) s = .next (s.ends
        (d.withKeys (fun k => { k with active := k.active &&& (0xF - 2 ^ source.val) })).lockoutEnd)
    -- GO, ABORT and RELEASE of a Wax context by the party it accepts (R452, R454)
    ∧ (d.admits who waxPg (0x800 + 0x80 * c.val) = true → ctxAccepts c who.code = true →
      let v := 2 ^ 31 + ctrl.toNat
      (d.ctxWritable c who.code = true → 1 ≤ bits v 23 20 → bits v 23 20 ≤ 4 → ((d.ctxState c = 4) == bitAt v 28) = false →
        exec (.waxGo who c ctrl) s = .next (s.ends (d.wrote who waxPg (0x800 + 0x80 * c.val) v (fun d =>
          (d.setWord waxPg (0x800 + 0x80 * c.val) (v &&& 0x1FFFFF00)).ctxGo c who.code (bitAt v 28) (bitAt v 27)))))
      ∧ (d.ctxOwner c = who.code → 1 ≤ d.ctxState c → d.ctxState c ≤ 4 →
        exec (.waxAbort who c) s = .next (s.ends (d.wrote who waxPg (0x800 + 0x80 * c.val) (2 ^ 30) (fun d =>
          if d.wax.cur.isSome then d.setWaxMsg c { d.waxMsg c with aborting := true } else d.ctxAbort c))))
      ∧ (d.ctxOwner c = who.code → d.ctxState c = 5 →
        exec (.waxRelease who c) s = .next (s.ends (d.wrote who waxPg (0x800 + 0x80 * c.val) (2 ^ 29) (fun d =>
          d.ctxRelease c)))))
    -- a block ends and the engine switches as its order asks (R453)
    ∧ (d.wax.cur = some w → exec (.waxBlockBoundary false) s = .next (s.ends (
        let d' := d.cnt waxPg 0
        let d' := (List.range 4).foldl (fun d c =>
          if (d.waxMsg c).aborting && d.ctxState c != 0 then d.ctxAbort c else d) d'
        Dev.waxSwitch 5 d')))
    -- a MACsec table command takes the selected SA and the words, and ends with its result (R462)
    ∧ (let p : Page := ⟨.msc, k⟩
       d.admits who p 0x104 = true → d.flag p R.MSC_SA_STAT_BUSY = false →
      let go (write : Bool) (d : Dev) : Dev :=
        let r : SaRun := { write := write, j := d.fld p R.MSC_SA_SEL_PORT, index := d.fld p R.MSC_SA_SEL_INDEX,
                           words := (List.range 12).map (fun w => d.fld p (R.MSC_SA_W_WORD.at w)) }
        let d := { d with msc := { d.msc with runs := d.msc.runs.set k.val r } }
        (d.setFld p R.MSC_SA_CMD_OP (b2n write)).setFlag p R.MSC_SA_STAT_BUSY true
      exec (.macsecSaRead who k) s = .next (s.ends (d.wrote who p 0x104 (2 ^ 31) (go false)))
      ∧ exec (.macsecSaWrite who k) s = .next (s.ends (d.wrote who p 0x104 (2 ^ 31 + 1) (go true))))
    ∧ (d.mainRun = true → d.msc.runs.get? k.val = some sa →
      exec (.macsecSaDone k) s = .next (s.ends (
        let p : Page := ⟨.msc, k⟩
        let d' : Dev := { d with msc := { d.msc with runs := d.msc.runs.erase k.val } }
        let port := 4 * k.val + sa.j
        let done := if sa.write then d'.saWrite port sa.index sa.words
          else (0, (List.range 12).foldl (fun d w =>
            d.setFld p (R.MSC_SA_W_WORD.at w) ((saWords sa.index (d.sa port sa.index).words).getD w 0)) d')
        let d' := (done.2.setFlag p R.MSC_SA_STAT_BUSY false).setFlag p R.MSC_SA_STAT_DONE true
        (d'.setFld p R.MSC_SA_STAT_RESULT done.1).raise p 0)))

/-- The pair of units over the Adjor link (R488 to R501). -/
def Obligations.PairCommandsComplete : Prop :=
  ∀ (s : State) (who : Owner) (words : List Word) (seq : Word) (orders : List (List Word)) (o : Order) (type : Byte)
    (u : Unacked) (irqPage inst : BitVec 16) (stat : Word) (lane : Fin 2) (other : Option (Bool × Fin 16))
    (levels : BitVec 16) (m : Fin 4) (r : MbRun) (h : List Nat) (req : Nat × Access),
    let d := s.begun
    let ws := nats words
    let w (k : Nat) : Nat := ws.getD k 0
    -- HELLO and HEARTBEAT are sent while the ADJ page is ON (R488, R489)
    (d.mainRun = true → d.adjOn = true →
      exec .helloTx s = .next (s.ends (d.adjSend 1 (d.helloWords d.adjState)))
      ∧ exec .heartbeatTx s = .next (s.ends (d.adjSend 2 d.heartbeatWords)))
    -- a matching HELLO of a joining unit: it copies from a holder, or is ALONE (R496)
    ∧ (d.mainRun = true → d.adjOn = true → helloKey ws = helloKey (d.helloWords d.adjState) →
        bits (w 1) 11 8 ≠ d.fld adjPg R.ADJ_CFG_NUMBER → bits (w 1) 31 28 ≠ 0 →
        let d' := (d.withAdj (fun a => { a with hello := some ws })).setFld adjPg R.ADJ_STAT_PEER_NUMBER (bits (w 1) 11 8)
        d'.adjState = 1 →
      exec (.helloRx words) s = .next (s.ends (
        let d' := d'.withAdj (fun a => { a with peerLost := false, missed := 0, heardAt := d'.now })
        if bitAt (w 1) 27 then d'.copyStart else d'.adjPut 2)))
    -- a heartbeat shows the peer's state; a holder that sees COPYING sends the copy (R489, R496)
    ∧ (d.mainRun = true → d.adjOn = true →
      let st := bits (w 0) 31 28
      let d' := d.setFld adjPg R.ADJ_STAT_PEER_STATE st
      let d' := (d'.setFlag adjPg R.ADJ_STAT_PEER_SAFE (bitAt (w 0) 26)).setFld adjPg R.ADJ_STAT_PEER_NUMBER (bits (w 0) 19 16)
      let d' := d'.withAdj (fun a => { a with
        heardAt := d'.now, missed := 0, peerLost := false, peerIndex := w 1 + 2 ^ 32 * w 2 })
      let d' := d'.roundsCheck (w 0 % 65536)
      exec (.heartbeatRx words) s = .next (s.ends (
        if d'.issues && st = 3 && d.fld adjPg R.ADJ_STAT_PEER_STATE ≠ 3 then d'.copySend
        else if d'.adjState = 6 && st = 4 then d'.adjPut 5
        else if bitAt (w 0) 27 && !d'.hasClaim && !d'.safe && (d'.adjState == 5 || d'.adjState == 6 || d'.adjState == 7) then
          d'.copyStart
        else d').creditBack))
    -- a missed heartbeat counts; the third in a row loses the peer (R489)
    ∧ (d.mainRun = true → d.adjOn = true → d.adj.peerLost = false → d.adj.hello.isNone = false →
      exec .heartbeatMissed s = .next (s.ends (
        let n := d.adj.missed + 1
        let d' := (d.withAdj (fun a => { a with missed := n })).cnt adjPg 0
        (if n < 3 then d' else d'.peerLose Dev.remoteLost).creditBack)))
    -- frames that ask an ACK, with a good CRC, are acknowledged and act (R488): orders, CARBON, interrupts, remote access
    ∧ (d.mainRun = true → d.adjOn = true → d.isArmed adjPg 0 = false →
      let acked (type : Nat) : Dev := d.adjSend 5 [type, seq.toNat]
      exec (.orderRx seq true orders) s = .next (s.ends (((orders.take 32).map nats).foldl (fun d ws =>
        (d.orderTake (orderIn ws)).orderApply) (acked 3)))
      ∧ ((acked 4).adjState = 4 → exec (.carbonRx seq true words) s = .next (s.ends ((acked 4).carbonTake ws)))
      ∧ exec (.adjIrqRx seq true irqPage inst stat) s = .next (s.ends
          ((acked 9).emit (.peerIrq irqPage.toNat inst.toNat stat.toNat)))
      ∧ exec (.remoteReqRx seq true words) s = .next (s.ends ((acked 6).access
          { who := .peer, target := .addr (spaceOf (bits (w 0) 9 8)) (w 2), write := bitAt (w 0) 0,
            size := if bitAt (w 0) 1 then 8 else 4, data := w 3 + 2 ^ 32 * w 4, tag := w 1 }))
      ∧ ((acked 7).adj.remote.find? (fun r => r.1 == w 0) = some req → w 1 = 0x80 →
          exec (.remoteRespRx seq true words) s = .next (s.ends (
            let d' := (acked 7).withAdj (fun x => { x with remote := x.remote.filter (fun r => r.1 != req.1) })
            if req.2.write then d' else d'.answer req.2 0x80 (w 2 + 2 ^ 32 * w 3)))))
    -- the order that is due is applied: a write, a MARK or a DIGEST (R492, R499, R500)
    ∧ (d.mainRun = true → d.orderDue = some o →
      (o.kind = 5 → exec .orderApply s = .next (s.ends (d.digestTake o)))
      ∧ (o.kind = 4 → exec .orderApply s = .next (s.ends (d.markTake o)))
      ∧ (o.kind = 1 → exec .orderApply s = .next (s.ends (match d.orderWrite o with
          | some d' => d'.orderPast o (if d'.refusals = d.refusals then 0 else 1) (d.orderCmd d')
          | none => (d.orderPast o 1).diverge false))))
    -- an ACK ends the repeats of its frame; a frame without one is sent again, to the eighth time (R488)
    ∧ (d.mainRun = true →
      exec (.adjAckRx type seq) s = .next (s.ends (d.withAdj (fun a => { a with
        unacked := a.unacked.filter (fun u => !(u.type == type.toNat && u.seq == seq.toNat)) })))
      ∧ (d.adj.unacked.find? (fun u => u.type == type.toNat && u.seq == seq.toNat) = some u → u.tries < 8 →
        exec (.adjRetransmit type seq) s = .next (s.ends (
          let d' := d.withAdj (fun a => { a with
            unacked := a.unacked.map (fun x => if x = u then { x with tries := x.tries + 1 } else x) })
          (d'.cnt adjPg 8).when ((d'.cnt adjPg 8).fld adjPg R.ADJ_STAT_LANES != 0)
            (fun d => d.emit (.adjor type.toNat seq.toNat true u.words))))))
    -- the holder sends TIME and generator numbers; a copying or standing-by unit follows TIME (R492, R493)
    ∧ (d.mainRun = true → d.issues = true →
      exec .carbonGenTx s = .next (s.ends ((List.range 1024).foldl (fun d i =>
        let g := d.frkWord 5 i 0
        if bitAt g 31 then d.carbon 2 [i, g % 2 ^ 16] else d) d))
      ∧ (d.adj.awaited = [] → exec .digestOrderTx s = .next (s.ends (d.issue 5 0 0 0 d.adj.digest)))
      ∧ (d.peerTakes = true → exec .adjTimeTx s = .next (s.ends (d.adjSend 8 d.timeFrame))))
    ∧ (d.mainRun = true → d.adjOn = true → d.adjState = 4 →
      exec (.adjTimeRx words) s = .next (s.ends (
        let ns : Nat := w 0 + 2 ^ 32 * w 1
        let d' := d.setFld adjPg R.ADJ_TIME_ERR_NS (satTo 32 ((d.time : Int) - ns))
        if d'.pairFollow 0 then
          d'.setAnchor 0 { d'.anchor 0 with sub := ns * subPerNs, rate := signed 32 (w 2) }
        else d')))
    -- lanes go down and up (R487)
    ∧ (d.mainRun = true →
      let lanes := d.fld adjPg R.ADJ_STAT_LANES
      (bitAt lanes lane = true → exec (.laneDown lane) s = .next (s.ends (
        let d' := (d.setFld adjPg R.ADJ_STAT_LANES (lanes - 2 ^ lane.val)).withAdj (fun a => { a with
          unacked := a.unacked.map (fun u => if u.lane = lane.val then { u with lane := 1 - lane.val, tries := 0 } else u) })
        (d'.cnt adjPg 9).raise adjPg 4)))
      ∧ (d.adjOn = true → exec (.laneUp lane) s = .next (s.ends
          (d.setFld adjPg R.ADJ_STAT_LANES (lanes ||| 2 ^ lane.val)))))
    -- a claim round that a unit without the claim wins gives it the claim, one that it loses the loss (R494, R495)
    ∧ (d.mainRun = true → d.adjOn = true → d.entersRound = true → d.hasClaim = false →
      exec (.claimRound other levels) s = .next (s.ends (
        let d' := d.withAdj (fun a => { a with rounds := (a.rounds + 1) % 65536 })
        let d' := (d'.emit (.pin 0x21 0)).emit (.pin 0x21 1)
        if d'.winsRound other then d'.claimGain levels.toNat else d'.roundLost false)))
    -- no peer answered the join: the unit is ALONE (R496)
    ∧ (d.mainRun = true → d.adjOn = true → d.adjState = 1 →
      exec .joinTimeout s = .next (s.ends (d.adjPut 2)))
    -- YIELD issues the MARK order; RESYNC of a unit that stands by copies again (R499, R500)
    ∧ (d.admits who adjPg 0x9C = true →
      (d.yieldBarred = false → exec (.adjYield who) s = .next (s.ends (d.wrote who adjPg 0x9C (2 ^ 31) (fun d =>
        let d := d.issue 4 0 0 0 0
        d.withAdj (fun a => { a with markIssued := some (d.fld adjPg R.ADJ_ORDER_IDX_INDEX) })))))
      ∧ (d.adjState = 4 → exec (.adjResync who) s = .next (s.ends (d.wrote who adjPg 0x9C (2 ^ 30) Dev.copyStart))))
    -- PAIR_INFO tells the pair's status and the peer's unit (R501)
    ∧ (d.mainRun = true → d.mbRun m 0x0E01 = some r → d.adj.hello = some h →
      exec (.pairInfo m) s = .next (s.ends (d.mbEnd r 0 ([if d.adj.peerLost then 0x0A else 0, d.word adjPg 0x88]
        ++ (h.drop 6).take 4 ++ [h.getD 10 0, bits (h.getD 1 0) 19 16]))))

end
end

