-- ==== Sys2Proof/Laws/Gate.lean ====
section
/-! SUPPORT. What a write that passes every check of the gate does, and how every command runs. -/

namespace Sys2Proof.Machine

/-- A write that every check admits acts. -/
theorem Dev.gate_of_admits (d : Dev) (a : Access) (p : Page) (off : Nat) (eff : Dev → Dev)
    (h : d.admits a.who p off a.size = true) : d.gate a p off eff = d.act a (isOrdered p) eff := by
  simp only [Dev.admits, Bool.and_eq_true, Bool.or_eq_true, Bool.not_eq_true', Bool.and_eq_false_iff] at h
  obtain ⟨⟨⟨⟨⟨⟨⟨⟨⟨⟨⟨h1, h2⟩, h3⟩, h4⟩, h5⟩, h6⟩, h7⟩, h7'⟩, h8⟩, h9⟩, h10⟩, h11⟩ := h
  unfold Dev.gate
  rw [if_neg (by simp [h1]), if_neg (by simp [h2, h3]), if_neg (by simp [h4]), if_neg (by simp [h5]),
    if_neg (by simp [h6]), if_neg (by simpa using h7), if_neg (by simp [h7']), if_neg, if_neg, if_neg, if_neg, if_neg]
  · rcases h11 with h | h <;> simp [h]
  · rcases h10 with h | h <;> simp_all
  · rcases h9 with h | h <;> simp_all
  · rcases h8 with h | h <;> simp_all
  · rcases h8 with h | h <;> simp_all

/-- A 32-bit write that every check admits acts. -/
theorem Dev.gateW_of_admits (d : Dev) (who : Owner) (p : Page) (off v : Nat) (eff : Dev → Dev)
    (h : d.admits who p off = true) : d.gateW who p off v eff = d.wrote who p off v eff :=
  Dev.gate_of_admits d (wr who p off v) p off eff h

/-- A write's end depends on its effect on this device only. -/
theorem Dev.act_congr (d : Dev) (a : Access) (o : Bool) (f g : Dev → Dev) (h : f d = g d) : d.act a o f = d.act a o g := by
  unfold Dev.act
  rw [h]

/-- What an admitted write leaves depends on its effect on this device only. -/
theorem Dev.wrote_congr (d : Dev) (who : Owner) (p : Page) (off v : Nat) (f g : Dev → Dev) (h : f d = g d) :
    d.wrote who p off v f = d.wrote who p off v g := by
  exact Dev.act_congr d _ _ f g h

/-- A command that needs the main domains runs where they do. -/
theorem State.runMain_of (s : State) (f : Dev → Dev) (h : s.begun.mainRun = true) :
    s.runMain f = .next (s.ends (f s.begun)) := by
  simp [State.runMain, State.run, State.on, h]

/-- The same, for a name of the device it finds. -/
theorem State.runMain_at {s : State} {d : Dev} {f : Dev → Dev} (hd : s.begun = d) (h : d.mainRun = true) :
    s.runMain f = .next (s.ends (f d)) := by
  subst hd
  exact State.runMain_of s f h

/-- A command that always runs, for a name of the device it finds. -/
theorem State.run_at {s : State} {d : Dev} {f : Dev → Dev} (hd : s.begun = d) : s.run f = .next (s.ends (f d)) := by
  subst hd
  rfl

/-- A command that always runs. -/
theorem State.run_eq (s : State) (f : Dev → Dev) : s.run f = .next (s.ends (f s.begun)) := rfl

/-- Two ways to say what a command leaves. -/
theorem State.next_ends {s : State} {d d' : Dev} (h : d = d') :
    (Host.Outcome.next (s.ends d) : Answer) = .next (s.ends d') := by rw [h]

/-- Two ways to say what an admitted write leaves. -/
theorem State.next_wrote {s : State} {d : Dev} {who : Owner} {p : Page} {off v : Nat} {f g : Dev → Dev} (h : f d = g d) :
    (Host.Outcome.next (s.ends (d.wrote who p off v f)) : Answer) = .next (s.ends (d.wrote who p off v g)) :=
  State.next_ends (Dev.wrote_congr d who p off v f g h)

end Sys2Proof.Machine
end

