-- ==== Sys2Proof/Laws/Map.lean ====
section
/-! SUPPORT. Laws of the sparse tables: what a table holds after a change, and their one canonical form. -/

namespace Sys2Proof

variable {α : Type}

@[simp] theorem NMap.get?_nil (k : Nat) : NMap.get? ([] : NMap α) k = none := rfl

theorem NMap.get?_cons (e : Nat × α) (m : NMap α) (k : Nat) :
    NMap.get? (e :: m) k = if e.1 = k then some e.2 else NMap.get? m k := rfl

/-- What is held after an entry has been made. -/
theorem NMap.get?_set (m : NMap α) (k k' : Nat) (v : α) : (m.set k v).get? k' = if k = k' then some v else m.get? k' := by
  induction m with
  | nil => simp [NMap.set, NMap.get?]
  | cons e m ih =>
    obtain ⟨a, b⟩ := e
    unfold NMap.set
    split
    · simp [NMap.get?]
    · split
      · rename_i h
        subst h
        by_cases hk : k = k' <;> simp [NMap.get?, hk]
      · rename_i h1 h2
        simp only [NMap.get?, ih]
        by_cases ha : a = k'
        · subst ha; simp [h2]
        · simp [ha]

@[simp] theorem NMap.get?_set_same (m : NMap α) (k : Nat) (v : α) : (m.set k v).get? k = some v := by
  simp [NMap.get?_set]

theorem NMap.get?_set_other (m : NMap α) {k k' : Nat} (v : α) (h : k ≠ k') : (m.set k v).get? k' = m.get? k' := by
  simp [NMap.get?_set, h]

@[simp] theorem NMap.getD_set_same (m : NMap α) (k : Nat) (v d : α) : (m.set k v).getD k d = v := by simp [NMap.getD]

theorem NMap.getD_set_other (m : NMap α) {k k' : Nat} (v d : α) (h : k ≠ k') : (m.set k v).getD k' d = m.getD k' d := by
  simp [NMap.getD, NMap.get?_set_other m v h]

/-- What a filter by key leaves. -/
theorem NMap.get?_filter (m : NMap α) (p : Nat → Bool) (k : Nat) :
    NMap.get? (m.filter (fun e => p e.1)) k = if p k then m.get? k else none := by
  induction m with
  | nil => simp
  | cons e m ih =>
    rw [List.filter_cons]
    by_cases hp : p e.1 = true
    · rw [if_pos hp, NMap.get?_cons, NMap.get?_cons, ih]
      by_cases he : e.1 = k
      · subst he; simp [hp]
      · simp [he]
    · rw [if_neg hp, ih, NMap.get?_cons]
      by_cases he : e.1 = k
      · subst he; simp [hp]
      · simp [he]

theorem NMap.get?_erase (m : NMap α) (k k' : Nat) : (m.erase k).get? k' = if k' = k then none else m.get? k' := by
  unfold NMap.erase
  rw [NMap.get?_filter m (fun a => a != k)]
  by_cases h : k' = k <;> simp [h]

-- ==== the canonical form ====

/-- Every key of a table lies above a bound. -/
def NMap.above (b : Nat) (m : NMap α) : Prop := ∀ e ∈ m, b < e.1

theorem NMap.rising_cons (e : Nat × α) (m : NMap α) :
    NMap.rising (e :: m) = true ↔ NMap.rising m = true ∧ NMap.above e.1 m := by
  induction m generalizing e with
  | nil => simp [NMap.rising, NMap.above]
  | cons f m ih =>
    simp only [NMap.rising, Bool.and_eq_true, decide_eq_true_eq]
    constructor
    · rintro ⟨h1, h2⟩
      refine ⟨h2, fun x hx => ?_⟩
      rcases List.mem_cons.1 hx with rfl | hx
      · exact h1
      · exact Nat.lt_trans h1 (((ih f).1 h2).2 x hx)
    · rintro ⟨h1, h2⟩
      exact ⟨h2 f (List.mem_cons_self ..), h1⟩

theorem NMap.set_above (m : NMap α) (b k : Nat) (v : α) (hm : NMap.above b m) (hk : b < k) : NMap.above b (m.set k v) := by
  induction m with
  | nil =>
    intro e he
    simp only [NMap.set, List.mem_singleton] at he
    subst he; exact hk
  | cons f m ih =>
    obtain ⟨a, c⟩ := f
    have hm' : NMap.above b m := fun e he => hm e (List.mem_cons_of_mem _ he)
    have ha : b < a := hm (a, c) (List.mem_cons_self ..)
    unfold NMap.set
    split
    · intro e he
      rcases List.mem_cons.1 he with rfl | he
      · exact hk
      · exact hm e he
    · split
      · intro e he
        rcases List.mem_cons.1 he with rfl | he
        · exact hk
        · exact hm' e he
      · intro e he
        rcases List.mem_cons.1 he with rfl | he
        · exact ha
        · exact ih hm' e he

/-- An entry takes its place in the rising order. -/
theorem NMap.rising_set (m : NMap α) (k : Nat) (v : α) (h : m.rising = true) : (m.set k v).rising = true := by
  induction m with
  | nil => rfl
  | cons f m ih =>
    obtain ⟨a, c⟩ := f
    rw [NMap.rising_cons] at h
    unfold NMap.set
    split
    · rename_i hk
      rw [NMap.rising_cons, NMap.rising_cons]
      refine ⟨h, fun e he => ?_⟩
      rcases List.mem_cons.1 he with rfl | he
      · exact hk
      · exact Nat.lt_trans hk (h.2 e he)
    · split
      · rename_i hk
        subst hk
        rw [NMap.rising_cons]; exact h
      · rw [NMap.rising_cons]
        exact ⟨ih h.1, NMap.set_above m a k v h.2 (by omega)⟩

theorem NMap.rising_sort (m : NMap α) : m.sort.rising = true := by
  induction m with
  | nil => rfl
  | cons e m ih => exact NMap.rising_set _ _ _ ih

theorem NMap.rising_filter (m : NMap α) (p : Nat × α → Bool) (h : m.rising = true) : NMap.rising (m.filter p) = true := by
  induction m with
  | nil => rfl
  | cons e m ih =>
    rw [NMap.rising_cons] at h
    rw [List.filter_cons]
    split
    · rw [NMap.rising_cons]
      exact ⟨ih h.1, fun x hx => h.2 x (List.mem_filter.1 hx).1⟩
    · exact ih h.1

/-- The canonical form is canonical. -/
theorem NMap.wf_canon [DecidableEq α] (dflt : Nat → α) (m : NMap α) : NMap.wf dflt (m.canon dflt) = true := by
  unfold NMap.wf NMap.canon
  rw [Bool.and_eq_true]
  refine ⟨NMap.rising_filter _ _ (NMap.rising_sort m), ?_⟩
  rw [List.all_eq_true]
  intro e he
  exact (List.mem_filter.1 he).2

theorem NMap.get?_sort (m : NMap α) (k : Nat) : m.sort.get? k = m.get? k := by
  induction m with
  | nil => rfl
  | cons e m ih =>
    show (NMap.set (NMap.sort m) e.1 e.2).get? k = _
    rw [NMap.get?_set, ih, NMap.get?_cons]

theorem NMap.get?_filter_val [DecidableEq α] (m : NMap α) (dflt : Nat → α) (k : Nat) (h : m.rising = true) :
    (NMap.get? (m.filter (fun e => e.2 != dflt e.1)) k).getD (dflt k) = (m.get? k).getD (dflt k) := by
  induction m with
  | nil => rfl
  | cons e m ih =>
    rw [NMap.rising_cons] at h
    rw [List.filter_cons]
    split
    · rw [NMap.get?_cons, NMap.get?_cons]
      split
      · rfl
      · exact ih h.1
    · rename_i hv
      rw [NMap.get?_cons]
      split
      · rename_i he
        subst he
        have hno : ∀ (n : NMap α), NMap.above e.1 n → NMap.get? n e.1 = none := by
          intro n hn
          induction n with
          | nil => rfl
          | cons f n ihn =>
            rw [NMap.get?_cons, if_neg (by have := hn f (List.mem_cons_self ..); omega)]
            exact ihn (fun x hx => hn x (List.mem_cons_of_mem _ hx))
        rw [hno _ (fun x hx => h.2 x (List.mem_filter.1 hx).1)]
        simpa using (by simpa using hv : e.2 = dflt e.1).symm
      · exact ih h.1

/-- The canonical form reads as the table did. -/
theorem NMap.getD_canon [DecidableEq α] (dflt : Nat → α) (m : NMap α) (k : Nat) :
    (m.canon dflt).getD k (dflt k) = m.getD k (dflt k) := by
  unfold NMap.canon NMap.getD
  rw [NMap.get?_filter_val _ _ _ (NMap.rising_sort m), NMap.get?_sort]

end Sys2Proof
end

