-- ==== Sys2Proof/Laws/Memory.lean ====
section
/-! SUPPORT. The deep store's bytes: a read after a write, and the canonical form, which every memory operation
keeps. -/

namespace Sys2Proof

theorem NMap.wf_iff {α : Type} [DecidableEq α] (dflt : Nat → α) (m : NMap α) :
    NMap.wf dflt m = true ↔ m.rising = true ∧ ∀ e ∈ m, e.2 ≠ dflt e.1 := by
  simp [NMap.wf, List.all_eq_true]

theorem NMap.mem_set {α : Type} {e : Nat × α} {m : NMap α} {k : Nat} {v : α} (h : e ∈ m.set k v) : e = (k, v) ∨ e ∈ m := by
  induction m with
  | nil => simpa [NMap.set] using h
  | cons f m ih =>
    obtain ⟨a, c⟩ := f
    simp only [NMap.set] at h
    split at h
    · simpa using h
    · split at h
      · rcases List.mem_cons.1 h with rfl | h
        · exact .inl rfl
        · exact .inr (List.mem_cons_of_mem _ h)
      · rcases List.mem_cons.1 h with rfl | h
        · exact .inr (List.mem_cons_self ..)
        · exact (ih h).imp_right (List.mem_cons_of_mem _)

end Sys2Proof

namespace Sys2Proof.Machine

/-- The byte at an address after a byte has been written. -/
theorem Memory.read_write (m : NMap Byte) (a x : Nat) (b : Byte) :
    Memory.read (Memory.write m a b) x = if x = a then b else Memory.read m x := by
  unfold Memory.read Memory.write NMap.getD
  split
  · rename_i hb
    rw [NMap.get?_erase]
    split <;> simp [hb]
  · rw [NMap.get?_set]
    by_cases h : a = x
    · simp [h]
    · rw [if_neg h, if_neg (fun e => h e.symm)]

/-- A write keeps the canonical form. -/
theorem Memory.wf_write (m : NMap Byte) (a : Nat) (b : Byte) (h : Memory.wf m = true) : Memory.wf (Memory.write m a b) = true := by
  rw [Memory.wf, NMap.wf_iff] at *
  unfold Memory.write
  split
  · exact ⟨NMap.rising_filter _ _ h.1, fun e he => h.2 e (List.mem_filter.1 he).1⟩
  · rename_i hb
    refine ⟨NMap.rising_set _ _ _ h.1, fun e he => ?_⟩
    rcases NMap.mem_set he with rfl | he
    · exact hb
    · exact h.2 e he

/-- So does a write of many bytes. -/
theorem Memory.wf_writeAll (m : NMap Byte) (a : Nat) (bs : List Byte) (h : Memory.wf m = true) :
    Memory.wf (Memory.writeAll m a bs) = true := by
  induction bs generalizing m a with
  | nil => exact h
  | cons b bs ih => exact ih _ _ (Memory.wf_write m a b h)

/-- A byte below the bytes written reads as before. -/
theorem Memory.read_writeAll_below (m : NMap Byte) (a x : Nat) (bs : List Byte) (h : x < a) :
    Memory.read (Memory.writeAll m a bs) x = Memory.read m x := by
  induction bs generalizing m a with
  | nil => rfl
  | cons b bs ih =>
    rw [Memory.writeAll, ih _ _ (by omega), Memory.read_write, if_neg (by omega)]

end Sys2Proof.Machine
end

