-- ==== Sys2Proof/Laws/Registers.lean ====
section
/-! SUPPORT. What a register word and a field read after a word or a field has been set. -/

namespace Sys2Proof.Machine

-- ==== bits of a number ====

/-- A number cut to 32 bits keeps the bits below 32. -/
theorem bits_mod (w hi lo : Nat) (h1 : lo ≤ hi) (h2 : hi < 32) : bits (w % 2 ^ 32) hi lo = bits w hi lo := by
  unfold bits
  obtain ⟨k, hk⟩ : ∃ k, 32 = lo + (hi + 1 - lo) + k := ⟨32 - (hi + 1), by omega⟩
  rw [hk, pow_add, pow_add, Nat.mul_assoc, Nat.mod_mul_right_div_self, Nat.mod_mul_right_mod]

/-- The parts of a number around a field. -/
theorem bits_split (w hi lo : Nat) : ∃ h l, l < 2 ^ lo ∧ w = 2 ^ lo * (2 ^ (hi + 1 - lo) * h + bits w hi lo) + l := by
  refine ⟨w / 2 ^ lo / 2 ^ (hi + 1 - lo), w % 2 ^ lo, Nat.mod_lt _ (by positivity), ?_⟩
  unfold bits
  rw [Nat.div_add_mod, Nat.div_add_mod]

/-- The parts of a number whose field has been set. -/
theorem putBits_split (w hi lo v h l b : Nat) (hw : w = 2 ^ lo * (2 ^ (hi + 1 - lo) * h + b) + l)
    (hb : bits w hi lo = b) : putBits w hi lo v = 2 ^ lo * (2 ^ (hi + 1 - lo) * h + v % 2 ^ (hi + 1 - lo)) + l := by
  unfold putBits
  rw [hb, hw, Nat.mul_add, Nat.mul_add, Nat.mul_comm b, Nat.mul_comm (v % _) (2 ^ lo)]
  omega

theorem bits_of_split (hi lo h x l : Nat) (hl : l < 2 ^ lo) (hx : x < 2 ^ (hi + 1 - lo)) :
    bits (2 ^ lo * (2 ^ (hi + 1 - lo) * h + x) + l) hi lo = x := by
  unfold bits
  rw [Nat.mul_add_div (by positivity), Nat.div_eq_of_lt hl, Nat.add_zero, Nat.mul_add_mod, Nat.mod_eq_of_lt hx]

/-- A field reads what it was set to. -/
theorem bits_putBits (w hi lo v : Nat) : bits (putBits w hi lo v) hi lo = v % 2 ^ (hi + 1 - lo) := by
  obtain ⟨h, l, hl, hw⟩ := bits_split w hi lo
  rw [putBits_split w hi lo v h l _ hw rfl]
  exact bits_of_split hi lo h _ l hl (Nat.mod_lt _ (by positivity))

/-- A field above the one that was set reads as before. -/
theorem bits_putBits_above (w hi lo v hi' lo' : Nat) (h1 : lo ≤ hi) (h2 : hi < lo') :
    bits (putBits w hi lo v) hi' lo' = bits w hi' lo' := by
  obtain ⟨h, l, hl, hw⟩ := bits_split w hi lo
  obtain ⟨k, rfl⟩ : ∃ k, lo' = lo + (hi + 1 - lo) + k := ⟨lo' - (hi + 1), by omega⟩
  have key : ∀ x, x < 2 ^ (hi + 1 - lo) →
      (2 ^ lo * (2 ^ (hi + 1 - lo) * h + x) + l) / 2 ^ (lo + (hi + 1 - lo) + k) = h / 2 ^ k := by
    intro x hx
    rw [pow_add, pow_add, ← Nat.div_div_eq_div_mul, ← Nat.div_div_eq_div_mul, Nat.mul_add_div (by positivity),
      Nat.div_eq_of_lt hl, Nat.add_zero, Nat.mul_add_div (by positivity), Nat.div_eq_of_lt hx, Nat.add_zero]
  have hb : bits w hi lo < 2 ^ (hi + 1 - lo) := Nat.mod_lt _ (by positivity)
  have e1 := key (v % 2 ^ (hi + 1 - lo)) (Nat.mod_lt _ (by positivity))
  have e2 := key (bits w hi lo) hb
  rw [← hw] at e2
  rw [← putBits_split w hi lo v h l _ hw rfl] at e1
  unfold bits
  rw [e1, e2]

/-- A field below the one that was set reads as before. -/
theorem bits_putBits_below (w hi lo v hi' lo' : Nat) (h1 : lo' ≤ hi') (h2 : hi' < lo) :
    bits (putBits w hi lo v) hi' lo' = bits w hi' lo' := by
  obtain ⟨h, l, hl, hw⟩ := bits_split w hi lo
  have key : ∀ x, bits (2 ^ lo * x + l) hi' lo' = bits l hi' lo' := by
    intro x
    unfold bits
    obtain ⟨k, rfl⟩ : ∃ k, lo = lo' + ((hi' + 1 - lo') + k) := ⟨lo - (hi' + 1), by omega⟩
    rw [pow_add, Nat.mul_assoc, Nat.mul_add_div (by positivity), pow_add, Nat.mul_assoc, Nat.mul_add_mod]
  rw [putBits_split w hi lo v h l _ hw rfl, key]
  conv => rhs; rw [hw]
  rw [key]

-- ==== keys of words ====

theorem Page.key_inj (p : Page) (o o' : Nat) : p.key o = p.key o' ↔ o = o' := by
  unfold Page.key
  omega

/-- Words of different pages have different keys. -/
theorem Page.key_page (p q : Page) (o o' : Nat) (h : p.idx ≠ q.idx) (ho : o < pageSpan) (ho' : o' < pageSpan) :
    p.key o ≠ q.key o' := by
  unfold Page.key pageSpan at *
  omega

-- ==== words ====

/-- A word after a word has been set. -/
theorem Dev.word_setWord (d : Dev) (p q : Page) (o o' v : Nat) :
    (d.setWord p o v).word q o' = if p.key o = q.key o' then v % 2 ^ 32 else d.word q o' := by
  unfold Dev.word Dev.setWord
  dsimp only
  rw [NMap.get?_set]
  by_cases h : p.key o = q.key o' <;> simp [h]

@[simp] theorem Dev.word_setWord_same (d : Dev) (p : Page) (o v : Nat) : (d.setWord p o v).word p o = v % 2 ^ 32 := by
  simp [Dev.word_setWord]

theorem Dev.word_setWord_off (d : Dev) (p : Page) (o o' v : Nat) (h : o ≠ o') :
    (d.setWord p o v).word p o' = d.word p o' := by
  simp [Dev.word_setWord, Page.key_inj, h]

theorem Dev.word_setWord_page (d : Dev) (p q : Page) (o o' v : Nat) (h : p.idx ≠ q.idx) (ho : o < pageSpan)
    (ho' : o' < pageSpan) : (d.setWord p o v).word q o' = d.word q o' := by
  simp [Dev.word_setWord, Page.key_page p q o o' h ho ho']

-- ==== fields of 32-bit registers ====

theorem Dev.fld_narrow (d : Dev) (p : Page) (f : Fld) (h : f.hi < 32) : d.fld p f = bits (d.word p f.off) f.hi f.lo := by
  simp [Dev.fld, h]

theorem Dev.setFld_narrow (d : Dev) (p : Page) (f : Fld) (v : Nat) (h : f.hi < 32) :
    d.setFld p f v = d.setWord p f.off (putBits (d.word p f.off) f.hi f.lo v) := by
  simp [Dev.setFld, h]

/-- A field reads what it was set to, cut to its width. -/
theorem Dev.fld_setFld (d : Dev) (p : Page) (f : Fld) (v : Nat) (h : f.hi < 32) (hl : f.lo ≤ f.hi) :
    (d.setFld p f v).fld p f = v % 2 ^ (f.hi + 1 - f.lo) := by
  rw [Dev.setFld_narrow _ _ _ _ h, Dev.fld_narrow _ _ _ h, Dev.word_setWord_same, bits_mod _ _ _ hl h, bits_putBits]

/-- A field of another word of the page reads as before. -/
theorem Dev.fld_setFld_off (d : Dev) (p : Page) (f g : Fld) (v : Nat) (hf : f.hi < 32) (hg : g.hi < 32) (h : f.off ≠ g.off) :
    (d.setFld p f v).fld p g = d.fld p g := by
  rw [Dev.setFld_narrow _ _ _ _ hf, Dev.fld_narrow _ _ _ hg, Dev.fld_narrow _ _ _ hg, Dev.word_setWord_off _ _ _ _ _ h]

/-- A field of another page reads as before. -/
theorem Dev.fld_setFld_page (d : Dev) (p q : Page) (f g : Fld) (v : Nat) (hf : f.hi < 32) (hg : g.hi < 32)
    (h : p.idx ≠ q.idx) (ho : f.off < pageSpan) (ho' : g.off < pageSpan) : (d.setFld p f v).fld q g = d.fld q g := by
  rw [Dev.setFld_narrow _ _ _ _ hf, Dev.fld_narrow _ _ _ hg, Dev.fld_narrow _ _ _ hg, Dev.word_setWord_page _ _ _ _ _ _ h ho ho']

/-- Another field of the same word reads as before. -/
theorem Dev.fld_setFld_word (d : Dev) (p : Page) (f g : Fld) (v : Nat) (hf : f.hi < 32) (hg : g.hi < 32)
    (hl : f.lo ≤ f.hi) (hl' : g.lo ≤ g.hi) (ho : f.off = g.off) (h : f.hi < g.lo ∨ g.hi < f.lo) :
    (d.setFld p f v).fld p g = d.fld p g := by
  rw [Dev.setFld_narrow _ _ _ _ hf, Dev.fld_narrow _ _ _ hg, Dev.fld_narrow _ _ _ hg, ho, Dev.word_setWord_same,
    bits_mod _ _ _ hl' hg]
  rcases h with h | h
  · exact bits_putBits_above _ _ _ _ _ _ hl h
  · exact bits_putBits_below _ _ _ _ _ _ hl' h

/-- Two fields of one page that share no bit. -/
def Fld.apart (f g : Fld) : Bool :=
  decide (f.hi < 32) && decide (g.hi < 32) && decide (f.lo ≤ f.hi) && decide (g.lo ≤ g.hi)
    && (f.off != g.off || decide (f.hi < g.lo) || decide (g.hi < f.lo))

/-- A field that shares no bit with the one set reads as before. -/
theorem Dev.fld_setFld_apart (d : Dev) (p : Page) (f g : Fld) (v : Nat) (h : Fld.apart f g = true) :
    (d.setFld p f v).fld p g = d.fld p g := by
  simp only [Fld.apart, Bool.and_eq_true, Bool.or_eq_true, decide_eq_true_eq, bne_iff_ne, ne_eq] at h
  obtain ⟨⟨⟨⟨h1, h2⟩, h3⟩, h4⟩, h5⟩ := h
  by_cases ho : f.off = g.off
  · refine Dev.fld_setFld_word d p f g v h1 h2 h3 h4 ho ?_
    rcases h5 with (h5 | h5) | h5
    · exact absurd ho h5
    · exact .inl h5
    · exact .inr h5
  · exact Dev.fld_setFld_off d p f g v h1 h2 ho

theorem Dev.flag_setFld_apart (d : Dev) (p : Page) (f g : Fld) (v : Nat) (h : Fld.apart f g = true) :
    (d.setFld p f v).flag p g = d.flag p g := by
  simp [Dev.flag, Dev.fld_setFld_apart d p f g v h]

theorem Dev.fld_setFlag_apart (d : Dev) (p : Page) (f g : Fld) (b : Bool) (h : Fld.apart f g = true) :
    (d.setFlag p f b).fld p g = d.fld p g := Dev.fld_setFld_apart d p f g _ h

theorem Dev.flag_setFlag_apart (d : Dev) (p : Page) (f g : Fld) (b : Bool) (h : Fld.apart f g = true) :
    (d.setFlag p f b).flag p g = d.flag p g := Dev.flag_setFld_apart d p f g _ h

/-- A field of one bit reads what it was set to. -/
theorem Dev.flag_setFlag (d : Dev) (p : Page) (f : Fld) (b : Bool) (h : f.hi < 32) (hl : f.lo = f.hi) :
    (d.setFlag p f b).flag p f = b := by
  unfold Dev.flag Dev.setFlag
  rw [Dev.fld_setFld d p f _ h (by omega), hl]
  have : f.hi + 1 - f.hi = 1 := by omega
  rw [this]
  cases b <;> rfl

end Sys2Proof.Machine
end

