-- ==== Sys2Proof/Laws/State.lean ====
section
/-! SUPPORT. What each update of the device leaves of its fields: one law for each field and update. -/

namespace Sys2Proof.Machine

variable (d : Dev)

-- ==== updates of one field ====

@[simp] theorem Dev.counts_setWord (p : Page) (o v : Nat) : (d.setWord p o v).counts = d.counts := rfl
@[simp] theorem Dev.snaps_setWord (p : Page) (o v : Nat) : (d.setWord p o v).snaps = d.snaps := rfl
@[simp] theorem Dev.staged_setWord (p : Page) (o v : Nat) : (d.setWord p o v).staged = d.staged := rfl
@[simp] theorem Dev.stalls_setWord (p : Page) (o v : Nat) : (d.setWord p o v).stalls = d.stalls := rfl
@[simp] theorem Dev.pops_setWord (p : Page) (o v : Nat) : (d.setWord p o v).pops = d.pops := rfl
@[simp] theorem Dev.hall_setWord (p : Page) (o v : Nat) : (d.setWord p o v).hall = d.hall := rfl
@[simp] theorem Dev.bur_setWord (p : Page) (o v : Nat) : (d.setWord p o v).bur = d.bur := rfl
@[simp] theorem Dev.cans_setWord (p : Page) (o v : Nat) : (d.setWord p o v).cans = d.cans := rfl
@[simp] theorem Dev.dst_setWord (p : Page) (o v : Nat) : (d.setWord p o v).dst = d.dst := rfl
@[simp] theorem Dev.adj_setWord (p : Page) (o v : Nat) : (d.setWord p o v).adj = d.adj := rfl
@[simp] theorem Dev.flash_setWord (p : Page) (o v : Nat) : (d.setWord p o v).flash = d.flash := rfl
@[simp] theorem Dev.count_setWord (p : Page) (o v : Nat) (pq : Page) (oq : Nat) : (d.setWord p o v).count pq oq = d.count pq oq := by simp [Dev.count]

@[simp] theorem Dev.counts_setWide (p : Page) (o v : Nat) : (d.setWide p o v).counts = d.counts := rfl
@[simp] theorem Dev.snaps_setWide (p : Page) (o v : Nat) : (d.setWide p o v).snaps = d.snaps := rfl
@[simp] theorem Dev.staged_setWide (p : Page) (o v : Nat) : (d.setWide p o v).staged = d.staged := rfl
@[simp] theorem Dev.stalls_setWide (p : Page) (o v : Nat) : (d.setWide p o v).stalls = d.stalls := rfl
@[simp] theorem Dev.pops_setWide (p : Page) (o v : Nat) : (d.setWide p o v).pops = d.pops := rfl
@[simp] theorem Dev.hall_setWide (p : Page) (o v : Nat) : (d.setWide p o v).hall = d.hall := rfl
@[simp] theorem Dev.bur_setWide (p : Page) (o v : Nat) : (d.setWide p o v).bur = d.bur := rfl
@[simp] theorem Dev.cans_setWide (p : Page) (o v : Nat) : (d.setWide p o v).cans = d.cans := rfl
@[simp] theorem Dev.dst_setWide (p : Page) (o v : Nat) : (d.setWide p o v).dst = d.dst := rfl
@[simp] theorem Dev.adj_setWide (p : Page) (o v : Nat) : (d.setWide p o v).adj = d.adj := rfl
@[simp] theorem Dev.flash_setWide (p : Page) (o v : Nat) : (d.setWide p o v).flash = d.flash := rfl
@[simp] theorem Dev.count_setWide (p : Page) (o v : Nat) (pq : Page) (oq : Nat) : (d.setWide p o v).count pq oq = d.count pq oq := by simp [Dev.count]

@[simp] theorem Dev.counts_setFld (p : Page) (f : Fld) (v : Nat) : (d.setFld p f v).counts = d.counts := by unfold Dev.setFld; split <;> rfl
@[simp] theorem Dev.snaps_setFld (p : Page) (f : Fld) (v : Nat) : (d.setFld p f v).snaps = d.snaps := by unfold Dev.setFld; split <;> rfl
@[simp] theorem Dev.staged_setFld (p : Page) (f : Fld) (v : Nat) : (d.setFld p f v).staged = d.staged := by unfold Dev.setFld; split <;> rfl
@[simp] theorem Dev.stalls_setFld (p : Page) (f : Fld) (v : Nat) : (d.setFld p f v).stalls = d.stalls := by unfold Dev.setFld; split <;> rfl
@[simp] theorem Dev.pops_setFld (p : Page) (f : Fld) (v : Nat) : (d.setFld p f v).pops = d.pops := by unfold Dev.setFld; split <;> rfl
@[simp] theorem Dev.hall_setFld (p : Page) (f : Fld) (v : Nat) : (d.setFld p f v).hall = d.hall := by unfold Dev.setFld; split <;> rfl
@[simp] theorem Dev.bur_setFld (p : Page) (f : Fld) (v : Nat) : (d.setFld p f v).bur = d.bur := by unfold Dev.setFld; split <;> rfl
@[simp] theorem Dev.cans_setFld (p : Page) (f : Fld) (v : Nat) : (d.setFld p f v).cans = d.cans := by unfold Dev.setFld; split <;> rfl
@[simp] theorem Dev.dst_setFld (p : Page) (f : Fld) (v : Nat) : (d.setFld p f v).dst = d.dst := by unfold Dev.setFld; split <;> rfl
@[simp] theorem Dev.adj_setFld (p : Page) (f : Fld) (v : Nat) : (d.setFld p f v).adj = d.adj := by unfold Dev.setFld; split <;> rfl
@[simp] theorem Dev.flash_setFld (p : Page) (f : Fld) (v : Nat) : (d.setFld p f v).flash = d.flash := by unfold Dev.setFld; split <;> rfl
@[simp] theorem Dev.count_setFld (p : Page) (f : Fld) (v : Nat) (pq : Page) (oq : Nat) : (d.setFld p f v).count pq oq = d.count pq oq := by simp [Dev.count]

@[simp] theorem Dev.counts_setFlag (p : Page) (f : Fld) (b : Bool) : (d.setFlag p f b).counts = d.counts := by unfold Dev.setFlag; simp
@[simp] theorem Dev.snaps_setFlag (p : Page) (f : Fld) (b : Bool) : (d.setFlag p f b).snaps = d.snaps := by unfold Dev.setFlag; simp
@[simp] theorem Dev.staged_setFlag (p : Page) (f : Fld) (b : Bool) : (d.setFlag p f b).staged = d.staged := by unfold Dev.setFlag; simp
@[simp] theorem Dev.stalls_setFlag (p : Page) (f : Fld) (b : Bool) : (d.setFlag p f b).stalls = d.stalls := by unfold Dev.setFlag; simp
@[simp] theorem Dev.pops_setFlag (p : Page) (f : Fld) (b : Bool) : (d.setFlag p f b).pops = d.pops := by unfold Dev.setFlag; simp
@[simp] theorem Dev.hall_setFlag (p : Page) (f : Fld) (b : Bool) : (d.setFlag p f b).hall = d.hall := by unfold Dev.setFlag; simp
@[simp] theorem Dev.bur_setFlag (p : Page) (f : Fld) (b : Bool) : (d.setFlag p f b).bur = d.bur := by unfold Dev.setFlag; simp
@[simp] theorem Dev.cans_setFlag (p : Page) (f : Fld) (b : Bool) : (d.setFlag p f b).cans = d.cans := by unfold Dev.setFlag; simp
@[simp] theorem Dev.dst_setFlag (p : Page) (f : Fld) (b : Bool) : (d.setFlag p f b).dst = d.dst := by unfold Dev.setFlag; simp
@[simp] theorem Dev.adj_setFlag (p : Page) (f : Fld) (b : Bool) : (d.setFlag p f b).adj = d.adj := by unfold Dev.setFlag; simp
@[simp] theorem Dev.flash_setFlag (p : Page) (f : Fld) (b : Bool) : (d.setFlag p f b).flash = d.flash := by unfold Dev.setFlag; simp
@[simp] theorem Dev.count_setFlag (p : Page) (f : Fld) (b : Bool) (pq : Page) (oq : Nat) : (d.setFlag p f b).count pq oq = d.count pq oq := by simp [Dev.count]

@[simp] theorem Dev.counts_incSat (p : Page) (f : Fld) (n : Nat) : (d.incSat p f n).counts = d.counts := by unfold Dev.incSat; simp
@[simp] theorem Dev.snaps_incSat (p : Page) (f : Fld) (n : Nat) : (d.incSat p f n).snaps = d.snaps := by unfold Dev.incSat; simp
@[simp] theorem Dev.staged_incSat (p : Page) (f : Fld) (n : Nat) : (d.incSat p f n).staged = d.staged := by unfold Dev.incSat; simp
@[simp] theorem Dev.stalls_incSat (p : Page) (f : Fld) (n : Nat) : (d.incSat p f n).stalls = d.stalls := by unfold Dev.incSat; simp
@[simp] theorem Dev.pops_incSat (p : Page) (f : Fld) (n : Nat) : (d.incSat p f n).pops = d.pops := by unfold Dev.incSat; simp
@[simp] theorem Dev.hall_incSat (p : Page) (f : Fld) (n : Nat) : (d.incSat p f n).hall = d.hall := by unfold Dev.incSat; simp
@[simp] theorem Dev.bur_incSat (p : Page) (f : Fld) (n : Nat) : (d.incSat p f n).bur = d.bur := by unfold Dev.incSat; simp
@[simp] theorem Dev.cans_incSat (p : Page) (f : Fld) (n : Nat) : (d.incSat p f n).cans = d.cans := by unfold Dev.incSat; simp
@[simp] theorem Dev.dst_incSat (p : Page) (f : Fld) (n : Nat) : (d.incSat p f n).dst = d.dst := by unfold Dev.incSat; simp
@[simp] theorem Dev.adj_incSat (p : Page) (f : Fld) (n : Nat) : (d.incSat p f n).adj = d.adj := by unfold Dev.incSat; simp
@[simp] theorem Dev.flash_incSat (p : Page) (f : Fld) (n : Nat) : (d.incSat p f n).flash = d.flash := by unfold Dev.incSat; simp
@[simp] theorem Dev.count_incSat (p : Page) (f : Fld) (n : Nat) (pq : Page) (oq : Nat) : (d.incSat p f n).count pq oq = d.count pq oq := by simp [Dev.count]

@[simp] theorem Dev.counts_incWrap (p : Page) (f : Fld) : (d.incWrap p f).counts = d.counts := by unfold Dev.incWrap; simp
@[simp] theorem Dev.snaps_incWrap (p : Page) (f : Fld) : (d.incWrap p f).snaps = d.snaps := by unfold Dev.incWrap; simp
@[simp] theorem Dev.staged_incWrap (p : Page) (f : Fld) : (d.incWrap p f).staged = d.staged := by unfold Dev.incWrap; simp
@[simp] theorem Dev.stalls_incWrap (p : Page) (f : Fld) : (d.incWrap p f).stalls = d.stalls := by unfold Dev.incWrap; simp
@[simp] theorem Dev.pops_incWrap (p : Page) (f : Fld) : (d.incWrap p f).pops = d.pops := by unfold Dev.incWrap; simp
@[simp] theorem Dev.hall_incWrap (p : Page) (f : Fld) : (d.incWrap p f).hall = d.hall := by unfold Dev.incWrap; simp
@[simp] theorem Dev.bur_incWrap (p : Page) (f : Fld) : (d.incWrap p f).bur = d.bur := by unfold Dev.incWrap; simp
@[simp] theorem Dev.cans_incWrap (p : Page) (f : Fld) : (d.incWrap p f).cans = d.cans := by unfold Dev.incWrap; simp
@[simp] theorem Dev.dst_incWrap (p : Page) (f : Fld) : (d.incWrap p f).dst = d.dst := by unfold Dev.incWrap; simp
@[simp] theorem Dev.adj_incWrap (p : Page) (f : Fld) : (d.incWrap p f).adj = d.adj := by unfold Dev.incWrap; simp
@[simp] theorem Dev.flash_incWrap (p : Page) (f : Fld) : (d.incWrap p f).flash = d.flash := by unfold Dev.incWrap; simp
@[simp] theorem Dev.count_incWrap (p : Page) (f : Fld) (pq : Page) (oq : Nat) : (d.incWrap p f).count pq oq = d.count pq oq := by simp [Dev.count]

@[simp] theorem Dev.regs_addCount (p : Page) (o n : Nat) : (d.addCount p o n).regs = d.regs := rfl
@[simp] theorem Dev.snaps_addCount (p : Page) (o n : Nat) : (d.addCount p o n).snaps = d.snaps := rfl
@[simp] theorem Dev.staged_addCount (p : Page) (o n : Nat) : (d.addCount p o n).staged = d.staged := rfl
@[simp] theorem Dev.stalls_addCount (p : Page) (o n : Nat) : (d.addCount p o n).stalls = d.stalls := rfl
@[simp] theorem Dev.pops_addCount (p : Page) (o n : Nat) : (d.addCount p o n).pops = d.pops := rfl
@[simp] theorem Dev.hall_addCount (p : Page) (o n : Nat) : (d.addCount p o n).hall = d.hall := rfl
@[simp] theorem Dev.bur_addCount (p : Page) (o n : Nat) : (d.addCount p o n).bur = d.bur := rfl
@[simp] theorem Dev.cans_addCount (p : Page) (o n : Nat) : (d.addCount p o n).cans = d.cans := rfl
@[simp] theorem Dev.dst_addCount (p : Page) (o n : Nat) : (d.addCount p o n).dst = d.dst := rfl
@[simp] theorem Dev.adj_addCount (p : Page) (o n : Nat) : (d.addCount p o n).adj = d.adj := rfl
@[simp] theorem Dev.flash_addCount (p : Page) (o n : Nat) : (d.addCount p o n).flash = d.flash := rfl
@[simp] theorem Dev.word_addCount (p : Page) (o n : Nat) (pq : Page) (oq : Nat) : (d.addCount p o n).word pq oq = d.word pq oq := by simp [Dev.word]

@[simp] theorem Dev.regs_bump (p : Page) (b i : Nat) : (d.bump p b i).regs = d.regs := rfl
@[simp] theorem Dev.snaps_bump (p : Page) (b i : Nat) : (d.bump p b i).snaps = d.snaps := rfl
@[simp] theorem Dev.staged_bump (p : Page) (b i : Nat) : (d.bump p b i).staged = d.staged := rfl
@[simp] theorem Dev.stalls_bump (p : Page) (b i : Nat) : (d.bump p b i).stalls = d.stalls := rfl
@[simp] theorem Dev.pops_bump (p : Page) (b i : Nat) : (d.bump p b i).pops = d.pops := rfl
@[simp] theorem Dev.hall_bump (p : Page) (b i : Nat) : (d.bump p b i).hall = d.hall := rfl
@[simp] theorem Dev.bur_bump (p : Page) (b i : Nat) : (d.bump p b i).bur = d.bur := rfl
@[simp] theorem Dev.cans_bump (p : Page) (b i : Nat) : (d.bump p b i).cans = d.cans := rfl
@[simp] theorem Dev.dst_bump (p : Page) (b i : Nat) : (d.bump p b i).dst = d.dst := rfl
@[simp] theorem Dev.adj_bump (p : Page) (b i : Nat) : (d.bump p b i).adj = d.adj := rfl
@[simp] theorem Dev.flash_bump (p : Page) (b i : Nat) : (d.bump p b i).flash = d.flash := rfl
@[simp] theorem Dev.word_bump (p : Page) (b i : Nat) (pq : Page) (oq : Nat) : (d.bump p b i).word pq oq = d.word pq oq := by simp [Dev.word]

@[simp] theorem Dev.regs_cnt (p : Page) (i n : Nat) : (d.cnt p i n).regs = d.regs := rfl
@[simp] theorem Dev.snaps_cnt (p : Page) (i n : Nat) : (d.cnt p i n).snaps = d.snaps := rfl
@[simp] theorem Dev.staged_cnt (p : Page) (i n : Nat) : (d.cnt p i n).staged = d.staged := rfl
@[simp] theorem Dev.stalls_cnt (p : Page) (i n : Nat) : (d.cnt p i n).stalls = d.stalls := rfl
@[simp] theorem Dev.pops_cnt (p : Page) (i n : Nat) : (d.cnt p i n).pops = d.pops := rfl
@[simp] theorem Dev.hall_cnt (p : Page) (i n : Nat) : (d.cnt p i n).hall = d.hall := rfl
@[simp] theorem Dev.bur_cnt (p : Page) (i n : Nat) : (d.cnt p i n).bur = d.bur := rfl
@[simp] theorem Dev.cans_cnt (p : Page) (i n : Nat) : (d.cnt p i n).cans = d.cans := rfl
@[simp] theorem Dev.dst_cnt (p : Page) (i n : Nat) : (d.cnt p i n).dst = d.dst := rfl
@[simp] theorem Dev.adj_cnt (p : Page) (i n : Nat) : (d.cnt p i n).adj = d.adj := rfl
@[simp] theorem Dev.flash_cnt (p : Page) (i n : Nat) : (d.cnt p i n).flash = d.flash := rfl
@[simp] theorem Dev.word_cnt (p : Page) (i n : Nat) (pq : Page) (oq : Nat) : (d.cnt p i n).word pq oq = d.word pq oq := by simp [Dev.word]

@[simp] theorem Dev.regs_emit (o : Output) : (d.emit o).regs = d.regs := rfl
@[simp] theorem Dev.counts_emit (o : Output) : (d.emit o).counts = d.counts := rfl
@[simp] theorem Dev.snaps_emit (o : Output) : (d.emit o).snaps = d.snaps := rfl
@[simp] theorem Dev.staged_emit (o : Output) : (d.emit o).staged = d.staged := rfl
@[simp] theorem Dev.stalls_emit (o : Output) : (d.emit o).stalls = d.stalls := rfl
@[simp] theorem Dev.pops_emit (o : Output) : (d.emit o).pops = d.pops := rfl
@[simp] theorem Dev.hall_emit (o : Output) : (d.emit o).hall = d.hall := rfl
@[simp] theorem Dev.bur_emit (o : Output) : (d.emit o).bur = d.bur := rfl
@[simp] theorem Dev.cans_emit (o : Output) : (d.emit o).cans = d.cans := rfl
@[simp] theorem Dev.dst_emit (o : Output) : (d.emit o).dst = d.dst := rfl
@[simp] theorem Dev.adj_emit (o : Output) : (d.emit o).adj = d.adj := rfl
@[simp] theorem Dev.flash_emit (o : Output) : (d.emit o).flash = d.flash := rfl
@[simp] theorem Dev.word_emit (o : Output) (pq : Page) (oq : Nat) : (d.emit o).word pq oq = d.word pq oq := by simp [Dev.word]
@[simp] theorem Dev.count_emit (o : Output) (pq : Page) (oq : Nat) : (d.emit o).count pq oq = d.count pq oq := by simp [Dev.count]

@[simp] theorem Dev.regs_setPop (n : Nat) (w : PopWin) : (d.setPop n w).regs = d.regs := rfl
@[simp] theorem Dev.counts_setPop (n : Nat) (w : PopWin) : (d.setPop n w).counts = d.counts := rfl
@[simp] theorem Dev.snaps_setPop (n : Nat) (w : PopWin) : (d.setPop n w).snaps = d.snaps := rfl
@[simp] theorem Dev.staged_setPop (n : Nat) (w : PopWin) : (d.setPop n w).staged = d.staged := rfl
@[simp] theorem Dev.stalls_setPop (n : Nat) (w : PopWin) : (d.setPop n w).stalls = d.stalls := rfl
@[simp] theorem Dev.hall_setPop (n : Nat) (w : PopWin) : (d.setPop n w).hall = d.hall := rfl
@[simp] theorem Dev.bur_setPop (n : Nat) (w : PopWin) : (d.setPop n w).bur = d.bur := rfl
@[simp] theorem Dev.cans_setPop (n : Nat) (w : PopWin) : (d.setPop n w).cans = d.cans := rfl
@[simp] theorem Dev.dst_setPop (n : Nat) (w : PopWin) : (d.setPop n w).dst = d.dst := rfl
@[simp] theorem Dev.adj_setPop (n : Nat) (w : PopWin) : (d.setPop n w).adj = d.adj := rfl
@[simp] theorem Dev.flash_setPop (n : Nat) (w : PopWin) : (d.setPop n w).flash = d.flash := rfl
@[simp] theorem Dev.word_setPop (n : Nat) (w : PopWin) (pq : Page) (oq : Nat) : (d.setPop n w).word pq oq = d.word pq oq := by simp [Dev.word]
@[simp] theorem Dev.count_setPop (n : Nat) (w : PopWin) (pq : Page) (oq : Nat) : (d.setPop n w).count pq oq = d.count pq oq := by simp [Dev.count]

@[simp] theorem Dev.regs_popPush (n : Nat) (b : List Nat) : (d.popPush n b).regs = d.regs := by unfold Dev.popPush; dsimp only; split <;> rfl
@[simp] theorem Dev.counts_popPush (n : Nat) (b : List Nat) : (d.popPush n b).counts = d.counts := by unfold Dev.popPush; dsimp only; split <;> rfl
@[simp] theorem Dev.snaps_popPush (n : Nat) (b : List Nat) : (d.popPush n b).snaps = d.snaps := by unfold Dev.popPush; dsimp only; split <;> rfl
@[simp] theorem Dev.staged_popPush (n : Nat) (b : List Nat) : (d.popPush n b).staged = d.staged := by unfold Dev.popPush; dsimp only; split <;> rfl
@[simp] theorem Dev.stalls_popPush (n : Nat) (b : List Nat) : (d.popPush n b).stalls = d.stalls := by unfold Dev.popPush; dsimp only; split <;> rfl
@[simp] theorem Dev.hall_popPush (n : Nat) (b : List Nat) : (d.popPush n b).hall = d.hall := by unfold Dev.popPush; dsimp only; split <;> rfl
@[simp] theorem Dev.bur_popPush (n : Nat) (b : List Nat) : (d.popPush n b).bur = d.bur := by unfold Dev.popPush; dsimp only; split <;> rfl
@[simp] theorem Dev.cans_popPush (n : Nat) (b : List Nat) : (d.popPush n b).cans = d.cans := by unfold Dev.popPush; dsimp only; split <;> rfl
@[simp] theorem Dev.dst_popPush (n : Nat) (b : List Nat) : (d.popPush n b).dst = d.dst := by unfold Dev.popPush; dsimp only; split <;> rfl
@[simp] theorem Dev.adj_popPush (n : Nat) (b : List Nat) : (d.popPush n b).adj = d.adj := by unfold Dev.popPush; dsimp only; split <;> rfl
@[simp] theorem Dev.flash_popPush (n : Nat) (b : List Nat) : (d.popPush n b).flash = d.flash := by unfold Dev.popPush; dsimp only; split <;> rfl
@[simp] theorem Dev.word_popPush (n : Nat) (b : List Nat) (pq : Page) (oq : Nat) : (d.popPush n b).word pq oq = d.word pq oq := by simp [Dev.word]
@[simp] theorem Dev.count_popPush (n : Nat) (b : List Nat) (pq : Page) (oq : Nat) : (d.popPush n b).count pq oq = d.count pq oq := by simp [Dev.count]

@[simp] theorem Dev.regs_popAck (n k : Nat) : (d.popAck n k).regs = d.regs := by unfold Dev.popAck; dsimp only; split <;> (try split) <;> rfl
@[simp] theorem Dev.counts_popAck (n k : Nat) : (d.popAck n k).counts = d.counts := by unfold Dev.popAck; dsimp only; split <;> (try split) <;> rfl
@[simp] theorem Dev.snaps_popAck (n k : Nat) : (d.popAck n k).snaps = d.snaps := by unfold Dev.popAck; dsimp only; split <;> (try split) <;> rfl
@[simp] theorem Dev.staged_popAck (n k : Nat) : (d.popAck n k).staged = d.staged := by unfold Dev.popAck; dsimp only; split <;> (try split) <;> rfl
@[simp] theorem Dev.stalls_popAck (n k : Nat) : (d.popAck n k).stalls = d.stalls := by unfold Dev.popAck; dsimp only; split <;> (try split) <;> rfl
@[simp] theorem Dev.hall_popAck (n k : Nat) : (d.popAck n k).hall = d.hall := by unfold Dev.popAck; dsimp only; split <;> (try split) <;> rfl
@[simp] theorem Dev.bur_popAck (n k : Nat) : (d.popAck n k).bur = d.bur := by unfold Dev.popAck; dsimp only; split <;> (try split) <;> rfl
@[simp] theorem Dev.cans_popAck (n k : Nat) : (d.popAck n k).cans = d.cans := by unfold Dev.popAck; dsimp only; split <;> (try split) <;> rfl
@[simp] theorem Dev.dst_popAck (n k : Nat) : (d.popAck n k).dst = d.dst := by unfold Dev.popAck; dsimp only; split <;> (try split) <;> rfl
@[simp] theorem Dev.adj_popAck (n k : Nat) : (d.popAck n k).adj = d.adj := by unfold Dev.popAck; dsimp only; split <;> (try split) <;> rfl
@[simp] theorem Dev.flash_popAck (n k : Nat) : (d.popAck n k).flash = d.flash := by unfold Dev.popAck; dsimp only; split <;> (try split) <;> rfl
@[simp] theorem Dev.word_popAck (n k : Nat) (pq : Page) (oq : Nat) : (d.popAck n k).word pq oq = d.word pq oq := by simp [Dev.word]
@[simp] theorem Dev.count_popAck (n k : Nat) (pq : Page) (oq : Nat) : (d.popAck n k).count pq oq = d.count pq oq := by simp [Dev.count]

@[simp] theorem Dev.regs_withAdj (f : Adj → Adj) : (d.withAdj f).regs = d.regs := rfl
@[simp] theorem Dev.counts_withAdj (f : Adj → Adj) : (d.withAdj f).counts = d.counts := rfl
@[simp] theorem Dev.snaps_withAdj (f : Adj → Adj) : (d.withAdj f).snaps = d.snaps := rfl
@[simp] theorem Dev.staged_withAdj (f : Adj → Adj) : (d.withAdj f).staged = d.staged := rfl
@[simp] theorem Dev.stalls_withAdj (f : Adj → Adj) : (d.withAdj f).stalls = d.stalls := rfl
@[simp] theorem Dev.pops_withAdj (f : Adj → Adj) : (d.withAdj f).pops = d.pops := rfl
@[simp] theorem Dev.hall_withAdj (f : Adj → Adj) : (d.withAdj f).hall = d.hall := rfl
@[simp] theorem Dev.bur_withAdj (f : Adj → Adj) : (d.withAdj f).bur = d.bur := rfl
@[simp] theorem Dev.cans_withAdj (f : Adj → Adj) : (d.withAdj f).cans = d.cans := rfl
@[simp] theorem Dev.dst_withAdj (f : Adj → Adj) : (d.withAdj f).dst = d.dst := rfl
@[simp] theorem Dev.flash_withAdj (f : Adj → Adj) : (d.withAdj f).flash = d.flash := rfl
@[simp] theorem Dev.word_withAdj (f : Adj → Adj) (pq : Page) (oq : Nat) : (d.withAdj f).word pq oq = d.word pq oq := by simp [Dev.word]
@[simp] theorem Dev.count_withAdj (f : Adj → Adj) (pq : Page) (oq : Nat) : (d.withAdj f).count pq oq = d.count pq oq := by simp [Dev.count]

@[simp] theorem Dev.regs_withFlash (f : Flash → Flash) : (d.withFlash f).regs = d.regs := rfl
@[simp] theorem Dev.counts_withFlash (f : Flash → Flash) : (d.withFlash f).counts = d.counts := rfl
@[simp] theorem Dev.snaps_withFlash (f : Flash → Flash) : (d.withFlash f).snaps = d.snaps := rfl
@[simp] theorem Dev.staged_withFlash (f : Flash → Flash) : (d.withFlash f).staged = d.staged := rfl
@[simp] theorem Dev.stalls_withFlash (f : Flash → Flash) : (d.withFlash f).stalls = d.stalls := rfl
@[simp] theorem Dev.pops_withFlash (f : Flash → Flash) : (d.withFlash f).pops = d.pops := rfl
@[simp] theorem Dev.hall_withFlash (f : Flash → Flash) : (d.withFlash f).hall = d.hall := rfl
@[simp] theorem Dev.bur_withFlash (f : Flash → Flash) : (d.withFlash f).bur = d.bur := rfl
@[simp] theorem Dev.cans_withFlash (f : Flash → Flash) : (d.withFlash f).cans = d.cans := rfl
@[simp] theorem Dev.dst_withFlash (f : Flash → Flash) : (d.withFlash f).dst = d.dst := rfl
@[simp] theorem Dev.adj_withFlash (f : Flash → Flash) : (d.withFlash f).adj = d.adj := rfl
@[simp] theorem Dev.word_withFlash (f : Flash → Flash) (pq : Page) (oq : Nat) : (d.withFlash f).word pq oq = d.word pq oq := by simp [Dev.word]
@[simp] theorem Dev.count_withFlash (f : Flash → Flash) (pq : Page) (oq : Nat) : (d.withFlash f).count pq oq = d.count pq oq := by simp [Dev.count]

@[simp] theorem Dev.regs_withHall (f : Hall → Hall) : (d.withHall f).regs = d.regs := rfl
@[simp] theorem Dev.counts_withHall (f : Hall → Hall) : (d.withHall f).counts = d.counts := rfl
@[simp] theorem Dev.snaps_withHall (f : Hall → Hall) : (d.withHall f).snaps = d.snaps := rfl
@[simp] theorem Dev.staged_withHall (f : Hall → Hall) : (d.withHall f).staged = d.staged := rfl
@[simp] theorem Dev.stalls_withHall (f : Hall → Hall) : (d.withHall f).stalls = d.stalls := rfl
@[simp] theorem Dev.pops_withHall (f : Hall → Hall) : (d.withHall f).pops = d.pops := rfl
@[simp] theorem Dev.bur_withHall (f : Hall → Hall) : (d.withHall f).bur = d.bur := rfl
@[simp] theorem Dev.cans_withHall (f : Hall → Hall) : (d.withHall f).cans = d.cans := rfl
@[simp] theorem Dev.dst_withHall (f : Hall → Hall) : (d.withHall f).dst = d.dst := rfl
@[simp] theorem Dev.adj_withHall (f : Hall → Hall) : (d.withHall f).adj = d.adj := rfl
@[simp] theorem Dev.flash_withHall (f : Hall → Hall) : (d.withHall f).flash = d.flash := rfl
@[simp] theorem Dev.word_withHall (f : Hall → Hall) (pq : Page) (oq : Nat) : (d.withHall f).word pq oq = d.word pq oq := by simp [Dev.word]
@[simp] theorem Dev.count_withHall (f : Hall → Hall) (pq : Page) (oq : Nat) : (d.withHall f).count pq oq = d.count pq oq := by simp [Dev.count]

@[simp] theorem Dev.regs_setQueue (i : Nat) (q : Queue) : (d.setQueue i q).regs = d.regs := rfl
@[simp] theorem Dev.counts_setQueue (i : Nat) (q : Queue) : (d.setQueue i q).counts = d.counts := rfl
@[simp] theorem Dev.snaps_setQueue (i : Nat) (q : Queue) : (d.setQueue i q).snaps = d.snaps := rfl
@[simp] theorem Dev.staged_setQueue (i : Nat) (q : Queue) : (d.setQueue i q).staged = d.staged := rfl
@[simp] theorem Dev.stalls_setQueue (i : Nat) (q : Queue) : (d.setQueue i q).stalls = d.stalls := rfl
@[simp] theorem Dev.pops_setQueue (i : Nat) (q : Queue) : (d.setQueue i q).pops = d.pops := rfl
@[simp] theorem Dev.bur_setQueue (i : Nat) (q : Queue) : (d.setQueue i q).bur = d.bur := rfl
@[simp] theorem Dev.cans_setQueue (i : Nat) (q : Queue) : (d.setQueue i q).cans = d.cans := rfl
@[simp] theorem Dev.dst_setQueue (i : Nat) (q : Queue) : (d.setQueue i q).dst = d.dst := rfl
@[simp] theorem Dev.adj_setQueue (i : Nat) (q : Queue) : (d.setQueue i q).adj = d.adj := rfl
@[simp] theorem Dev.flash_setQueue (i : Nat) (q : Queue) : (d.setQueue i q).flash = d.flash := rfl
@[simp] theorem Dev.word_setQueue (i : Nat) (q : Queue) (pq : Page) (oq : Nat) : (d.setQueue i q).word pq oq = d.word pq oq := by simp [Dev.word]
@[simp] theorem Dev.count_setQueue (i : Nat) (q : Queue) (pq : Page) (oq : Nat) : (d.setQueue i q).count pq oq = d.count pq oq := by simp [Dev.count]

@[simp] theorem Dev.regs_setTx (p : Nat) (l : List TxCopy) : (d.setTx p l).regs = d.regs := rfl
@[simp] theorem Dev.counts_setTx (p : Nat) (l : List TxCopy) : (d.setTx p l).counts = d.counts := rfl
@[simp] theorem Dev.snaps_setTx (p : Nat) (l : List TxCopy) : (d.setTx p l).snaps = d.snaps := rfl
@[simp] theorem Dev.staged_setTx (p : Nat) (l : List TxCopy) : (d.setTx p l).staged = d.staged := rfl
@[simp] theorem Dev.stalls_setTx (p : Nat) (l : List TxCopy) : (d.setTx p l).stalls = d.stalls := rfl
@[simp] theorem Dev.pops_setTx (p : Nat) (l : List TxCopy) : (d.setTx p l).pops = d.pops := rfl
@[simp] theorem Dev.bur_setTx (p : Nat) (l : List TxCopy) : (d.setTx p l).bur = d.bur := rfl
@[simp] theorem Dev.cans_setTx (p : Nat) (l : List TxCopy) : (d.setTx p l).cans = d.cans := rfl
@[simp] theorem Dev.dst_setTx (p : Nat) (l : List TxCopy) : (d.setTx p l).dst = d.dst := rfl
@[simp] theorem Dev.adj_setTx (p : Nat) (l : List TxCopy) : (d.setTx p l).adj = d.adj := rfl
@[simp] theorem Dev.flash_setTx (p : Nat) (l : List TxCopy) : (d.setTx p l).flash = d.flash := rfl
@[simp] theorem Dev.word_setTx (p : Nat) (l : List TxCopy) (pq : Page) (oq : Nat) : (d.setTx p l).word pq oq = d.word pq oq := by simp [Dev.word]
@[simp] theorem Dev.count_setTx (p : Nat) (l : List TxCopy) (pq : Page) (oq : Nat) : (d.setTx p l).count pq oq = d.count pq oq := by simp [Dev.count]

@[simp] theorem Dev.regs_setPort (p : Nat) (x : Port) : (d.setPort p x).regs = d.regs := rfl
@[simp] theorem Dev.counts_setPort (p : Nat) (x : Port) : (d.setPort p x).counts = d.counts := rfl
@[simp] theorem Dev.snaps_setPort (p : Nat) (x : Port) : (d.setPort p x).snaps = d.snaps := rfl
@[simp] theorem Dev.staged_setPort (p : Nat) (x : Port) : (d.setPort p x).staged = d.staged := rfl
@[simp] theorem Dev.stalls_setPort (p : Nat) (x : Port) : (d.setPort p x).stalls = d.stalls := rfl
@[simp] theorem Dev.pops_setPort (p : Nat) (x : Port) : (d.setPort p x).pops = d.pops := rfl
@[simp] theorem Dev.hall_setPort (p : Nat) (x : Port) : (d.setPort p x).hall = d.hall := rfl
@[simp] theorem Dev.bur_setPort (p : Nat) (x : Port) : (d.setPort p x).bur = d.bur := rfl
@[simp] theorem Dev.cans_setPort (p : Nat) (x : Port) : (d.setPort p x).cans = d.cans := rfl
@[simp] theorem Dev.dst_setPort (p : Nat) (x : Port) : (d.setPort p x).dst = d.dst := rfl
@[simp] theorem Dev.adj_setPort (p : Nat) (x : Port) : (d.setPort p x).adj = d.adj := rfl
@[simp] theorem Dev.flash_setPort (p : Nat) (x : Port) : (d.setPort p x).flash = d.flash := rfl
@[simp] theorem Dev.word_setPort (p : Nat) (x : Port) (pq : Page) (oq : Nat) : (d.setPort p x).word pq oq = d.word pq oq := by simp [Dev.word]
@[simp] theorem Dev.count_setPort (p : Nat) (x : Port) (pq : Page) (oq : Nat) : (d.setPort p x).count pq oq = d.count pq oq := by simp [Dev.count]

@[simp] theorem Dev.regs_withBur (f : Bur → Bur) : (d.withBur f).regs = d.regs := rfl
@[simp] theorem Dev.counts_withBur (f : Bur → Bur) : (d.withBur f).counts = d.counts := rfl
@[simp] theorem Dev.snaps_withBur (f : Bur → Bur) : (d.withBur f).snaps = d.snaps := rfl
@[simp] theorem Dev.staged_withBur (f : Bur → Bur) : (d.withBur f).staged = d.staged := rfl
@[simp] theorem Dev.stalls_withBur (f : Bur → Bur) : (d.withBur f).stalls = d.stalls := rfl
@[simp] theorem Dev.pops_withBur (f : Bur → Bur) : (d.withBur f).pops = d.pops := rfl
@[simp] theorem Dev.hall_withBur (f : Bur → Bur) : (d.withBur f).hall = d.hall := rfl
@[simp] theorem Dev.cans_withBur (f : Bur → Bur) : (d.withBur f).cans = d.cans := rfl
@[simp] theorem Dev.dst_withBur (f : Bur → Bur) : (d.withBur f).dst = d.dst := rfl
@[simp] theorem Dev.adj_withBur (f : Bur → Bur) : (d.withBur f).adj = d.adj := rfl
@[simp] theorem Dev.flash_withBur (f : Bur → Bur) : (d.withBur f).flash = d.flash := rfl
@[simp] theorem Dev.word_withBur (f : Bur → Bur) (pq : Page) (oq : Nat) : (d.withBur f).word pq oq = d.word pq oq := by simp [Dev.word]
@[simp] theorem Dev.count_withBur (f : Bur → Bur) (pq : Page) (oq : Nat) : (d.withBur f).count pq oq = d.count pq oq := by simp [Dev.count]

@[simp] theorem Dev.regs_setSched (n : Nat) (x : Sched) : (d.setSched n x).regs = d.regs := rfl
@[simp] theorem Dev.counts_setSched (n : Nat) (x : Sched) : (d.setSched n x).counts = d.counts := rfl
@[simp] theorem Dev.snaps_setSched (n : Nat) (x : Sched) : (d.setSched n x).snaps = d.snaps := rfl
@[simp] theorem Dev.staged_setSched (n : Nat) (x : Sched) : (d.setSched n x).staged = d.staged := rfl
@[simp] theorem Dev.stalls_setSched (n : Nat) (x : Sched) : (d.setSched n x).stalls = d.stalls := rfl
@[simp] theorem Dev.pops_setSched (n : Nat) (x : Sched) : (d.setSched n x).pops = d.pops := rfl
@[simp] theorem Dev.hall_setSched (n : Nat) (x : Sched) : (d.setSched n x).hall = d.hall := rfl
@[simp] theorem Dev.bur_setSched (n : Nat) (x : Sched) : (d.setSched n x).bur = d.bur := rfl
@[simp] theorem Dev.cans_setSched (n : Nat) (x : Sched) : (d.setSched n x).cans = d.cans := rfl
@[simp] theorem Dev.dst_setSched (n : Nat) (x : Sched) : (d.setSched n x).dst = d.dst := rfl
@[simp] theorem Dev.adj_setSched (n : Nat) (x : Sched) : (d.setSched n x).adj = d.adj := rfl
@[simp] theorem Dev.flash_setSched (n : Nat) (x : Sched) : (d.setSched n x).flash = d.flash := rfl
@[simp] theorem Dev.word_setSched (n : Nat) (x : Sched) (pq : Page) (oq : Nat) : (d.setSched n x).word pq oq = d.word pq oq := by simp [Dev.word]
@[simp] theorem Dev.count_setSched (n : Nat) (x : Sched) (pq : Page) (oq : Nat) : (d.setSched n x).count pq oq = d.count pq oq := by simp [Dev.count]

@[simp] theorem Dev.regs_withFrk (f : Frk → Frk) : (d.withFrk f).regs = d.regs := rfl
@[simp] theorem Dev.counts_withFrk (f : Frk → Frk) : (d.withFrk f).counts = d.counts := rfl
@[simp] theorem Dev.snaps_withFrk (f : Frk → Frk) : (d.withFrk f).snaps = d.snaps := rfl
@[simp] theorem Dev.staged_withFrk (f : Frk → Frk) : (d.withFrk f).staged = d.staged := rfl
@[simp] theorem Dev.stalls_withFrk (f : Frk → Frk) : (d.withFrk f).stalls = d.stalls := rfl
@[simp] theorem Dev.pops_withFrk (f : Frk → Frk) : (d.withFrk f).pops = d.pops := rfl
@[simp] theorem Dev.hall_withFrk (f : Frk → Frk) : (d.withFrk f).hall = d.hall := rfl
@[simp] theorem Dev.bur_withFrk (f : Frk → Frk) : (d.withFrk f).bur = d.bur := rfl
@[simp] theorem Dev.cans_withFrk (f : Frk → Frk) : (d.withFrk f).cans = d.cans := rfl
@[simp] theorem Dev.dst_withFrk (f : Frk → Frk) : (d.withFrk f).dst = d.dst := rfl
@[simp] theorem Dev.adj_withFrk (f : Frk → Frk) : (d.withFrk f).adj = d.adj := rfl
@[simp] theorem Dev.flash_withFrk (f : Frk → Frk) : (d.withFrk f).flash = d.flash := rfl
@[simp] theorem Dev.word_withFrk (f : Frk → Frk) (pq : Page) (oq : Nat) : (d.withFrk f).word pq oq = d.word pq oq := by simp [Dev.word]
@[simp] theorem Dev.count_withFrk (f : Frk → Frk) (pq : Page) (oq : Nat) : (d.withFrk f).count pq oq = d.count pq oq := by simp [Dev.count]

@[simp] theorem Dev.regs_withFwl (f : Fwl → Fwl) : (d.withFwl f).regs = d.regs := rfl
@[simp] theorem Dev.counts_withFwl (f : Fwl → Fwl) : (d.withFwl f).counts = d.counts := rfl
@[simp] theorem Dev.snaps_withFwl (f : Fwl → Fwl) : (d.withFwl f).snaps = d.snaps := rfl
@[simp] theorem Dev.staged_withFwl (f : Fwl → Fwl) : (d.withFwl f).staged = d.staged := rfl
@[simp] theorem Dev.stalls_withFwl (f : Fwl → Fwl) : (d.withFwl f).stalls = d.stalls := rfl
@[simp] theorem Dev.pops_withFwl (f : Fwl → Fwl) : (d.withFwl f).pops = d.pops := rfl
@[simp] theorem Dev.hall_withFwl (f : Fwl → Fwl) : (d.withFwl f).hall = d.hall := rfl
@[simp] theorem Dev.bur_withFwl (f : Fwl → Fwl) : (d.withFwl f).bur = d.bur := rfl
@[simp] theorem Dev.cans_withFwl (f : Fwl → Fwl) : (d.withFwl f).cans = d.cans := rfl
@[simp] theorem Dev.dst_withFwl (f : Fwl → Fwl) : (d.withFwl f).dst = d.dst := rfl
@[simp] theorem Dev.adj_withFwl (f : Fwl → Fwl) : (d.withFwl f).adj = d.adj := rfl
@[simp] theorem Dev.flash_withFwl (f : Fwl → Fwl) : (d.withFwl f).flash = d.flash := rfl
@[simp] theorem Dev.word_withFwl (f : Fwl → Fwl) (pq : Page) (oq : Nat) : (d.withFwl f).word pq oq = d.word pq oq := by simp [Dev.word]
@[simp] theorem Dev.count_withFwl (f : Fwl → Fwl) (pq : Page) (oq : Nat) : (d.withFwl f).count pq oq = d.count pq oq := by simp [Dev.count]

@[simp] theorem Dev.regs_setCan (n : Nat) (c : Can) : (d.setCan n c).regs = d.regs := rfl
@[simp] theorem Dev.counts_setCan (n : Nat) (c : Can) : (d.setCan n c).counts = d.counts := rfl
@[simp] theorem Dev.snaps_setCan (n : Nat) (c : Can) : (d.setCan n c).snaps = d.snaps := rfl
@[simp] theorem Dev.staged_setCan (n : Nat) (c : Can) : (d.setCan n c).staged = d.staged := rfl
@[simp] theorem Dev.stalls_setCan (n : Nat) (c : Can) : (d.setCan n c).stalls = d.stalls := rfl
@[simp] theorem Dev.pops_setCan (n : Nat) (c : Can) : (d.setCan n c).pops = d.pops := rfl
@[simp] theorem Dev.hall_setCan (n : Nat) (c : Can) : (d.setCan n c).hall = d.hall := rfl
@[simp] theorem Dev.bur_setCan (n : Nat) (c : Can) : (d.setCan n c).bur = d.bur := rfl
@[simp] theorem Dev.dst_setCan (n : Nat) (c : Can) : (d.setCan n c).dst = d.dst := rfl
@[simp] theorem Dev.adj_setCan (n : Nat) (c : Can) : (d.setCan n c).adj = d.adj := rfl
@[simp] theorem Dev.flash_setCan (n : Nat) (c : Can) : (d.setCan n c).flash = d.flash := rfl
@[simp] theorem Dev.word_setCan (n : Nat) (c : Can) (pq : Page) (oq : Nat) : (d.setCan n c).word pq oq = d.word pq oq := by simp [Dev.word]
@[simp] theorem Dev.count_setCan (n : Nat) (c : Can) (pq : Page) (oq : Nat) : (d.setCan n c).count pq oq = d.count pq oq := by simp [Dev.count]

@[simp] theorem Dev.regs_setLin (n : Nat) (l : Lin) : (d.setLin n l).regs = d.regs := rfl
@[simp] theorem Dev.counts_setLin (n : Nat) (l : Lin) : (d.setLin n l).counts = d.counts := rfl
@[simp] theorem Dev.snaps_setLin (n : Nat) (l : Lin) : (d.setLin n l).snaps = d.snaps := rfl
@[simp] theorem Dev.staged_setLin (n : Nat) (l : Lin) : (d.setLin n l).staged = d.staged := rfl
@[simp] theorem Dev.stalls_setLin (n : Nat) (l : Lin) : (d.setLin n l).stalls = d.stalls := rfl
@[simp] theorem Dev.pops_setLin (n : Nat) (l : Lin) : (d.setLin n l).pops = d.pops := rfl
@[simp] theorem Dev.hall_setLin (n : Nat) (l : Lin) : (d.setLin n l).hall = d.hall := rfl
@[simp] theorem Dev.bur_setLin (n : Nat) (l : Lin) : (d.setLin n l).bur = d.bur := rfl
@[simp] theorem Dev.cans_setLin (n : Nat) (l : Lin) : (d.setLin n l).cans = d.cans := rfl
@[simp] theorem Dev.dst_setLin (n : Nat) (l : Lin) : (d.setLin n l).dst = d.dst := rfl
@[simp] theorem Dev.adj_setLin (n : Nat) (l : Lin) : (d.setLin n l).adj = d.adj := rfl
@[simp] theorem Dev.flash_setLin (n : Nat) (l : Lin) : (d.setLin n l).flash = d.flash := rfl
@[simp] theorem Dev.word_setLin (n : Nat) (l : Lin) (pq : Page) (oq : Nat) : (d.setLin n l).word pq oq = d.word pq oq := by simp [Dev.word]
@[simp] theorem Dev.count_setLin (n : Nat) (l : Lin) (pq : Page) (oq : Nat) : (d.setLin n l).count pq oq = d.count pq oq := by simp [Dev.count]

@[simp] theorem Dev.regs_setAnchor (n : Nat) (a : Anchor) : (d.setAnchor n a).regs = d.regs := rfl
@[simp] theorem Dev.counts_setAnchor (n : Nat) (a : Anchor) : (d.setAnchor n a).counts = d.counts := rfl
@[simp] theorem Dev.snaps_setAnchor (n : Nat) (a : Anchor) : (d.setAnchor n a).snaps = d.snaps := rfl
@[simp] theorem Dev.staged_setAnchor (n : Nat) (a : Anchor) : (d.setAnchor n a).staged = d.staged := rfl
@[simp] theorem Dev.stalls_setAnchor (n : Nat) (a : Anchor) : (d.setAnchor n a).stalls = d.stalls := rfl
@[simp] theorem Dev.pops_setAnchor (n : Nat) (a : Anchor) : (d.setAnchor n a).pops = d.pops := rfl
@[simp] theorem Dev.hall_setAnchor (n : Nat) (a : Anchor) : (d.setAnchor n a).hall = d.hall := rfl
@[simp] theorem Dev.bur_setAnchor (n : Nat) (a : Anchor) : (d.setAnchor n a).bur = d.bur := rfl
@[simp] theorem Dev.cans_setAnchor (n : Nat) (a : Anchor) : (d.setAnchor n a).cans = d.cans := rfl
@[simp] theorem Dev.dst_setAnchor (n : Nat) (a : Anchor) : (d.setAnchor n a).dst = d.dst := rfl
@[simp] theorem Dev.adj_setAnchor (n : Nat) (a : Anchor) : (d.setAnchor n a).adj = d.adj := rfl
@[simp] theorem Dev.flash_setAnchor (n : Nat) (a : Anchor) : (d.setAnchor n a).flash = d.flash := rfl
@[simp] theorem Dev.word_setAnchor (n : Nat) (a : Anchor) (pq : Page) (oq : Nat) : (d.setAnchor n a).word pq oq = d.word pq oq := by simp [Dev.word]
@[simp] theorem Dev.count_setAnchor (n : Nat) (a : Anchor) (pq : Page) (oq : Nat) : (d.setAnchor n a).count pq oq = d.count pq oq := by simp [Dev.count]

@[simp] theorem Dev.regs_withPmk (f : Pmk → Pmk) : (d.withPmk f).regs = d.regs := rfl
@[simp] theorem Dev.counts_withPmk (f : Pmk → Pmk) : (d.withPmk f).counts = d.counts := rfl
@[simp] theorem Dev.snaps_withPmk (f : Pmk → Pmk) : (d.withPmk f).snaps = d.snaps := rfl
@[simp] theorem Dev.staged_withPmk (f : Pmk → Pmk) : (d.withPmk f).staged = d.staged := rfl
@[simp] theorem Dev.stalls_withPmk (f : Pmk → Pmk) : (d.withPmk f).stalls = d.stalls := rfl
@[simp] theorem Dev.pops_withPmk (f : Pmk → Pmk) : (d.withPmk f).pops = d.pops := rfl
@[simp] theorem Dev.hall_withPmk (f : Pmk → Pmk) : (d.withPmk f).hall = d.hall := rfl
@[simp] theorem Dev.bur_withPmk (f : Pmk → Pmk) : (d.withPmk f).bur = d.bur := rfl
@[simp] theorem Dev.cans_withPmk (f : Pmk → Pmk) : (d.withPmk f).cans = d.cans := rfl
@[simp] theorem Dev.dst_withPmk (f : Pmk → Pmk) : (d.withPmk f).dst = d.dst := rfl
@[simp] theorem Dev.adj_withPmk (f : Pmk → Pmk) : (d.withPmk f).adj = d.adj := rfl
@[simp] theorem Dev.flash_withPmk (f : Pmk → Pmk) : (d.withPmk f).flash = d.flash := rfl
@[simp] theorem Dev.word_withPmk (f : Pmk → Pmk) (pq : Page) (oq : Nat) : (d.withPmk f).word pq oq = d.word pq oq := by simp [Dev.word]
@[simp] theorem Dev.count_withPmk (f : Pmk → Pmk) (pq : Page) (oq : Nat) : (d.withPmk f).count pq oq = d.count pq oq := by simp [Dev.count]

@[simp] theorem Dev.regs_withDst (f : Dst → Dst) : (d.withDst f).regs = d.regs := rfl
@[simp] theorem Dev.counts_withDst (f : Dst → Dst) : (d.withDst f).counts = d.counts := rfl
@[simp] theorem Dev.snaps_withDst (f : Dst → Dst) : (d.withDst f).snaps = d.snaps := rfl
@[simp] theorem Dev.staged_withDst (f : Dst → Dst) : (d.withDst f).staged = d.staged := rfl
@[simp] theorem Dev.stalls_withDst (f : Dst → Dst) : (d.withDst f).stalls = d.stalls := rfl
@[simp] theorem Dev.pops_withDst (f : Dst → Dst) : (d.withDst f).pops = d.pops := rfl
@[simp] theorem Dev.hall_withDst (f : Dst → Dst) : (d.withDst f).hall = d.hall := rfl
@[simp] theorem Dev.bur_withDst (f : Dst → Dst) : (d.withDst f).bur = d.bur := rfl
@[simp] theorem Dev.cans_withDst (f : Dst → Dst) : (d.withDst f).cans = d.cans := rfl
@[simp] theorem Dev.adj_withDst (f : Dst → Dst) : (d.withDst f).adj = d.adj := rfl
@[simp] theorem Dev.flash_withDst (f : Dst → Dst) : (d.withDst f).flash = d.flash := rfl
@[simp] theorem Dev.word_withDst (f : Dst → Dst) (pq : Page) (oq : Nat) : (d.withDst f).word pq oq = d.word pq oq := by simp [Dev.word]
@[simp] theorem Dev.count_withDst (f : Dst → Dst) (pq : Page) (oq : Nat) : (d.withDst f).count pq oq = d.count pq oq := by simp [Dev.count]

@[simp] theorem Dev.regs_memWrite (a : Nat) (bs : List Byte) : (d.memWrite a bs).regs = d.regs := rfl
@[simp] theorem Dev.counts_memWrite (a : Nat) (bs : List Byte) : (d.memWrite a bs).counts = d.counts := rfl
@[simp] theorem Dev.snaps_memWrite (a : Nat) (bs : List Byte) : (d.memWrite a bs).snaps = d.snaps := rfl
@[simp] theorem Dev.staged_memWrite (a : Nat) (bs : List Byte) : (d.memWrite a bs).staged = d.staged := rfl
@[simp] theorem Dev.stalls_memWrite (a : Nat) (bs : List Byte) : (d.memWrite a bs).stalls = d.stalls := rfl
@[simp] theorem Dev.pops_memWrite (a : Nat) (bs : List Byte) : (d.memWrite a bs).pops = d.pops := rfl
@[simp] theorem Dev.hall_memWrite (a : Nat) (bs : List Byte) : (d.memWrite a bs).hall = d.hall := rfl
@[simp] theorem Dev.bur_memWrite (a : Nat) (bs : List Byte) : (d.memWrite a bs).bur = d.bur := rfl
@[simp] theorem Dev.cans_memWrite (a : Nat) (bs : List Byte) : (d.memWrite a bs).cans = d.cans := rfl
@[simp] theorem Dev.adj_memWrite (a : Nat) (bs : List Byte) : (d.memWrite a bs).adj = d.adj := rfl
@[simp] theorem Dev.flash_memWrite (a : Nat) (bs : List Byte) : (d.memWrite a bs).flash = d.flash := rfl
@[simp] theorem Dev.word_memWrite (a : Nat) (bs : List Byte) (pq : Page) (oq : Nat) : (d.memWrite a bs).word pq oq = d.word pq oq := by simp [Dev.word]
@[simp] theorem Dev.count_memWrite (a : Nat) (bs : List Byte) (pq : Page) (oq : Nat) : (d.memWrite a bs).count pq oq = d.count pq oq := by simp [Dev.count]

@[simp] theorem Dev.regs_withMmu (f : Mmu → Mmu) : (d.withMmu f).regs = d.regs := rfl
@[simp] theorem Dev.counts_withMmu (f : Mmu → Mmu) : (d.withMmu f).counts = d.counts := rfl
@[simp] theorem Dev.snaps_withMmu (f : Mmu → Mmu) : (d.withMmu f).snaps = d.snaps := rfl
@[simp] theorem Dev.staged_withMmu (f : Mmu → Mmu) : (d.withMmu f).staged = d.staged := rfl
@[simp] theorem Dev.stalls_withMmu (f : Mmu → Mmu) : (d.withMmu f).stalls = d.stalls := rfl
@[simp] theorem Dev.pops_withMmu (f : Mmu → Mmu) : (d.withMmu f).pops = d.pops := rfl
@[simp] theorem Dev.hall_withMmu (f : Mmu → Mmu) : (d.withMmu f).hall = d.hall := rfl
@[simp] theorem Dev.bur_withMmu (f : Mmu → Mmu) : (d.withMmu f).bur = d.bur := rfl
@[simp] theorem Dev.cans_withMmu (f : Mmu → Mmu) : (d.withMmu f).cans = d.cans := rfl
@[simp] theorem Dev.dst_withMmu (f : Mmu → Mmu) : (d.withMmu f).dst = d.dst := rfl
@[simp] theorem Dev.adj_withMmu (f : Mmu → Mmu) : (d.withMmu f).adj = d.adj := rfl
@[simp] theorem Dev.flash_withMmu (f : Mmu → Mmu) : (d.withMmu f).flash = d.flash := rfl
@[simp] theorem Dev.word_withMmu (f : Mmu → Mmu) (pq : Page) (oq : Nat) : (d.withMmu f).word pq oq = d.word pq oq := by simp [Dev.word]
@[simp] theorem Dev.count_withMmu (f : Mmu → Mmu) (pq : Page) (oq : Nat) : (d.withMmu f).count pq oq = d.count pq oq := by simp [Dev.count]

@[simp] theorem Dev.regs_withKeys (f : Keys → Keys) : (d.withKeys f).regs = d.regs := rfl
@[simp] theorem Dev.counts_withKeys (f : Keys → Keys) : (d.withKeys f).counts = d.counts := rfl
@[simp] theorem Dev.snaps_withKeys (f : Keys → Keys) : (d.withKeys f).snaps = d.snaps := rfl
@[simp] theorem Dev.staged_withKeys (f : Keys → Keys) : (d.withKeys f).staged = d.staged := rfl
@[simp] theorem Dev.stalls_withKeys (f : Keys → Keys) : (d.withKeys f).stalls = d.stalls := rfl
@[simp] theorem Dev.pops_withKeys (f : Keys → Keys) : (d.withKeys f).pops = d.pops := rfl
@[simp] theorem Dev.hall_withKeys (f : Keys → Keys) : (d.withKeys f).hall = d.hall := rfl
@[simp] theorem Dev.bur_withKeys (f : Keys → Keys) : (d.withKeys f).bur = d.bur := rfl
@[simp] theorem Dev.cans_withKeys (f : Keys → Keys) : (d.withKeys f).cans = d.cans := rfl
@[simp] theorem Dev.dst_withKeys (f : Keys → Keys) : (d.withKeys f).dst = d.dst := rfl
@[simp] theorem Dev.adj_withKeys (f : Keys → Keys) : (d.withKeys f).adj = d.adj := rfl
@[simp] theorem Dev.flash_withKeys (f : Keys → Keys) : (d.withKeys f).flash = d.flash := rfl
@[simp] theorem Dev.word_withKeys (f : Keys → Keys) (pq : Page) (oq : Nat) : (d.withKeys f).word pq oq = d.word pq oq := by simp [Dev.word]
@[simp] theorem Dev.count_withKeys (f : Keys → Keys) (pq : Page) (oq : Nat) : (d.withKeys f).count pq oq = d.count pq oq := by simp [Dev.count]

@[simp] theorem Dev.regs_withWax (f : Wax → Wax) : (d.withWax f).regs = d.regs := rfl
@[simp] theorem Dev.counts_withWax (f : Wax → Wax) : (d.withWax f).counts = d.counts := rfl
@[simp] theorem Dev.snaps_withWax (f : Wax → Wax) : (d.withWax f).snaps = d.snaps := rfl
@[simp] theorem Dev.staged_withWax (f : Wax → Wax) : (d.withWax f).staged = d.staged := rfl
@[simp] theorem Dev.stalls_withWax (f : Wax → Wax) : (d.withWax f).stalls = d.stalls := rfl
@[simp] theorem Dev.pops_withWax (f : Wax → Wax) : (d.withWax f).pops = d.pops := rfl
@[simp] theorem Dev.hall_withWax (f : Wax → Wax) : (d.withWax f).hall = d.hall := rfl
@[simp] theorem Dev.bur_withWax (f : Wax → Wax) : (d.withWax f).bur = d.bur := rfl
@[simp] theorem Dev.cans_withWax (f : Wax → Wax) : (d.withWax f).cans = d.cans := rfl
@[simp] theorem Dev.dst_withWax (f : Wax → Wax) : (d.withWax f).dst = d.dst := rfl
@[simp] theorem Dev.adj_withWax (f : Wax → Wax) : (d.withWax f).adj = d.adj := rfl
@[simp] theorem Dev.flash_withWax (f : Wax → Wax) : (d.withWax f).flash = d.flash := rfl
@[simp] theorem Dev.word_withWax (f : Wax → Wax) (pq : Page) (oq : Nat) : (d.withWax f).word pq oq = d.word pq oq := by simp [Dev.word]
@[simp] theorem Dev.count_withWax (f : Wax → Wax) (pq : Page) (oq : Nat) : (d.withWax f).count pq oq = d.count pq oq := by simp [Dev.count]

@[simp] theorem Dev.regs_withNpt (f : Npt → Npt) : (d.withNpt f).regs = d.regs := rfl
@[simp] theorem Dev.counts_withNpt (f : Npt → Npt) : (d.withNpt f).counts = d.counts := rfl
@[simp] theorem Dev.snaps_withNpt (f : Npt → Npt) : (d.withNpt f).snaps = d.snaps := rfl
@[simp] theorem Dev.staged_withNpt (f : Npt → Npt) : (d.withNpt f).staged = d.staged := rfl
@[simp] theorem Dev.stalls_withNpt (f : Npt → Npt) : (d.withNpt f).stalls = d.stalls := rfl
@[simp] theorem Dev.pops_withNpt (f : Npt → Npt) : (d.withNpt f).pops = d.pops := rfl
@[simp] theorem Dev.hall_withNpt (f : Npt → Npt) : (d.withNpt f).hall = d.hall := rfl
@[simp] theorem Dev.bur_withNpt (f : Npt → Npt) : (d.withNpt f).bur = d.bur := rfl
@[simp] theorem Dev.cans_withNpt (f : Npt → Npt) : (d.withNpt f).cans = d.cans := rfl
@[simp] theorem Dev.dst_withNpt (f : Npt → Npt) : (d.withNpt f).dst = d.dst := rfl
@[simp] theorem Dev.adj_withNpt (f : Npt → Npt) : (d.withNpt f).adj = d.adj := rfl
@[simp] theorem Dev.flash_withNpt (f : Npt → Npt) : (d.withNpt f).flash = d.flash := rfl
@[simp] theorem Dev.word_withNpt (f : Npt → Npt) (pq : Page) (oq : Nat) : (d.withNpt f).word pq oq = d.word pq oq := by simp [Dev.word]
@[simp] theorem Dev.count_withNpt (f : Npt → Npt) (pq : Page) (oq : Nat) : (d.withNpt f).count pq oq = d.count pq oq := by simp [Dev.count]

@[simp] theorem Dev.regs_setDmaQ (i : Nat) (q : DmaQ) : (d.setDmaQ i q).regs = d.regs := rfl
@[simp] theorem Dev.counts_setDmaQ (i : Nat) (q : DmaQ) : (d.setDmaQ i q).counts = d.counts := rfl
@[simp] theorem Dev.snaps_setDmaQ (i : Nat) (q : DmaQ) : (d.setDmaQ i q).snaps = d.snaps := rfl
@[simp] theorem Dev.staged_setDmaQ (i : Nat) (q : DmaQ) : (d.setDmaQ i q).staged = d.staged := rfl
@[simp] theorem Dev.stalls_setDmaQ (i : Nat) (q : DmaQ) : (d.setDmaQ i q).stalls = d.stalls := rfl
@[simp] theorem Dev.pops_setDmaQ (i : Nat) (q : DmaQ) : (d.setDmaQ i q).pops = d.pops := rfl
@[simp] theorem Dev.hall_setDmaQ (i : Nat) (q : DmaQ) : (d.setDmaQ i q).hall = d.hall := rfl
@[simp] theorem Dev.bur_setDmaQ (i : Nat) (q : DmaQ) : (d.setDmaQ i q).bur = d.bur := rfl
@[simp] theorem Dev.cans_setDmaQ (i : Nat) (q : DmaQ) : (d.setDmaQ i q).cans = d.cans := rfl
@[simp] theorem Dev.dst_setDmaQ (i : Nat) (q : DmaQ) : (d.setDmaQ i q).dst = d.dst := rfl
@[simp] theorem Dev.adj_setDmaQ (i : Nat) (q : DmaQ) : (d.setDmaQ i q).adj = d.adj := rfl
@[simp] theorem Dev.flash_setDmaQ (i : Nat) (q : DmaQ) : (d.setDmaQ i q).flash = d.flash := rfl
@[simp] theorem Dev.word_setDmaQ (i : Nat) (q : DmaQ) (pq : Page) (oq : Nat) : (d.setDmaQ i q).word pq oq = d.word pq oq := by simp [Dev.word]
@[simp] theorem Dev.count_setDmaQ (i : Nat) (q : DmaQ) (pq : Page) (oq : Nat) : (d.setDmaQ i q).count pq oq = d.count pq oq := by simp [Dev.count]

@[simp] theorem Dev.regs_withCfg (f : CfgStore → CfgStore) : (d.withCfg f).regs = d.regs := rfl
@[simp] theorem Dev.counts_withCfg (f : CfgStore → CfgStore) : (d.withCfg f).counts = d.counts := rfl
@[simp] theorem Dev.snaps_withCfg (f : CfgStore → CfgStore) : (d.withCfg f).snaps = d.snaps := rfl
@[simp] theorem Dev.staged_withCfg (f : CfgStore → CfgStore) : (d.withCfg f).staged = d.staged := rfl
@[simp] theorem Dev.stalls_withCfg (f : CfgStore → CfgStore) : (d.withCfg f).stalls = d.stalls := rfl
@[simp] theorem Dev.pops_withCfg (f : CfgStore → CfgStore) : (d.withCfg f).pops = d.pops := rfl
@[simp] theorem Dev.hall_withCfg (f : CfgStore → CfgStore) : (d.withCfg f).hall = d.hall := rfl
@[simp] theorem Dev.bur_withCfg (f : CfgStore → CfgStore) : (d.withCfg f).bur = d.bur := rfl
@[simp] theorem Dev.cans_withCfg (f : CfgStore → CfgStore) : (d.withCfg f).cans = d.cans := rfl
@[simp] theorem Dev.dst_withCfg (f : CfgStore → CfgStore) : (d.withCfg f).dst = d.dst := rfl
@[simp] theorem Dev.adj_withCfg (f : CfgStore → CfgStore) : (d.withCfg f).adj = d.adj := rfl
@[simp] theorem Dev.flash_withCfg (f : CfgStore → CfgStore) : (d.withCfg f).flash = d.flash := rfl
@[simp] theorem Dev.word_withCfg (f : CfgStore → CfgStore) (pq : Page) (oq : Nat) : (d.withCfg f).word pq oq = d.word pq oq := by simp [Dev.word]
@[simp] theorem Dev.count_withCfg (f : CfgStore → CfgStore) (pq : Page) (oq : Nat) : (d.withCfg f).count pq oq = d.count pq oq := by simp [Dev.count]

@[simp] theorem Dev.regs_setPair (n : Nat) (x : Pair) : (d.setPair n x).regs = d.regs := rfl
@[simp] theorem Dev.counts_setPair (n : Nat) (x : Pair) : (d.setPair n x).counts = d.counts := rfl
@[simp] theorem Dev.snaps_setPair (n : Nat) (x : Pair) : (d.setPair n x).snaps = d.snaps := rfl
@[simp] theorem Dev.staged_setPair (n : Nat) (x : Pair) : (d.setPair n x).staged = d.staged := rfl
@[simp] theorem Dev.stalls_setPair (n : Nat) (x : Pair) : (d.setPair n x).stalls = d.stalls := rfl
@[simp] theorem Dev.pops_setPair (n : Nat) (x : Pair) : (d.setPair n x).pops = d.pops := rfl
@[simp] theorem Dev.hall_setPair (n : Nat) (x : Pair) : (d.setPair n x).hall = d.hall := rfl
@[simp] theorem Dev.bur_setPair (n : Nat) (x : Pair) : (d.setPair n x).bur = d.bur := rfl
@[simp] theorem Dev.cans_setPair (n : Nat) (x : Pair) : (d.setPair n x).cans = d.cans := rfl
@[simp] theorem Dev.dst_setPair (n : Nat) (x : Pair) : (d.setPair n x).dst = d.dst := rfl
@[simp] theorem Dev.adj_setPair (n : Nat) (x : Pair) : (d.setPair n x).adj = d.adj := rfl
@[simp] theorem Dev.flash_setPair (n : Nat) (x : Pair) : (d.setPair n x).flash = d.flash := rfl
@[simp] theorem Dev.word_setPair (n : Nat) (x : Pair) (pq : Page) (oq : Nat) : (d.setPair n x).word pq oq = d.word pq oq := by simp [Dev.word]
@[simp] theorem Dev.count_setPair (n : Nat) (x : Pair) (pq : Page) (oq : Nat) : (d.setPair n x).count pq oq = d.count pq oq := by simp [Dev.count]

@[simp] theorem Dev.regs_setEvo (n : Nat) (e : Evo) : (d.setEvo n e).regs = d.regs := rfl
@[simp] theorem Dev.counts_setEvo (n : Nat) (e : Evo) : (d.setEvo n e).counts = d.counts := rfl
@[simp] theorem Dev.snaps_setEvo (n : Nat) (e : Evo) : (d.setEvo n e).snaps = d.snaps := rfl
@[simp] theorem Dev.staged_setEvo (n : Nat) (e : Evo) : (d.setEvo n e).staged = d.staged := rfl
@[simp] theorem Dev.stalls_setEvo (n : Nat) (e : Evo) : (d.setEvo n e).stalls = d.stalls := rfl
@[simp] theorem Dev.pops_setEvo (n : Nat) (e : Evo) : (d.setEvo n e).pops = d.pops := rfl
@[simp] theorem Dev.hall_setEvo (n : Nat) (e : Evo) : (d.setEvo n e).hall = d.hall := rfl
@[simp] theorem Dev.bur_setEvo (n : Nat) (e : Evo) : (d.setEvo n e).bur = d.bur := rfl
@[simp] theorem Dev.cans_setEvo (n : Nat) (e : Evo) : (d.setEvo n e).cans = d.cans := rfl
@[simp] theorem Dev.dst_setEvo (n : Nat) (e : Evo) : (d.setEvo n e).dst = d.dst := rfl
@[simp] theorem Dev.adj_setEvo (n : Nat) (e : Evo) : (d.setEvo n e).adj = d.adj := rfl
@[simp] theorem Dev.flash_setEvo (n : Nat) (e : Evo) : (d.setEvo n e).flash = d.flash := rfl
@[simp] theorem Dev.word_setEvo (n : Nat) (e : Evo) (pq : Page) (oq : Nat) : (d.setEvo n e).word pq oq = d.word pq oq := by simp [Dev.word]
@[simp] theorem Dev.count_setEvo (n : Nat) (e : Evo) (pq : Page) (oq : Nat) : (d.setEvo n e).count pq oq = d.count pq oq := by simp [Dev.count]

@[simp] theorem Dev.regs_withUpd (f : Upd → Upd) : (d.withUpd f).regs = d.regs := rfl
@[simp] theorem Dev.counts_withUpd (f : Upd → Upd) : (d.withUpd f).counts = d.counts := rfl
@[simp] theorem Dev.snaps_withUpd (f : Upd → Upd) : (d.withUpd f).snaps = d.snaps := rfl
@[simp] theorem Dev.staged_withUpd (f : Upd → Upd) : (d.withUpd f).staged = d.staged := rfl
@[simp] theorem Dev.stalls_withUpd (f : Upd → Upd) : (d.withUpd f).stalls = d.stalls := rfl
@[simp] theorem Dev.pops_withUpd (f : Upd → Upd) : (d.withUpd f).pops = d.pops := rfl
@[simp] theorem Dev.hall_withUpd (f : Upd → Upd) : (d.withUpd f).hall = d.hall := rfl
@[simp] theorem Dev.bur_withUpd (f : Upd → Upd) : (d.withUpd f).bur = d.bur := rfl
@[simp] theorem Dev.cans_withUpd (f : Upd → Upd) : (d.withUpd f).cans = d.cans := rfl
@[simp] theorem Dev.dst_withUpd (f : Upd → Upd) : (d.withUpd f).dst = d.dst := rfl
@[simp] theorem Dev.adj_withUpd (f : Upd → Upd) : (d.withUpd f).adj = d.adj := rfl
@[simp] theorem Dev.flash_withUpd (f : Upd → Upd) : (d.withUpd f).flash = d.flash := rfl
@[simp] theorem Dev.word_withUpd (f : Upd → Upd) (pq : Page) (oq : Nat) : (d.withUpd f).word pq oq = d.word pq oq := by simp [Dev.word]
@[simp] theorem Dev.count_withUpd (f : Upd → Upd) (pq : Page) (oq : Nat) : (d.withUpd f).count pq oq = d.count pq oq := by simp [Dev.count]

@[simp] theorem Dev.regs_setMov (n : Nat) (x : Mov) : (d.setMov n x).regs = d.regs := rfl
@[simp] theorem Dev.counts_setMov (n : Nat) (x : Mov) : (d.setMov n x).counts = d.counts := rfl
@[simp] theorem Dev.snaps_setMov (n : Nat) (x : Mov) : (d.setMov n x).snaps = d.snaps := rfl
@[simp] theorem Dev.staged_setMov (n : Nat) (x : Mov) : (d.setMov n x).staged = d.staged := rfl
@[simp] theorem Dev.stalls_setMov (n : Nat) (x : Mov) : (d.setMov n x).stalls = d.stalls := rfl
@[simp] theorem Dev.pops_setMov (n : Nat) (x : Mov) : (d.setMov n x).pops = d.pops := rfl
@[simp] theorem Dev.hall_setMov (n : Nat) (x : Mov) : (d.setMov n x).hall = d.hall := rfl
@[simp] theorem Dev.bur_setMov (n : Nat) (x : Mov) : (d.setMov n x).bur = d.bur := rfl
@[simp] theorem Dev.cans_setMov (n : Nat) (x : Mov) : (d.setMov n x).cans = d.cans := rfl
@[simp] theorem Dev.dst_setMov (n : Nat) (x : Mov) : (d.setMov n x).dst = d.dst := rfl
@[simp] theorem Dev.adj_setMov (n : Nat) (x : Mov) : (d.setMov n x).adj = d.adj := rfl
@[simp] theorem Dev.flash_setMov (n : Nat) (x : Mov) : (d.setMov n x).flash = d.flash := rfl
@[simp] theorem Dev.word_setMov (n : Nat) (x : Mov) (pq : Page) (oq : Nat) : (d.setMov n x).word pq oq = d.word pq oq := by simp [Dev.word]
@[simp] theorem Dev.count_setMov (n : Nat) (x : Mov) (pq : Page) (oq : Nat) : (d.setMov n x).count pq oq = d.count pq oq := by simp [Dev.count]

@[simp] theorem Dev.regs_stage (p : Page) (o m v : Nat) : (d.stage p o m v).regs = d.regs := rfl
@[simp] theorem Dev.counts_stage (p : Page) (o m v : Nat) : (d.stage p o m v).counts = d.counts := rfl
@[simp] theorem Dev.snaps_stage (p : Page) (o m v : Nat) : (d.stage p o m v).snaps = d.snaps := rfl
@[simp] theorem Dev.stalls_stage (p : Page) (o m v : Nat) : (d.stage p o m v).stalls = d.stalls := rfl
@[simp] theorem Dev.pops_stage (p : Page) (o m v : Nat) : (d.stage p o m v).pops = d.pops := rfl
@[simp] theorem Dev.hall_stage (p : Page) (o m v : Nat) : (d.stage p o m v).hall = d.hall := rfl
@[simp] theorem Dev.bur_stage (p : Page) (o m v : Nat) : (d.stage p o m v).bur = d.bur := rfl
@[simp] theorem Dev.cans_stage (p : Page) (o m v : Nat) : (d.stage p o m v).cans = d.cans := rfl
@[simp] theorem Dev.dst_stage (p : Page) (o m v : Nat) : (d.stage p o m v).dst = d.dst := rfl
@[simp] theorem Dev.adj_stage (p : Page) (o m v : Nat) : (d.stage p o m v).adj = d.adj := rfl
@[simp] theorem Dev.flash_stage (p : Page) (o m v : Nat) : (d.stage p o m v).flash = d.flash := rfl
@[simp] theorem Dev.word_stage (p : Page) (o m v : Nat) (pq : Page) (oq : Nat) : (d.stage p o m v).word pq oq = d.word pq oq := by simp [Dev.word]
@[simp] theorem Dev.count_stage (p : Page) (o m v : Nat) (pq : Page) (oq : Nat) : (d.stage p o m v).count pq oq = d.count pq oq := by simp [Dev.count]

@[simp] theorem Dev.regs_unstage (p : Page) : (d.unstage p).regs = d.regs := rfl
@[simp] theorem Dev.counts_unstage (p : Page) : (d.unstage p).counts = d.counts := rfl
@[simp] theorem Dev.snaps_unstage (p : Page) : (d.unstage p).snaps = d.snaps := rfl
@[simp] theorem Dev.stalls_unstage (p : Page) : (d.unstage p).stalls = d.stalls := rfl
@[simp] theorem Dev.pops_unstage (p : Page) : (d.unstage p).pops = d.pops := rfl
@[simp] theorem Dev.hall_unstage (p : Page) : (d.unstage p).hall = d.hall := rfl
@[simp] theorem Dev.bur_unstage (p : Page) : (d.unstage p).bur = d.bur := rfl
@[simp] theorem Dev.cans_unstage (p : Page) : (d.unstage p).cans = d.cans := rfl
@[simp] theorem Dev.dst_unstage (p : Page) : (d.unstage p).dst = d.dst := rfl
@[simp] theorem Dev.adj_unstage (p : Page) : (d.unstage p).adj = d.adj := rfl
@[simp] theorem Dev.flash_unstage (p : Page) : (d.unstage p).flash = d.flash := rfl
@[simp] theorem Dev.word_unstage (p : Page) (pq : Page) (oq : Nat) : (d.unstage p).word pq oq = d.word pq oq := by simp [Dev.word]
@[simp] theorem Dev.count_unstage (p : Page) (pq : Page) (oq : Nat) : (d.unstage p).count pq oq = d.count pq oq := by simp [Dev.count]

@[simp] theorem Dev.regs_hold (t : Nat) (a : Access) : (d.hold t a).regs = d.regs := rfl
@[simp] theorem Dev.counts_hold (t : Nat) (a : Access) : (d.hold t a).counts = d.counts := rfl
@[simp] theorem Dev.snaps_hold (t : Nat) (a : Access) : (d.hold t a).snaps = d.snaps := rfl
@[simp] theorem Dev.staged_hold (t : Nat) (a : Access) : (d.hold t a).staged = d.staged := rfl
@[simp] theorem Dev.pops_hold (t : Nat) (a : Access) : (d.hold t a).pops = d.pops := rfl
@[simp] theorem Dev.hall_hold (t : Nat) (a : Access) : (d.hold t a).hall = d.hall := rfl
@[simp] theorem Dev.bur_hold (t : Nat) (a : Access) : (d.hold t a).bur = d.bur := rfl
@[simp] theorem Dev.cans_hold (t : Nat) (a : Access) : (d.hold t a).cans = d.cans := rfl
@[simp] theorem Dev.dst_hold (t : Nat) (a : Access) : (d.hold t a).dst = d.dst := rfl
@[simp] theorem Dev.adj_hold (t : Nat) (a : Access) : (d.hold t a).adj = d.adj := rfl
@[simp] theorem Dev.flash_hold (t : Nat) (a : Access) : (d.hold t a).flash = d.flash := rfl
@[simp] theorem Dev.word_hold (t : Nat) (a : Access) (pq : Page) (oq : Nat) : (d.hold t a).word pq oq = d.word pq oq := by simp [Dev.word]
@[simp] theorem Dev.count_hold (t : Nat) (a : Access) (pq : Page) (oq : Nat) : (d.hold t a).count pq oq = d.count pq oq := by simp [Dev.count]

-- ==== updates of several fields ====

@[simp] theorem Dev.regs_digestFlow  : (d.digestFlow).regs = d.regs := by simp [Dev.digestFlow]
@[simp] theorem Dev.counts_digestFlow  : (d.digestFlow).counts = d.counts := by simp [Dev.digestFlow]
@[simp] theorem Dev.snaps_digestFlow  : (d.digestFlow).snaps = d.snaps := by simp [Dev.digestFlow]
@[simp] theorem Dev.staged_digestFlow  : (d.digestFlow).staged = d.staged := by simp [Dev.digestFlow]
@[simp] theorem Dev.stalls_digestFlow  : (d.digestFlow).stalls = d.stalls := by simp [Dev.digestFlow]
@[simp] theorem Dev.pops_digestFlow  : (d.digestFlow).pops = d.pops := by simp [Dev.digestFlow]
@[simp] theorem Dev.hall_digestFlow  : (d.digestFlow).hall = d.hall := by simp [Dev.digestFlow]
@[simp] theorem Dev.bur_digestFlow  : (d.digestFlow).bur = d.bur := by simp [Dev.digestFlow]
@[simp] theorem Dev.cans_digestFlow  : (d.digestFlow).cans = d.cans := by simp [Dev.digestFlow]
@[simp] theorem Dev.dst_digestFlow  : (d.digestFlow).dst = d.dst := by simp [Dev.digestFlow]
@[simp] theorem Dev.flash_digestFlow  : (d.digestFlow).flash = d.flash := by simp [Dev.digestFlow]
@[simp] theorem Dev.word_digestFlow  (pq : Page) (oq : Nat) : (d.digestFlow).word pq oq = d.word pq oq := by simp [Dev.word]
@[simp] theorem Dev.count_digestFlow  (pq : Page) (oq : Nat) : (d.digestFlow).count pq oq = d.count pq oq := by simp [Dev.count]

@[simp] theorem Dev.regs_digestStep (o : Order) (c x : Nat) : (d.digestStep o c x).regs = d.regs := by unfold Dev.digestStep; simp
@[simp] theorem Dev.counts_digestStep (o : Order) (c x : Nat) : (d.digestStep o c x).counts = d.counts := by unfold Dev.digestStep; simp
@[simp] theorem Dev.snaps_digestStep (o : Order) (c x : Nat) : (d.digestStep o c x).snaps = d.snaps := by unfold Dev.digestStep; simp
@[simp] theorem Dev.staged_digestStep (o : Order) (c x : Nat) : (d.digestStep o c x).staged = d.staged := by unfold Dev.digestStep; simp
@[simp] theorem Dev.stalls_digestStep (o : Order) (c x : Nat) : (d.digestStep o c x).stalls = d.stalls := by unfold Dev.digestStep; simp
@[simp] theorem Dev.pops_digestStep (o : Order) (c x : Nat) : (d.digestStep o c x).pops = d.pops := by unfold Dev.digestStep; simp
@[simp] theorem Dev.hall_digestStep (o : Order) (c x : Nat) : (d.digestStep o c x).hall = d.hall := by unfold Dev.digestStep; simp
@[simp] theorem Dev.bur_digestStep (o : Order) (c x : Nat) : (d.digestStep o c x).bur = d.bur := by unfold Dev.digestStep; simp
@[simp] theorem Dev.cans_digestStep (o : Order) (c x : Nat) : (d.digestStep o c x).cans = d.cans := by unfold Dev.digestStep; simp
@[simp] theorem Dev.dst_digestStep (o : Order) (c x : Nat) : (d.digestStep o c x).dst = d.dst := by unfold Dev.digestStep; simp
@[simp] theorem Dev.flash_digestStep (o : Order) (c x : Nat) : (d.digestStep o c x).flash = d.flash := by unfold Dev.digestStep; simp
@[simp] theorem Dev.word_digestStep (o : Order) (c x : Nat) (pq : Page) (oq : Nat) : (d.digestStep o c x).word pq oq = d.word pq oq := by simp [Dev.word]
@[simp] theorem Dev.count_digestStep (o : Order) (c x : Nat) (pq : Page) (oq : Nat) : (d.digestStep o c x).count pq oq = d.count pq oq := by simp [Dev.count]

@[simp] theorem Dev.regs_digestResult (c r : Nat) : (d.digestResult c r).regs = d.regs := by unfold Dev.digestResult; split <;> simp
@[simp] theorem Dev.counts_digestResult (c r : Nat) : (d.digestResult c r).counts = d.counts := by unfold Dev.digestResult; split <;> simp
@[simp] theorem Dev.snaps_digestResult (c r : Nat) : (d.digestResult c r).snaps = d.snaps := by unfold Dev.digestResult; split <;> simp
@[simp] theorem Dev.staged_digestResult (c r : Nat) : (d.digestResult c r).staged = d.staged := by unfold Dev.digestResult; split <;> simp
@[simp] theorem Dev.stalls_digestResult (c r : Nat) : (d.digestResult c r).stalls = d.stalls := by unfold Dev.digestResult; split <;> simp
@[simp] theorem Dev.pops_digestResult (c r : Nat) : (d.digestResult c r).pops = d.pops := by unfold Dev.digestResult; split <;> simp
@[simp] theorem Dev.hall_digestResult (c r : Nat) : (d.digestResult c r).hall = d.hall := by unfold Dev.digestResult; split <;> simp
@[simp] theorem Dev.bur_digestResult (c r : Nat) : (d.digestResult c r).bur = d.bur := by unfold Dev.digestResult; split <;> simp
@[simp] theorem Dev.cans_digestResult (c r : Nat) : (d.digestResult c r).cans = d.cans := by unfold Dev.digestResult; split <;> simp
@[simp] theorem Dev.dst_digestResult (c r : Nat) : (d.digestResult c r).dst = d.dst := by unfold Dev.digestResult; split <;> simp
@[simp] theorem Dev.flash_digestResult (c r : Nat) : (d.digestResult c r).flash = d.flash := by unfold Dev.digestResult; split <;> simp
@[simp] theorem Dev.word_digestResult (c r : Nat) (pq : Page) (oq : Nat) : (d.digestResult c r).word pq oq = d.word pq oq := by simp [Dev.word]
@[simp] theorem Dev.count_digestResult (c r : Nat) (pq : Page) (oq : Nat) : (d.digestResult c r).count pq oq = d.count pq oq := by simp [Dev.count]

@[simp] theorem Dev.regs_adjSend (t : Nat) (ws : List Nat) : (d.adjSend t ws).regs = d.regs := by unfold Dev.adjSend; simp only [Dev.when]; split <;> simp
@[simp] theorem Dev.counts_adjSend (t : Nat) (ws : List Nat) : (d.adjSend t ws).counts = d.counts := by unfold Dev.adjSend; simp only [Dev.when]; split <;> simp
@[simp] theorem Dev.snaps_adjSend (t : Nat) (ws : List Nat) : (d.adjSend t ws).snaps = d.snaps := by unfold Dev.adjSend; simp only [Dev.when]; split <;> simp
@[simp] theorem Dev.staged_adjSend (t : Nat) (ws : List Nat) : (d.adjSend t ws).staged = d.staged := by unfold Dev.adjSend; simp only [Dev.when]; split <;> simp
@[simp] theorem Dev.stalls_adjSend (t : Nat) (ws : List Nat) : (d.adjSend t ws).stalls = d.stalls := by unfold Dev.adjSend; simp only [Dev.when]; split <;> simp
@[simp] theorem Dev.pops_adjSend (t : Nat) (ws : List Nat) : (d.adjSend t ws).pops = d.pops := by unfold Dev.adjSend; simp only [Dev.when]; split <;> simp
@[simp] theorem Dev.hall_adjSend (t : Nat) (ws : List Nat) : (d.adjSend t ws).hall = d.hall := by unfold Dev.adjSend; simp only [Dev.when]; split <;> simp
@[simp] theorem Dev.bur_adjSend (t : Nat) (ws : List Nat) : (d.adjSend t ws).bur = d.bur := by unfold Dev.adjSend; simp only [Dev.when]; split <;> simp
@[simp] theorem Dev.cans_adjSend (t : Nat) (ws : List Nat) : (d.adjSend t ws).cans = d.cans := by unfold Dev.adjSend; simp only [Dev.when]; split <;> simp
@[simp] theorem Dev.dst_adjSend (t : Nat) (ws : List Nat) : (d.adjSend t ws).dst = d.dst := by unfold Dev.adjSend; simp only [Dev.when]; split <;> simp
@[simp] theorem Dev.flash_adjSend (t : Nat) (ws : List Nat) : (d.adjSend t ws).flash = d.flash := by unfold Dev.adjSend; simp only [Dev.when]; split <;> simp
@[simp] theorem Dev.word_adjSend (t : Nat) (ws : List Nat) (pq : Page) (oq : Nat) : (d.adjSend t ws).word pq oq = d.word pq oq := by simp [Dev.word]
@[simp] theorem Dev.count_adjSend (t : Nat) (ws : List Nat) (pq : Page) (oq : Nat) : (d.adjSend t ws).count pq oq = d.count pq oq := by simp [Dev.count]

@[simp] theorem Dev.regs_deliverAside (p : Page) : (d.deliverAside p).regs = d.regs := by unfold Dev.deliverAside; simp only [Dev.when]; split <;> split <;> split <;> simp
@[simp] theorem Dev.counts_deliverAside (p : Page) : (d.deliverAside p).counts = d.counts := by unfold Dev.deliverAside; simp only [Dev.when]; split <;> split <;> split <;> simp
@[simp] theorem Dev.snaps_deliverAside (p : Page) : (d.deliverAside p).snaps = d.snaps := by unfold Dev.deliverAside; simp only [Dev.when]; split <;> split <;> split <;> simp
@[simp] theorem Dev.staged_deliverAside (p : Page) : (d.deliverAside p).staged = d.staged := by unfold Dev.deliverAside; simp only [Dev.when]; split <;> split <;> split <;> simp
@[simp] theorem Dev.stalls_deliverAside (p : Page) : (d.deliverAside p).stalls = d.stalls := by unfold Dev.deliverAside; simp only [Dev.when]; split <;> split <;> split <;> simp
@[simp] theorem Dev.pops_deliverAside (p : Page) : (d.deliverAside p).pops = d.pops := by unfold Dev.deliverAside; simp only [Dev.when]; split <;> split <;> split <;> simp
@[simp] theorem Dev.hall_deliverAside (p : Page) : (d.deliverAside p).hall = d.hall := by unfold Dev.deliverAside; simp only [Dev.when]; split <;> split <;> split <;> simp
@[simp] theorem Dev.bur_deliverAside (p : Page) : (d.deliverAside p).bur = d.bur := by unfold Dev.deliverAside; simp only [Dev.when]; split <;> split <;> split <;> simp
@[simp] theorem Dev.cans_deliverAside (p : Page) : (d.deliverAside p).cans = d.cans := by unfold Dev.deliverAside; simp only [Dev.when]; split <;> split <;> split <;> simp
@[simp] theorem Dev.dst_deliverAside (p : Page) : (d.deliverAside p).dst = d.dst := by unfold Dev.deliverAside; simp only [Dev.when]; split <;> split <;> split <;> simp
@[simp] theorem Dev.flash_deliverAside (p : Page) : (d.deliverAside p).flash = d.flash := by unfold Dev.deliverAside; simp only [Dev.when]; split <;> split <;> split <;> simp
@[simp] theorem Dev.word_deliverAside (p : Page) (pq : Page) (oq : Nat) : (d.deliverAside p).word pq oq = d.word pq oq := by simp [Dev.word]
@[simp] theorem Dev.count_deliverAside (p : Page) (pq : Page) (oq : Nat) : (d.deliverAside p).count pq oq = d.count pq oq := by simp [Dev.count]

@[simp] theorem Dev.counts_pendMsix (v : Nat) : (d.pendMsix v).counts = d.counts := by unfold Dev.pendMsix; simp
@[simp] theorem Dev.snaps_pendMsix (v : Nat) : (d.pendMsix v).snaps = d.snaps := by unfold Dev.pendMsix; simp
@[simp] theorem Dev.staged_pendMsix (v : Nat) : (d.pendMsix v).staged = d.staged := by unfold Dev.pendMsix; simp
@[simp] theorem Dev.stalls_pendMsix (v : Nat) : (d.pendMsix v).stalls = d.stalls := by unfold Dev.pendMsix; simp
@[simp] theorem Dev.pops_pendMsix (v : Nat) : (d.pendMsix v).pops = d.pops := by unfold Dev.pendMsix; simp
@[simp] theorem Dev.hall_pendMsix (v : Nat) : (d.pendMsix v).hall = d.hall := by unfold Dev.pendMsix; simp
@[simp] theorem Dev.bur_pendMsix (v : Nat) : (d.pendMsix v).bur = d.bur := by unfold Dev.pendMsix; simp
@[simp] theorem Dev.cans_pendMsix (v : Nat) : (d.pendMsix v).cans = d.cans := by unfold Dev.pendMsix; simp
@[simp] theorem Dev.dst_pendMsix (v : Nat) : (d.pendMsix v).dst = d.dst := by unfold Dev.pendMsix; simp
@[simp] theorem Dev.adj_pendMsix (v : Nat) : (d.pendMsix v).adj = d.adj := by unfold Dev.pendMsix; simp
@[simp] theorem Dev.flash_pendMsix (v : Nat) : (d.pendMsix v).flash = d.flash := by unfold Dev.pendMsix; simp
@[simp] theorem Dev.count_pendMsix (v : Nat) (pq : Page) (oq : Nat) : (d.pendMsix v).count pq oq = d.count pq oq := by simp [Dev.count]

@[simp] theorem Dev.regs_pwEntry (a b c e f g : Nat) (w : Bool) : (d.pwEntry a b c e f g w).regs = d.regs := by unfold Dev.pwEntry; simp
@[simp] theorem Dev.snaps_pwEntry (a b c e f g : Nat) (w : Bool) : (d.pwEntry a b c e f g w).snaps = d.snaps := by unfold Dev.pwEntry; simp
@[simp] theorem Dev.staged_pwEntry (a b c e f g : Nat) (w : Bool) : (d.pwEntry a b c e f g w).staged = d.staged := by unfold Dev.pwEntry; simp
@[simp] theorem Dev.stalls_pwEntry (a b c e f g : Nat) (w : Bool) : (d.pwEntry a b c e f g w).stalls = d.stalls := by unfold Dev.pwEntry; simp
@[simp] theorem Dev.hall_pwEntry (a b c e f g : Nat) (w : Bool) : (d.pwEntry a b c e f g w).hall = d.hall := by unfold Dev.pwEntry; simp
@[simp] theorem Dev.bur_pwEntry (a b c e f g : Nat) (w : Bool) : (d.pwEntry a b c e f g w).bur = d.bur := by unfold Dev.pwEntry; simp
@[simp] theorem Dev.cans_pwEntry (a b c e f g : Nat) (w : Bool) : (d.pwEntry a b c e f g w).cans = d.cans := by unfold Dev.pwEntry; simp
@[simp] theorem Dev.dst_pwEntry (a b c e f g : Nat) (w : Bool) : (d.pwEntry a b c e f g w).dst = d.dst := by unfold Dev.pwEntry; simp
@[simp] theorem Dev.adj_pwEntry (a b c e f g : Nat) (w : Bool) : (d.pwEntry a b c e f g w).adj = d.adj := by unfold Dev.pwEntry; simp
@[simp] theorem Dev.flash_pwEntry (a b c e f g : Nat) (w : Bool) : (d.pwEntry a b c e f g w).flash = d.flash := by unfold Dev.pwEntry; simp
@[simp] theorem Dev.word_pwEntry (a b c e f g : Nat) (w : Bool) (pq : Page) (oq : Nat) : (d.pwEntry a b c e f g w).word pq oq = d.word pq oq := by simp [Dev.word]

@[simp] theorem Dev.snaps_failMsix (v c : Nat) : (d.failMsix v c).snaps = d.snaps := by unfold Dev.failMsix; simp only [Dev.when]; split <;> (try split) <;> simp
@[simp] theorem Dev.staged_failMsix (v c : Nat) : (d.failMsix v c).staged = d.staged := by unfold Dev.failMsix; simp only [Dev.when]; split <;> (try split) <;> simp
@[simp] theorem Dev.stalls_failMsix (v c : Nat) : (d.failMsix v c).stalls = d.stalls := by unfold Dev.failMsix; simp only [Dev.when]; split <;> (try split) <;> simp
@[simp] theorem Dev.hall_failMsix (v c : Nat) : (d.failMsix v c).hall = d.hall := by unfold Dev.failMsix; simp only [Dev.when]; split <;> (try split) <;> simp
@[simp] theorem Dev.bur_failMsix (v c : Nat) : (d.failMsix v c).bur = d.bur := by unfold Dev.failMsix; simp only [Dev.when]; split <;> (try split) <;> simp
@[simp] theorem Dev.cans_failMsix (v c : Nat) : (d.failMsix v c).cans = d.cans := by unfold Dev.failMsix; simp only [Dev.when]; split <;> (try split) <;> simp
@[simp] theorem Dev.dst_failMsix (v c : Nat) : (d.failMsix v c).dst = d.dst := by unfold Dev.failMsix; simp only [Dev.when]; split <;> (try split) <;> simp
@[simp] theorem Dev.flash_failMsix (v c : Nat) : (d.failMsix v c).flash = d.flash := by unfold Dev.failMsix; simp only [Dev.when]; split <;> (try split) <;> simp

@[simp] theorem Dev.snaps_sendMsix (v : Nat) : (d.sendMsix v).snaps = d.snaps := by unfold Dev.sendMsix; dsimp only; split <;> (try split) <;> (try split) <;> simp
@[simp] theorem Dev.staged_sendMsix (v : Nat) : (d.sendMsix v).staged = d.staged := by unfold Dev.sendMsix; dsimp only; split <;> (try split) <;> (try split) <;> simp
@[simp] theorem Dev.stalls_sendMsix (v : Nat) : (d.sendMsix v).stalls = d.stalls := by unfold Dev.sendMsix; dsimp only; split <;> (try split) <;> (try split) <;> simp
@[simp] theorem Dev.hall_sendMsix (v : Nat) : (d.sendMsix v).hall = d.hall := by unfold Dev.sendMsix; dsimp only; split <;> (try split) <;> (try split) <;> simp
@[simp] theorem Dev.bur_sendMsix (v : Nat) : (d.sendMsix v).bur = d.bur := by unfold Dev.sendMsix; dsimp only; split <;> (try split) <;> (try split) <;> simp
@[simp] theorem Dev.cans_sendMsix (v : Nat) : (d.sendMsix v).cans = d.cans := by unfold Dev.sendMsix; dsimp only; split <;> (try split) <;> (try split) <;> simp
@[simp] theorem Dev.dst_sendMsix (v : Nat) : (d.sendMsix v).dst = d.dst := by unfold Dev.sendMsix; dsimp only; split <;> (try split) <;> (try split) <;> simp
@[simp] theorem Dev.flash_sendMsix (v : Nat) : (d.sendMsix v).flash = d.flash := by unfold Dev.sendMsix; dsimp only; split <;> (try split) <;> (try split) <;> simp

@[simp] theorem Dev.snaps_deliver (p : Page) : (d.deliver p).snaps = d.snaps := by unfold Dev.deliver; simp only [Dev.when]; split <;> simp
@[simp] theorem Dev.staged_deliver (p : Page) : (d.deliver p).staged = d.staged := by unfold Dev.deliver; simp only [Dev.when]; split <;> simp
@[simp] theorem Dev.stalls_deliver (p : Page) : (d.deliver p).stalls = d.stalls := by unfold Dev.deliver; simp only [Dev.when]; split <;> simp
@[simp] theorem Dev.hall_deliver (p : Page) : (d.deliver p).hall = d.hall := by unfold Dev.deliver; simp only [Dev.when]; split <;> simp
@[simp] theorem Dev.bur_deliver (p : Page) : (d.deliver p).bur = d.bur := by unfold Dev.deliver; simp only [Dev.when]; split <;> simp
@[simp] theorem Dev.cans_deliver (p : Page) : (d.deliver p).cans = d.cans := by unfold Dev.deliver; simp only [Dev.when]; split <;> simp
@[simp] theorem Dev.dst_deliver (p : Page) : (d.deliver p).dst = d.dst := by unfold Dev.deliver; simp only [Dev.when]; split <;> simp
@[simp] theorem Dev.flash_deliver (p : Page) : (d.deliver p).flash = d.flash := by unfold Dev.deliver; simp only [Dev.when]; split <;> simp

@[simp] theorem Dev.counts_issue (k o sp a x c : Nat) : (d.issue k o sp a x c).counts = d.counts := by unfold Dev.issue; simp only [Dev.when]; split <;> simp
@[simp] theorem Dev.snaps_issue (k o sp a x c : Nat) : (d.issue k o sp a x c).snaps = d.snaps := by unfold Dev.issue; simp only [Dev.when]; split <;> simp
@[simp] theorem Dev.staged_issue (k o sp a x c : Nat) : (d.issue k o sp a x c).staged = d.staged := by unfold Dev.issue; simp only [Dev.when]; split <;> simp
@[simp] theorem Dev.stalls_issue (k o sp a x c : Nat) : (d.issue k o sp a x c).stalls = d.stalls := by unfold Dev.issue; simp only [Dev.when]; split <;> simp
@[simp] theorem Dev.pops_issue (k o sp a x c : Nat) : (d.issue k o sp a x c).pops = d.pops := by unfold Dev.issue; simp only [Dev.when]; split <;> simp
@[simp] theorem Dev.hall_issue (k o sp a x c : Nat) : (d.issue k o sp a x c).hall = d.hall := by unfold Dev.issue; simp only [Dev.when]; split <;> simp
@[simp] theorem Dev.bur_issue (k o sp a x c : Nat) : (d.issue k o sp a x c).bur = d.bur := by unfold Dev.issue; simp only [Dev.when]; split <;> simp
@[simp] theorem Dev.cans_issue (k o sp a x c : Nat) : (d.issue k o sp a x c).cans = d.cans := by unfold Dev.issue; simp only [Dev.when]; split <;> simp
@[simp] theorem Dev.dst_issue (k o sp a x c : Nat) : (d.issue k o sp a x c).dst = d.dst := by unfold Dev.issue; simp only [Dev.when]; split <;> simp
@[simp] theorem Dev.flash_issue (k o sp a x c : Nat) : (d.issue k o sp a x c).flash = d.flash := by unfold Dev.issue; simp only [Dev.when]; split <;> simp
@[simp] theorem Dev.count_issue (k o sp a x c : Nat) (pq : Page) (oq : Nat) : (d.issue k o sp a x c).count pq oq = d.count pq oq := by simp [Dev.count]

@[simp] theorem Dev.counts_orderOf (a : Access) (c : Nat) : (d.orderOf a c).counts = d.counts := by unfold Dev.orderOf; simp
@[simp] theorem Dev.snaps_orderOf (a : Access) (c : Nat) : (d.orderOf a c).snaps = d.snaps := by unfold Dev.orderOf; simp
@[simp] theorem Dev.staged_orderOf (a : Access) (c : Nat) : (d.orderOf a c).staged = d.staged := by unfold Dev.orderOf; simp
@[simp] theorem Dev.stalls_orderOf (a : Access) (c : Nat) : (d.orderOf a c).stalls = d.stalls := by unfold Dev.orderOf; simp
@[simp] theorem Dev.pops_orderOf (a : Access) (c : Nat) : (d.orderOf a c).pops = d.pops := by unfold Dev.orderOf; simp
@[simp] theorem Dev.hall_orderOf (a : Access) (c : Nat) : (d.orderOf a c).hall = d.hall := by unfold Dev.orderOf; simp
@[simp] theorem Dev.bur_orderOf (a : Access) (c : Nat) : (d.orderOf a c).bur = d.bur := by unfold Dev.orderOf; simp
@[simp] theorem Dev.cans_orderOf (a : Access) (c : Nat) : (d.orderOf a c).cans = d.cans := by unfold Dev.orderOf; simp
@[simp] theorem Dev.dst_orderOf (a : Access) (c : Nat) : (d.orderOf a c).dst = d.dst := by unfold Dev.orderOf; simp
@[simp] theorem Dev.flash_orderOf (a : Access) (c : Nat) : (d.orderOf a c).flash = d.flash := by unfold Dev.orderOf; simp
@[simp] theorem Dev.count_orderOf (a : Access) (c : Nat) (pq : Page) (oq : Nat) : (d.orderOf a c).count pq oq = d.count pq oq := by simp [Dev.count]

@[simp] theorem Dev.regs_written (a : Access) : (d.written a).regs = d.regs := by unfold Dev.written Dev.answer; split <;> simp
@[simp] theorem Dev.counts_written (a : Access) : (d.written a).counts = d.counts := by unfold Dev.written Dev.answer; split <;> simp
@[simp] theorem Dev.snaps_written (a : Access) : (d.written a).snaps = d.snaps := by unfold Dev.written Dev.answer; split <;> simp
@[simp] theorem Dev.staged_written (a : Access) : (d.written a).staged = d.staged := by unfold Dev.written Dev.answer; split <;> simp
@[simp] theorem Dev.stalls_written (a : Access) : (d.written a).stalls = d.stalls := by unfold Dev.written Dev.answer; split <;> simp
@[simp] theorem Dev.pops_written (a : Access) : (d.written a).pops = d.pops := by unfold Dev.written Dev.answer; split <;> simp
@[simp] theorem Dev.hall_written (a : Access) : (d.written a).hall = d.hall := by unfold Dev.written Dev.answer; split <;> simp
@[simp] theorem Dev.bur_written (a : Access) : (d.written a).bur = d.bur := by unfold Dev.written Dev.answer; split <;> simp
@[simp] theorem Dev.cans_written (a : Access) : (d.written a).cans = d.cans := by unfold Dev.written Dev.answer; split <;> simp
@[simp] theorem Dev.dst_written (a : Access) : (d.written a).dst = d.dst := by unfold Dev.written Dev.answer; split <;> simp
@[simp] theorem Dev.flash_written (a : Access) : (d.written a).flash = d.flash := by unfold Dev.written Dev.answer; split <;> simp
@[simp] theorem Dev.word_written (a : Access) (pq : Page) (oq : Nat) : (d.written a).word pq oq = d.word pq oq := by simp [Dev.word]
@[simp] theorem Dev.count_written (a : Access) (pq : Page) (oq : Nat) : (d.written a).count pq oq = d.count pq oq := by simp [Dev.count]

/-- Deliveries leave what one delivery leaves. -/
theorem Dev.foldl_deliver {α β : Type} (g : Dev → β) (p : Page) (h : ∀ d : Dev, g (d.deliver p) = g d) (l : List α) (d : Dev) :
    g (l.foldl (fun d _ => d.deliver p) d) = g d := by
  induction l generalizing d with
  | nil => rfl
  | cons _ l ih => rw [List.foldl_cons, ih, h]

@[simp] theorem Dev.snaps_raise (p : Page) (b : Nat) : (d.raise p b).snaps = d.snaps := by
  unfold Dev.raise Dev.irqEdge
  split
  · rfl
  · dsimp only
    rw [Dev.foldl_deliver (fun d => d.snaps) p (fun d => by simp)]
    simp
@[simp] theorem Dev.staged_raise (p : Page) (b : Nat) : (d.raise p b).staged = d.staged := by
  unfold Dev.raise Dev.irqEdge
  split
  · rfl
  · dsimp only
    rw [Dev.foldl_deliver (fun d => d.staged) p (fun d => by simp)]
    simp
@[simp] theorem Dev.stalls_raise (p : Page) (b : Nat) : (d.raise p b).stalls = d.stalls := by
  unfold Dev.raise Dev.irqEdge
  split
  · rfl
  · dsimp only
    rw [Dev.foldl_deliver (fun d => d.stalls) p (fun d => by simp)]
    simp
@[simp] theorem Dev.hall_raise (p : Page) (b : Nat) : (d.raise p b).hall = d.hall := by
  unfold Dev.raise Dev.irqEdge
  split
  · rfl
  · dsimp only
    rw [Dev.foldl_deliver (fun d => d.hall) p (fun d => by simp)]
    simp
@[simp] theorem Dev.bur_raise (p : Page) (b : Nat) : (d.raise p b).bur = d.bur := by
  unfold Dev.raise Dev.irqEdge
  split
  · rfl
  · dsimp only
    rw [Dev.foldl_deliver (fun d => d.bur) p (fun d => by simp)]
    simp
@[simp] theorem Dev.cans_raise (p : Page) (b : Nat) : (d.raise p b).cans = d.cans := by
  unfold Dev.raise Dev.irqEdge
  split
  · rfl
  · dsimp only
    rw [Dev.foldl_deliver (fun d => d.cans) p (fun d => by simp)]
    simp
@[simp] theorem Dev.dst_raise (p : Page) (b : Nat) : (d.raise p b).dst = d.dst := by
  unfold Dev.raise Dev.irqEdge
  split
  · rfl
  · dsimp only
    rw [Dev.foldl_deliver (fun d => d.dst) p (fun d => by simp)]
    simp
@[simp] theorem Dev.flash_raise (p : Page) (b : Nat) : (d.raise p b).flash = d.flash := by
  unfold Dev.raise Dev.irqEdge
  split
  · rfl
  · dsimp only
    rw [Dev.foldl_deliver (fun d => d.flash) p (fun d => by simp)]
    simp
@[simp] theorem Dev.snaps_refuse (p : Page) : (d.refuse p).snaps = d.snaps := by unfold Dev.refuse; dsimp only; split <;> simp
@[simp] theorem Dev.staged_refuse (p : Page) : (d.refuse p).staged = d.staged := by unfold Dev.refuse; dsimp only; split <;> simp
@[simp] theorem Dev.stalls_refuse (p : Page) : (d.refuse p).stalls = d.stalls := by unfold Dev.refuse; dsimp only; split <;> simp
@[simp] theorem Dev.hall_refuse (p : Page) : (d.refuse p).hall = d.hall := by unfold Dev.refuse; dsimp only; split <;> simp
@[simp] theorem Dev.bur_refuse (p : Page) : (d.refuse p).bur = d.bur := by unfold Dev.refuse; dsimp only; split <;> simp
@[simp] theorem Dev.cans_refuse (p : Page) : (d.refuse p).cans = d.cans := by unfold Dev.refuse; dsimp only; split <;> simp
@[simp] theorem Dev.dst_refuse (p : Page) : (d.refuse p).dst = d.dst := by unfold Dev.refuse; dsimp only; split <;> simp
@[simp] theorem Dev.flash_refuse (p : Page) : (d.refuse p).flash = d.flash := by unfold Dev.refuse; dsimp only; split <;> simp
@[simp] theorem Dev.snaps_setState (p : Page) (n : Nat) : (d.setState p n).snaps = d.snaps := by unfold Dev.setState; split <;> simp
@[simp] theorem Dev.staged_setState (p : Page) (n : Nat) : (d.setState p n).staged = d.staged := by unfold Dev.setState; split <;> simp
@[simp] theorem Dev.stalls_setState (p : Page) (n : Nat) : (d.setState p n).stalls = d.stalls := by unfold Dev.setState; split <;> simp
@[simp] theorem Dev.hall_setState (p : Page) (n : Nat) : (d.setState p n).hall = d.hall := by unfold Dev.setState; split <;> simp
@[simp] theorem Dev.bur_setState (p : Page) (n : Nat) : (d.setState p n).bur = d.bur := by unfold Dev.setState; split <;> simp
@[simp] theorem Dev.cans_setState (p : Page) (n : Nat) : (d.setState p n).cans = d.cans := by unfold Dev.setState; split <;> simp
@[simp] theorem Dev.dst_setState (p : Page) (n : Nat) : (d.setState p n).dst = d.dst := by unfold Dev.setState; split <;> simp
@[simp] theorem Dev.flash_setState (p : Page) (n : Nat) : (d.setState p n).flash = d.flash := by unfold Dev.setState; split <;> simp

end Sys2Proof.Machine
end

