-- ==== Sys2Proof/Tests/Slice0.lean ====
section
/-! SUPPORT. The tests: each check of WellFormed refuses an ill-formed command; single commands answer what the manual's
worked examples and the named standards give; and for every statement with hypotheses, states and operands that meet
them together, one for each clause (`wit_` and the statement's name). -/

set_option Elab.async false

namespace Sys2Proof.Tests

open Sys2Proof Sys2Proof.Machine

-- ==== small states ====

/-- The device after reset with the start far enough that every party reaches every page, all features in force and every
domain awake. -/
def rdy : Dev :=
  let d := State.reset.dev
  { d with features := 0x3FFF, awake := List.range 17,
           start := { d.start with spiUp := true, barsDecoded := true, cfgLoaded := true } }

/-- No command waits. -/
def stateOf (d : Dev) : State := ⟨[], d⟩

/-- A page in a STATE. -/
def inState (p : Page) (n : Nat) (d : Dev) : Dev := d.setFld p R.PAGE_STAT_STATE n

/-- A page ON. -/
def pageOn (p : Page) (d : Dev) : Dev := inState p 2 d

/-- A page locked by an owner. -/
def lockedBy (who : Owner) (p : Page) (d : Dev) : Dev :=
  (d.setFlag p R.PAGE_LOCK_HELD true).setFld p R.PAGE_LOCK_OWNER who.code

/-- A register field set. -/
def setTo (p : Page) (f : Fld) (v : Nat) (d : Dev) : Dev := d.setFld p f v

/-- A power state. -/
def inPower (n : Nat) : Dev → Dev := setTo pwrPg R.PWR_STATE_STAT_CUR n

/-- A state of the sleep round. -/
def inRound (n : Nat) (d : Dev) : Dev := d.setRound n

/-- An access that waits. -/
def x0 : Stall := { domain := 0, acc := { who := .host, target := .reg (evoPg 0) 0x80, write := false }, since := 0 }

/-- A frame of port 40. -/
def frm0 : Machine.Frm := { id := 1, inPort := 40, data := List.replicate 60 0 }

/-- Its copy. -/
def copy0 : Copy := { frm := frm0, cells := 1 }

/-- It in the Burin, in a phase. -/
def fl0 (ph : Nat) : Flight := { frm := frm0, pipe := 0, phase := ph, at0 := 0 }

/-- It released. -/
def tx0 : TxCopy := { copy := copy0, queue := 0, releasedAt := 0 }

/-- A frame in reception. -/
def rx0 : RxCur := { stamp0 := 0, stamp1 := 0, deep := false, maxLen := 1518 }

/-- A queue with content. -/
def hasQ (n : Nat) (q : Queue) (d : Dev) : Dev := d.setQueue n q

/-- A CAN message. -/
def can0 : CanMsg := { fmt := 0, ext := false, id := 0, data := [] }

/-- A gPTP message. -/
def gptp0 : GptpMsg := { port := 0, data := List.replicate 64 0, stamp0 := 0, stamp1 := 0, at0 := 0 }

/-- A read of MDIO. -/
def mdio0 : MdioRun := { write := false, c45 := false, phyad := 0, devad := 0, reg := 0, data := 0 }

/-- A wake frame. -/
def np0 : NpFrame := { fd := false, data := List.replicate 24 0 }

/-- A key of 128 bits. -/
def key0 : List Nat := List.replicate 16 0

/-- A mailbox command taken. -/
def mb0 (code : Nat) (body : List Nat) : MbRun := { box := 0, code := code, seq := 0, body := body, goAt := 0, pair := 0 }

/-- It runs. -/
def mbSt (code : Nat) (body : List Nat) (d : Dev) : Dev := d.withLbx (fun l => { l with runs := [mb0 code body] })

/-- The header of a schedule image without its CRC (R164). -/
def schedHead : List Byte := leBytes 4 0x31474852 ++ leBytes 4 0x02000001 ++ leBytes 4 0x00033980 ++ leBytes 4 1 ++ leBytes 4 80
  ++ List.replicate 40 0

/-- An empty section. -/
def schedSec : List Byte := leBytes 4 0x40000000 ++ leBytes 4 0 ++ leBytes 4 0 ++ leBytes 4 8

/-- The image. -/
def schedImg : List Byte := schedHead ++ leBytes 4 (crc32c (schedHead ++ schedSec)) ++ schedSec

/-- A request to the deep store. -/
def req0 : DsReq := { who := 0, at0 := 0 }

/-- A flash write that waits. -/
def uw0 : FlashWr := { addr := 0x100000, data := [0], who := 1, wide := false }

/-- A planned key command. -/
def key1 : KeyRun := { op := 1, slot := 0, parent := 0, result := 0 }

/-- An order. -/
def ord0 (k : Nat) : Order := { kind := k, origin := 0, space := 0, addr := 0, index := 1, time := 0, data := 0 }

/-- A frame not yet acknowledged. -/
def una0 : Unacked := { type := 4, seq := 0, words := [] }

/-- A pair in a STATE. -/
def pairOn (n st : Nat) : Dev → Dev := setTo cclPg (R.CCL_PAIR_STAT_STATE.at n) st

/-- Adjor ON, in a STATE. -/
def adjIn (st : Nat) (d : Dev) : Dev := setTo adjPg R.ADJ_STAT_STATE st (pageOn adjPg d)

/-- A HELLO that fits. -/
def hlo (d : Dev) : List Word := [0x33980, BitVec.ofNat 32 (2 ^ 28 + 2 * 2 ^ 8 + d.fld adjPg R.PAGE_VER_STEP), 0, 0, 0, 0]

/-- Tables with one TCAM entry. -/
def tab0 (w : Nat) (em : List EmEntry) : Tables := { words := [(160, w)], em := em }

/-- An exact-match entry. -/
def em0 : EmEntry := { profile := 0, key := [0, 0, 0, 0, 0, 0], action := 5, slot := 0, slotB := 0 }

/-- The current tables, exact match on for port 0. -/
def burTab (t : Tables) (d : Dev) : Dev := setTo burPg (R.BUR_PORT_CFG0_EM_EN.at 0) 1 (d.withBur (fun b => { b with cur := t }))

/-- A second frame, its result ready. -/
def fl1 : Flight := { fl0 2 with frm := { frm0 with id := 2 } }

/-- A relay. -/
def rel0 : Relay := { cmd := 1, body := [], left := 3 }

/-- A request sent to the peer. -/
def rem0 : Nat × Access := (0, { who := .host, target := .reg (evoPg 0) 0x80, write := false })

/-- The next frame of a transmit queue. -/
def nxt0 : TxNext := { q := 0, descs := [⟨0, false, true, 60, List.replicate 60 0⟩] }

/-- A write that waits, of the host domain. -/
def x1 : Stall := { domain := 1, acc := { who := .host, target := .reg (evoPg 0) 0x80, write := true }, since := 0 }

/-- Its write of another byte. -/
def uw1 : FlashWr := { uw0 with data := [1] }

/-- A frame with a result. -/
def frm2 : Machine.Frm := { frm0 with res := { destType := 1 } }

/-- It in the Burin, its result ready. -/
def fl2 : Flight := { fl0 2 with frm := frm2 }

/-- The data of a wake frame with its COUNTER, before its tag. -/
def npData : List Byte := [0x10, 0, 0, 0, 0, 1] ++ List.replicate 10 0

/-- A wake frame with a tag. -/
def npTagged (tag : List Byte) : NpFrame := { fd := true, data := npData ++ tag }

/-- The first sector of the first image slot, held as bytes. -/
def knownSlot (d : Dev) : Dev :=
  setTo updPg (R.UPD_SLOT_LEN_LENGTH.at 0) 1 { d with upd := { d.upd with known := [0] } }

/-- A start on the wire. -/
def sof0 : TxSof := { at0 := 0, stamp0 := 0, stamp1 := 0 }

-- ==== ill-formed commands are refused ====

theorem test_wf_page : (Instr.lockAcquire .host ⟨.sys, 1⟩).wf = false := by decide
theorem test_wf_unit : (Instr.startComplete (.page ⟨.prt, 40⟩)).wf = false := by decide
theorem test_wf_target : (Instr.registerWrite .host (.reg (evoPg 0) 0x82) 4 0).wf = false := by decide
theorem test_wf_size : (Instr.registerWrite .host (.reg (evoPg 0) 0x80) 0 0).wf = false := by decide
theorem test_wf_can :
    ([{ id := 2048 }, { data := List.replicate 9 0 }, { fmt := 1, data := List.replicate 9 0 }, { fmt := 2 },
      { fmt := 3, data := List.replicate 9 0 }, { fmt := 4 }] : List CanMsg).all
        (fun m => !(Instr.canRxValid 0 m 0 .none).wf) = true := by decide
theorem test_wf_descriptor :
    ([{ q := 64, descs := [] }, { q := 0, descs := [⟨0, false, true, 2, [0]⟩] }] : List TxNext).all
      (fun t => !(Instr.dmaTxFetch [t]).wf) = true := by decide
theorem test_wf_mdio : (Instr.mdioPoll 0 [(40, 0, 0)]).wf = false := by decide
theorem test_wf_lin : (Instr.linResponseRx 0 (List.replicate 9 0) 0 0 .none).wf = false := by decide
theorem test_wf_wake : (Instr.wakeFrameRx true false 0 (List.replicate 65 0)).wf = false := by decide
theorem test_wf_order : (Instr.orderRx 0 true [[0]]).wf = false := by decide

-- ==== single commands ====

/-- What a command leaves of the device. -/
def after (c : Instr) (d : Dev) : Dev :=
  match exec c (stateOf d) with
  | .next s => s.dev
  | _ => {}

/-- The example of chapter 01: the actuator holds pin 4, and a start of event output 4 is refused. -/
theorem test_claim_conflict :
    (let d := after (.pageEnRequest .host (.page (evoPg 4)) true) ((rdy |> pageOn pmkPg).setWord sysPg 0x1010 0x81040002)
     [d.word sysPg 0x1010, d.word sysPg 0x1400, d.word sysPg 0x1404, d.word sysPg 0x1408, d.word sysPg 0x18 % 2,
      d.state (evoPg 4)]) = [0x81040002, 0x80000004, 0x81040002, 0x01040001, 1, 0] := by decide +kernel

/-- The example of chapter 02: a reset of the host frees its lock and marks its staged writes. -/
def torn : Dev :=
  after (.lockOwnerReset .host)
    (((rdy |> pageOn shlPg).setWord shlPg 0x10 0x80000701).stage shlPg 0x2000 0xFF 1)

theorem test_torn : [torn.word shlPg 0x10, torn.word shlPg 0x0C, torn.word shlPg 0x14] = [0x700, 0x102, 0x101] := by
  decide +kernel

theorem test_acquire_torn :
    (after (.lockAcquire .host shlPg) torn).word shlPg 0x10 = 0x80000801 := by decide +kernel

/-- A COMMIT before the acknowledge is refused (R56). -/
theorem test_commit_torn :
    (after (.commit .host shlPg) (after (.lockAcquire .host shlPg) torn)).word shlPg 0x0C = 0x502 := by decide +kernel

/-- The check values of CRC-32C and of the CRC-8 of polynomial 0x2F, over the digits 1 to 9. -/
theorem test_crc :
    (let digits : List Byte := [0x31, 0x32, 0x33, 0x34, 0x35, 0x36, 0x37, 0x38, 0x39]
     (crc32c digits, crc8 digits)) = (0xE3069283, 0xDF) := by decide +kernel

/-- AES-CMAC of the empty message under the key of RFC 4493. -/
theorem test_cmac :
    (cmac [0x2b, 0x7e, 0x15, 0x16, 0x28, 0xae, 0xd2, 0xa6, 0xab, 0xf7, 0x15, 0x88, 0x09, 0xcf, 0x4f, 0x3c] []).take 8
      = [0xbb, 0x1d, 0x69, 0x29, 0xe9, 0x59, 0x37, 0x28] := by decide +kernel

/-- SHA-384 of "abc" (FIPS 180-4). -/
theorem test_sha384 : sha384 [0x61, 0x62, 0x63] / 2 ^ 320 = 0xcb00753f45a35e8b := by decide +kernel

/-- The entries of the drive window of chapter 09 are in range and last 25,000 and 225,000 ns. -/
theorem test_gate_entries :
    [0x00000140000061A8, 0x000002BF00036EE8].map (fun e => (gclBad e, gclInt e)) = [(false, 25000), (false, 225000)] := by
  decide +kernel

/-- A queue of two commands takes two steps and is empty after them. -/
theorem test_queue :
    (match State.steps ⟨[.wcUpdate, .trimCheck true], rdy⟩ 2 with
     | .next t => t.pending
     | _ => [.wcUpdate]) = [] := by decide +kernel

-- ==== sound states, and hypotheses the kernel does not decide ====

theorem reset_sound : State.reset.Sound := ⟨by decide, by decide, by decide, by decide, by decide⟩

theorem wit_StepKeepsSound : ∃ t, State.reset.Sound ∧ step State.reset = .next t := ⟨_, reset_sound, rfl⟩

theorem wit_QueueRunsToItsEnd : State.Sound ⟨[.wcUpdate], State.reset.dev⟩ := reset_sound

/-- The device after reset once the BARs decode. -/
def decoded : Dev := { State.reset.dev with start := rdy.start }

theorem wit_SnapshotsFreezeTheCounters :
    State.Sound (stateOf decoded) ∧ decoded.admits .host shlPg 0x40 = true ∧ decoded.issues = false
      ∧ PageKind.counterAreas shlPg.kind ≠ [] := by
  refine ⟨⟨?_, ?_, ?_, ?_, ?_⟩, ?_, ?_, ?_⟩ <;> decide +kernel

theorem wit_LowestTcamEntryWins :
    (tab0 0x80000000 []).words.rising = true ∧ tcamFind (tab0 0x80000000 []) 0 = some 0 := by decide +kernel

/-- An address of the user area lies in it however large the flash is. -/
theorem in_user (a : Nat) (h : 0x3C00000 ≤ a) (h' : a < 0x4000000) : inUser a = true := by
  have h2 : a < flashSize := Nat.lt_of_lt_of_le h' (Nat.le_max_left _ _)
  simp [inUser, userBase, h, h2]

theorem wit_flashWindowWrite :
    let d := (rdy |> setTo hbrPg R.HBR_RWIN_FLASH_BASE 7)
    let at_ := d.fld hbrPg R.HBR_RWIN_FLASH_BASE * 2 ^ 23 + 0x400000
    (d.start.released && d.reaches .host hbrPg && d.domainReady 1 && d.feature 7 && !d.sectorBusy at_
      && !d.flag hbrPg R.HBR_RWIN_FLASH_FENCED && decide (d.flash.queue.length < 256)) = true ∧ inUser at_ = true :=
  ⟨by decide +kernel, in_user _ (by decide +kernel) (by decide +kernel)⟩

theorem wit_flashErase :
    (rdy.admits .host hbrPg 0xCC && !rdy.flag hbrPg R.HBR_FLASH_STAT_BUSY) = true
      ∧ inUser ((0x3C0 : BitVec 16).toNat * 65536) = true :=
  ⟨by decide +kernel, in_user _ (by decide) (by decide)⟩


theorem wit_InertWritesAreIgnored :
    (rdy.start.released && (evoPg 0).exists && rdy.reaches .host (evoPg 0) && sizeOk (.reg (evoPg 0) 0x50) true 4 0x50
      && rdy.domainReady (evoPg 0).domain && !rdy.waits (evoPg 0).domain && !rdy.snapBusy.contains (evoPg 0).idx) = true
      ∧ ∀ r, regOf (evoPg 0) 0x50 = some r → r.rw = 0 ∧ r.w1c = 0 ∧ r.w1s = 0 ∧ r.wo = 0 := by
  refine ⟨by decide +kernel, fun r h => ?_⟩
  have h0 : regOf (evoPg 0) 0x50 = none := by decide +kernel
  rw [h0] at h; cases h

/-- The island with a wake frame whose tag is being computed, and the last counter it took. -/
def verifying (f : NpFrame) (last : Nat) : Dev :=
  (stateOf (rdy |> pageOn nptPg |> setTo nptPg (R.NPT_CNT_LAST_LAST.at 0) last
    |> (·.withNpt (fun x => { x with frames := [f], verify := some key0 })))).begun

/-- It once the tag is there. -/
def verified (f : NpFrame) (last : Nat) : Dev :=
  ((verifying f last).withNpt (fun n => { n with verify := none, frames := [] })).slotSpent
    ((verifying f last).fld nptPg (R.NPT_SENDER_KEY_SLOT.at f.sender))

/-- IDE and ID as the tag covers them. -/
def wakeId (f : NpFrame) (last : Nat) : Nat :=
  (verified f last).fld nptPg R.NPT_RX_ID_IDE * 2 ^ 31 + (verified f last).fld nptPg R.NPT_RX_ID_ID

/-- How far the frame's counter runs ahead of LAST. -/
def ahead (f : NpFrame) (last : Nat) : Nat :=
  (f.counter + 2 ^ 32 - (verified f last).fld nptPg (R.NPT_CNT_LAST_LAST.at f.sender)) % 2 ^ 32

/-- The right tag of the data, and a frame with it. -/
def tag1 : List Byte := [0x8A, 0x5B, 0x71, 0xA1, 0x6D, 0xC1, 0x01, 0x3F]
def good1 : NpFrame := npTagged tag1
def bad1 : NpFrame := npTagged (List.replicate 8 0)

theorem cmac_npData : (cmac key0 ((beBytes 4 0 ++ npData).map (·.toNat))).take 8 = tag1.map (·.toNat) := by
  decide +kernel

theorem wit_verify :
    [(good1, 0), (good1, 1), (bad1, 0)].all (fun (f, last) => decide ((verifying f last).npt.frames = [f])
      && decide ((verifying f last).npt.verify = some key0) && decide ((verifying f last).wax.npWork = 0)
      && !(verified f last).isArmed nptPg 0 && decide (wakeId f last = 0)
      && decide (f.data.take 16 = npData)) = true := by decide +kernel

theorem wit_VerifiedWakeFramesAreRelayed :
    (good1.data.drop 16).map (·.toNat) = (cmac key0 ((beBytes 4 0 ++ npData).map (·.toNat))).take 8
      ∧ (0 < ahead good1 0 ∧ ahead good1 0 ≤ (verified good1 0).fld nptPg R.NPT_RELAY_CFG_WINDOW)
      ∧ ahead good1 1 = 0
      ∧ (bad1.data.drop 16).map (·.toNat) ≠ (cmac key0 ((beBytes 4 0 ++ npData).map (·.toNat))).take 8 := by
  rw [cmac_npData]
  decide +kernel

/-- The hall with a frame for port 40 and the slow path's cores running. -/
def slowPath : Dev := rdy |> pageOn shlPg |> pairOn 2 1 |> hasQ (8 * 40) { chip := [copy0] }

theorem wit_slowPathTake :
    (slowPath.duty 2 && decide (slowPath.ccl.slowAt ≤ slowPath.now) && !slowPath.stalled 0 12
      && slowPath.pairState 2 != 5) = true
    ∧ (slowPath.pick 40 (slowPath.queued 40 + 1)).1 = some ((0, copy0) : Nat × Copy)
    ∧ (let d0 := (slowPath.pick 40 (slowPath.queued 40 + 1)).2
       ((({ d0 with ccl := { d0.ccl with slowAt := d0.now + slowPeriod } } : Dev).released 40 0 copy0
          copy0.read.2).shlInject copy0).isNone) = true :=
  ⟨by decide +kernel, by decide +kernel, by decide +kernel⟩

-- ==== hypotheses that are met ====

theorem wit_StepRunsTheFrontCommand :
    (let c : Instr := .wcUpdate; let rest : List Instr := []; let s : State := ⟨[.wcUpdate], rdy⟩;
     decide (s.pending = c :: rest)) = true := by
  decide +kernel

theorem wit_EmptyQueuePassesTime :
    (let s : State := stateOf rdy; decide (s.pending = [])) = true := by
  decide +kernel

theorem wit_MainCommandsRestWithoutMains :
    (let c : Instr := .wcUpdate; let s : State := stateOf (rdy |> inPower 4); decide (c.onMain = true) &&
     decide (s.begun.mainRun = false)) = true := by
  decide +kernel

theorem wit_CanonicalFormReadsTheSame :
    (let p : Page := evoPg 0; let off : Nat := 0; decide (p.exists = true) && decide (off < pageSpan)) = true := by
  decide +kernel

theorem wit_BitsFollowTheirType :
    (let r : RegDef := ⟨0x90, 0x4, 1, false, 0xF0, 0xF00, 0xF, 0, 0, 0x10, 0⟩; let v : Nat := 0; let i : Nat := 0;
     decide (i < 32) && decide (r.staged < 2 ^ 32) && decide (r.w1c &&& v < 2 ^ 32) && decide ((r.rw &&& r.w1c) = 0)
       &&
     decide ((r.rw &&& r.w1s) = 0) && decide ((r.w1c &&& r.w1s) = 0) && decide ((r.rw &&& r.wo) = 0) &&
     decide ((r.w1c &&& r.wo) = 0) && decide ((r.w1s &&& r.wo) = 0) && decide (r.wo < 2 ^ 32)) = true := by
  decide +kernel

theorem wit_EveryBitHasOneType :
    (let p : Page := evoPg 0; let off : Nat := 0x90;
     let r : RegDef := ⟨0x90, 0x4, 1, false, 0xFFFFFFFF, 0, 0, 0, 0, 0, 0⟩; decide (p.reg off = some r)) = true := by
  decide +kernel

theorem wit_PageControlOrder :
    (let s : State := stateOf rdy; let who : Owner := .host; let p : Page := evoPg 0; let d := s.begun;
     decide (d.admits who p 0x08 = true)) = true := by
  decide +kernel

theorem wit_OnlyTheHolderClearsTorn :
    ((let s : State := stateOf (rdy |> lockedBy .host (evoPg 0)); let who : Owner := .host; let p : Page := evoPg 0;
      let v : BitVec 64 := 0x100; let d := s.begun; decide (d.admits who p 0x0C = true) &&
      decide (bitAt (v.toNat % 2 ^ 32) 8 = true) && decide (d.holds p who = true)) &&
     (let s : State := stateOf rdy; let who : Owner := .host; let p : Page := evoPg 0; let v : BitVec 64 := 0x100;
      let d := s.begun; decide (d.admits who p 0x0C = true) && decide (bitAt (v.toNat % 2 ^ 32) 8 = true) &&
      decide (d.holds p who = false))) = true := by
  decide +kernel

theorem wit_LocksPassByRequest :
    ((let s : State := stateOf rdy; let who : Owner := .host; let p : Page := evoPg 0; let d := s.begun;
      decide (d.admits who p 0x08 = true) && decide (d.flag p R.PAGE_LOCK_HELD = false)) &&
     (let s : State := stateOf (rdy |> lockedBy .spi (evoPg 0)); let who : Owner := .host; let p : Page := evoPg 0;
      let d := s.begun; decide (d.admits who p 0x08 = true) && decide (d.flag p R.PAGE_LOCK_HELD = true) &&
      decide (d.lockOwner p ≠ who.code)) &&
     (let s : State := stateOf (rdy |> lockedBy .host (evoPg 0)); let who : Owner := .host; let p : Page := evoPg 0;
      let d := s.begun; decide (d.admits who p 0x08 = true) && decide (d.holds p who = true)) &&
     (let s : State := stateOf rdy; let who : Owner := .host; let p : Page := evoPg 0; let d := s.begun;
      decide (d.admits who p 0x08 = true) && decide (d.holds p who = false)) &&
     (let s : State := stateOf (rdy |> lockedBy .host burPg |> (·.withBur (fun x => { x with ownerGone := true })));
      let who : Owner := .host; let p : Page := burPg; let d := s.begun; decide (d.admits who p 0x08 = true) &&
      decide (p.kind = .bur) && decide (d.bur.ownerGone = true)) &&
     (let s : State := stateOf (rdy |> lockedBy .host (evoPg 0)); let who : Owner := .host; let p : Page := evoPg 0;
      let d := s.begun; decide (d.admits who p 0x08 = true) && decide (d.holds p who = true) &&
      decide ((p.kind = .bur → d.bur.ownerGone = false)))) = true := by
  decide +kernel

theorem wit_LockBarsOtherOwners :
    (let s : State := stateOf (rdy |> lockedBy .spi (evoPg 0)); let who : Owner := .host; let p : Page := evoPg 0;
     let off : Nat := 0x90; let v : BitVec 64 := 0; let d := s.begun; decide (d.start.released = true) &&
     decide (p.exists = true) && decide (d.reaches who p = true) && decide (sizeOk (.reg p off) true 4 off = true) &&
     decide (d.domainReady p.domain = true) && decide (d.waits p.domain = false) &&
     decide (d.snapBusy.contains p.idx = false) &&
     decide ((isOrdered p = true → d.orderBarred = false ∧ d.noCredit = false ∧ d.waits creditTag = false)) &&
     decide (d.flag p R.PAGE_LOCK_HELD = true) && decide (d.lockOwner p ≠ who.code) &&
     decide (openOffset p off = false) && decide (inert p off 4 = false) &&
     decide ((p.kind = .bur → off = 0xC8 → bitAt v.toNat 31 = false))) = true := by
  decide +kernel

theorem wit_RegisterWriteFrame :
    (let s : State := stateOf rdy; let who : Owner := .host; let p : Page := evoPg 0; let off : Nat := 0x90;
     let r : RegDef := ⟨0x90, 0x4, 1, false, 0xFFFFFFFF, 0, 0, 0, 0, 0, 0⟩; let v : BitVec 64 := 0; let d := s.begun;
     decide (d.admits who p off = true) && decide (d.issues = false) &&
     decide (p.kind ∈ [.boot, .evo, .cap, .ccl, .dcap, .upd]) && decide (recordWords p off = []) &&
     decide (0x50 ≤ off) && decide (off < 0x20000) && decide (regOf p off = some r) && decide (r.writable ≠ 0) &&
     decide (r.staged = 0) && decide (d.badWrite who p off (v.toNat % 2 ^ 32) = false)) = true := by
  decide +kernel

theorem wit_PopWindowIsAQueue :
    ((let d : Dev := rdy; let n : Nat := 0; let bodies : List (List Nat) := [[1], [2]];
      decide ((d.pop n).entries = []) && decide ((d.pop n).nextSeq < 65536) && decide (bodies.length ≤ popDepth n)) &&
     (let d : Dev := (List.range (popDepth 1)).foldl (fun d k => d.popPush 1 [k]) rdy; let n : Nat := 1;
      decide (popDepth n ≤ (d.pop n).entries.length)) &&
     (let d : Dev := rdy.popPush 0 [7]; let n : Nat := 0; let e : PopEntry := ⟨0, [7]⟩; let es : List PopEntry := [];
      decide ((d.pop n).entries = e :: es) && decide ((es.head?.map (·.seq)) ≠ some e.seq)) &&
     (let n : Nat := 0; let m : Nat := 1; decide (n ≠ m))) = true := by
  decide +kernel

theorem wit_ReadsChangeNothing :
    ((let s : State := stateOf rdy; let who : Owner := .host; let size : Nat := 4; let w : Fin 64 := 0;
      let off : Nat := 0; let d := s.begun; decide (d.start.released = true) &&
      decide ((∀ x ∈ d.stalls, x.acc.write = true → x.acc.who ≠ who)) && decide (w.val < 19) &&
      decide (d.reaches who (popPage w) = true) && decide (d.domainReady (popPage w).domain = true) &&
      decide (off < 0x400) && decide (sizeOk (.pop w off) false size off = true)) &&
     (let s : State := stateOf rdy; let who : Owner := .host; let size : Nat := 4; let p : Page := evoPg 0;
      let off : Nat := 0x80; let d := s.begun; decide (d.start.released = true) &&
      decide ((∀ x ∈ d.stalls, x.acc.write = true → x.acc.who ≠ who)) && decide (p.exists = true) &&
      decide (d.reaches who p = true) && decide (d.domainReady p.domain = true) && decide (d.waits p.domain = false)
        &&
      decide (d.snapBusy.contains p.idx = false) && decide (sizeOk (.reg p off) false size off = true))) = true := by
  decide +kernel

theorem wit_RaisedOnceDeliveredOnce :
    (let d : Dev := rdy; let p : Page := evoPg 0; let b : Nat := 0; decide (b < 32) &&
     decide (d.word p 0x18 < 2 ^ 32) && decide (d.word p 0x1C < 2 ^ 32)) = true := by
  decide +kernel

theorem wit_HeaderCommandsFrame :
    (let s : State := stateOf rdy; let who : Owner := .host; let p : Page := evoPg 0; let checker : Byte := 0;
     let c : Instr := .snapshot .host (evoPg 0); let d := s.begun;
     decide (c ∈ [Instr.lockAcquire who p, .lockRelease who p, .tornClear who p, .snapshot who p, .faultInject who p
       checker]) &&
     decide (p.exists = true) && decide (p.kind ≠ .bur) && decide (p.kind ≠ .pmk) && decide (d.issues = false) &&
     decide (d.start.released = true) && decide (d.reaches who p = true) && decide (d.domainReady p.domain = true) &&
     decide (d.waits p.domain = false) && decide (d.snapBusy.contains p.idx = false) &&
     decide ((isOrdered p = true → d.orderBarred = false ∧ d.noCredit = false ∧ d.waits creditTag = false))) = true := by
  decide +kernel

theorem wit_AddressesDecodeToOnePage :
    ((let a : Nat := 0x8010; let r : Region := ⟨0x008000, 0x1000, 1, 0x1000, .boot⟩;
      let r' : Region := ⟨0x008000, 0x1000, 1, 0x1000, .boot⟩; let x : Page × Nat := (bootPg, 0x10);
      let x' : Page × Nat := (bootPg, 0x10); decide (r ∈ bar0Stated) && decide (r' ∈ bar0Stated) &&
      decide (r.find a = some x) && decide (r'.find a = some x')) &&
     (let r : Region := ⟨0x008000, 0x1000, 1, 0x1000, .boot⟩; let n : Nat := 0; let off : Nat := 0xFFC;
      decide (r ∈ bar0Stated) && decide (n < r.count) && decide (off < r.size)) &&
     (let a := 0x2000000; decide (0x2000000 ≤ a)) &&
     (let a := 0x4C00; decide (0x400 * 19 ≤ a))) = true := by
  decide +kernel

theorem wit_BestMessageIsOffered :
    (let l : List TxMsg := [{ msg := can0 }, { msg := { can0 with id := 1 } }]; let t : TxMsg := { msg := can0 };
     decide (bestTx l = some t)) = true := by
  decide +kernel

theorem wit_OrdersStandByIndex :
    (let l : List Order := [{ ord0 1 with index := 1 }, { ord0 1 with index := 3 }];
     decide (l.Pairwise (fun x y => x.index < y.index))) = true := by
  decide +kernel

theorem wit_PolicerBucketsRefill :
    ((let d : Dev := rdy; let i : Nat := 0; decide (d.tcOf i ≤ (d.bucketSizes i).1) &&
      decide (d.teOf i ≤ (d.bucketSizes i).2)) &&
     (let d : Dev := rdy; let i : Nat := 0; let j := 1; decide (d.tcOf i ≤ (d.bucketSizes i).1) &&
      decide (d.teOf i ≤ (d.bucketSizes i).2) && decide (j ≠ i)) &&
     (let d : Dev := rdy.setFrk 1 0 0 (2 ^ 31); let i : Nat := 0; decide (d.tcOf i ≤ (d.bucketSizes i).1) &&
      decide (d.teOf i ≤ (d.bucketSizes i).2) && decide (bitAt (d.frkWord 1 i 0) 31 = true))) = true := by
  decide +kernel

theorem wit_FlashProgramsWhereItSays :
    ((let s : State := stateOf (rdy |> (·.withFlash (fun x => { x with queue := [uw0], mem := [(0x100000, 0x02)] }))
       |> knownSlot);
      let w : FlashWr := uw0; let ws : List FlashWr := []; let d := s.begun; decide (d.mainRun = true) &&
      decide (d.flash.queue = w :: ws) && decide (d.flashHeld d.flash.headAt = false) &&
      decide (d.sectorBusy w.addr = false) && decide ((∀ i, i < w.data.length → d.byteKnown (w.addr + i) = true)) &&
      decide ((d.wouldRaise w.addr w.data).1 = false)) &&
     (let s : State := stateOf (rdy |> (·.withFlash (fun x => { x with queue := [uw1], mem := [(0x100000, 0x02)] }))
       |> knownSlot);
      let w : FlashWr := uw1; let ws : List FlashWr := []; let d := s.begun; decide (d.mainRun = true) &&
      decide (d.flash.queue = w :: ws) && decide (d.flashHeld d.flash.headAt = false) &&
      decide (d.sectorBusy w.addr = false) && decide ((∀ i, i < w.data.length → d.byteKnown (w.addr + i) = true)) &&
      decide ((d.wouldRaise w.addr w.data).1 = true)) &&
     (let s : State := stateOf (rdy |> (·.withFlash (fun x => { x with erasing := some 512 }))); let sec : Nat := 512;
      let d := s.begun; decide (d.mainRun = true) && decide (d.flash.erasing = some sec) &&
      decide (d.flashHeld d.flash.eraseFrom = false))) = true := by
  decide +kernel

theorem wit_SpiCrcSeesEveryByte :
    ((let x : Byte := 1; let y : Byte := 0; decide (x ≠ y)) &&
     (let s : State := stateOf rdy; let space : Fin 3 := 0; let off : BitVec 32 := 0; let data : BitVec 32 := 0;
      let crc : Byte := 0; let d := s.begun; decide (d.spiDeep = false) && decide (d.start.released = true) &&
      decide (d.start.spiUp = true) && decide (crc8 (spiRequest 3 space off (beBytes 4 data.toNat)) ≠ crc.toNat))) = true := by
  decide +kernel

theorem wit_ExactMatchOrTcam :
    ((let d : Dev := burTab (tab0 0xC0000000 [em0]) rdy; let key : Nat := 0; let port : Nat := 0; let t := d.bur.cur;
      let tc := tcamFind t key; let prof := d.fld burPg (R.BUR_PORT_CFG0_EM_PROF.at port);
      let em := if d.fld burPg (R.BUR_PORT_CFG0_EM_EN.at port) = 1 then t.emFind prof (d.emKey prof key) else none;
      let i := 0; let e := em0; decide (tc = some i) && decide (em = some e) &&
      decide (bitAt (t.ent tcamWin i 40) 30 = true)) &&
     (let d : Dev := burTab (tab0 0x80000000 [em0]) rdy; let key : Nat := 0; let port : Nat := 0; let t := d.bur.cur;
      let tc := tcamFind t key; let prof := d.fld burPg (R.BUR_PORT_CFG0_EM_PROF.at port);
      let em := if d.fld burPg (R.BUR_PORT_CFG0_EM_EN.at port) = 1 then t.emFind prof (d.emKey prof key) else none;
      let i := 0; let e := em0; decide (tc = some i) && decide (em = some e) &&
      decide (bitAt (t.ent tcamWin i 40) 30 = false)) &&
     (let d : Dev := burTab (tab0 0x80000000 []) rdy; let key : Nat := 0; let port : Nat := 0; let t := d.bur.cur;
      let tc := tcamFind t key; let prof := d.fld burPg (R.BUR_PORT_CFG0_EM_PROF.at port);
      let em := if d.fld burPg (R.BUR_PORT_CFG0_EM_EN.at port) = 1 then t.emFind prof (d.emKey prof key) else none;
      let i := 0; decide (tc = some i) && decide (em = none)) &&
     (let d : Dev := burTab { em := [em0] } rdy; let key : Nat := 0; let port : Nat := 0; let t := d.bur.cur;
      let tc := tcamFind t key; let prof := d.fld burPg (R.BUR_PORT_CFG0_EM_PROF.at port);
      let em := if d.fld burPg (R.BUR_PORT_CFG0_EM_EN.at port) = 1 then t.emFind prof (d.emKey prof key) else none;
      let e := em0; decide (tc = none) && decide (em = some e))) = true := by
  decide +kernel

theorem wit_LanesSearchAlike :
    (let i : Nat := 0; decide (i < 8192)) = true := by
  decide +kernel

theorem wit_ResultsKeepStoredOrder :
    (let s : State := stateOf (rdy |> (·.withBur (fun x => { x with flights := [fl0 2, fl1] })));
     let a : List Flight := [fl0 2]; let b : List Flight := []; let fl : Flight := fl1; let x : Flight := fl0 2;
     let d := s.begun; decide (d.mainRun = true) && decide (d.bur.flights = a ++ fl :: b) && decide (fl.phase = 2) &&
     decide ((∀ y ∈ a, y.frm.id ≠ fl.frm.id)) && decide (x ∈ a) && decide (x.frm.inPort = fl.frm.inPort)) = true := by
  decide +kernel

theorem wit_DeepStoreKeepsBytes :
    ((let r : DsReq := { who := 0, at0 := 0, write := true, addr := some 5, data := [1] }; let a : Nat := 5;
      decide (r.write = true) && decide (r.addr = some a)) &&
     (let d : Dev := rdy; let r : DsReq := { who := 0, at0 := 0, write := true, addr := some 5, data := [1] };
      let a : Nat := 5; decide (r.write = true) && decide (r.addr = some a) && decide (Memory.wf d.dst.mem = true))) = true := by
  decide +kernel

theorem wit_CounterModeUndoesItself :
    (let key : List Nat := key0; decide (key.length = 16 ∨ key.length = 32)) = true := by
  decide +kernel

theorem wit_HeaderCommandsComplete :
    ((let s : State := stateOf rdy; let who : Owner := .host; let p : Page := evoPg 0; let d := s.begun;
      decide (d.admits who p 0x08 = true) && decide (d.flag p R.PAGE_LOCK_HELD = false)) &&
     (let s : State := stateOf (rdy |> lockedBy .host (evoPg 0)); let who : Owner := .host; let p : Page := evoPg 0;
      let d := s.begun; decide (d.admits who p 0x08 = true) && decide (d.holds p who = true) &&
      decide ((p.kind == .bur && d.bur.ownerGone) = false)) &&
     (let s : State := stateOf (rdy |> lockedBy .host (evoPg 0)); let who : Owner := .host; let p : Page := evoPg 0;
      let d := s.begun; decide (d.admits who p 0x08 = true) && decide (d.holds p who = true) &&
      decide (d.flag p R.PAGE_STAT_TORN = false) && decide ((p.kind == .pmk && d.pmkBad) = false)) &&
     (let s : State := stateOf (rdy |> lockedBy .host (evoPg 0)); let who : Owner := .host; let p : Page := evoPg 0;
      let d := s.begun; decide (d.admits who p 0x0C = true) && decide (d.holds p who = true)) &&
     (let s : State := stateOf rdy; let who : Owner := .host; let p : Page := shlPg; let checker : Byte := 0;
      let d := s.begun; decide (d.admits who p 0x28 = true) && decide ((checkers p).contains checker.toNat = true) &&
      decide (d.armed.any (fun x => x.1 == p.idx) = false)) &&
     (let s : State := stateOf (rdy |> (fun d => { d with armed := [(shlPg.idx, 0)] })); let who : Owner := .host;
      let p : Page := shlPg; let checker : Byte := 0; let d := s.begun; decide (d.admits who p 0x28 = true) &&
      decide ((checkers p).contains checker.toNat = true) && decide (d.armed.any (fun x => x.1 == p.idx) = true))) = true := by
  decide +kernel

theorem wit_EnableCommandsComplete :
    ((let s : State := stateOf rdy; let who : Owner := .host; let p : Page := trcPg; let d := s.begun;
      decide (d.admits who p 0x08 = true) && decide (d.mayWrite p who = true) && decide (d.state p = 0) &&
      decide (d.enBarred p = false) && decide (d.claimClash p = none)) &&
     (let s : State := stateOf (rdy |> pageOn (evoPg 0)); let who : Owner := .host; let p : Page := evoPg 0;
      let d := s.begun; decide (d.admits who p 0x08 = true) && decide (d.mayWrite p who = true) &&
      decide (d.state p = 2) && decide (staysOn p = false)) &&
     (let s : State := stateOf (rdy |> pageOn dmaPg); let who : Owner := .host; let q : Fin 64 := 0; let d := s.begun;
      decide (d.admits who dmaPg (0x1000 + 0x40 * q.val) = true) && decide (d.isOn dmaPg = true) &&
      decide (d.qState q = 0)) &&
     (let s : State := stateOf (rdy |> pageOn dmaPg |> setTo dmaPg (R.DMA_Q_STAT_STATE.at 64) 2);
      let who : Owner := .host; let q : Fin 64 := 0; let d := s.begun;
      decide (d.admits who dmaPg (0x2000 + 0x40 * q.val) = true) && decide (d.qState (64 + q) = 2)) &&
     (let s : State := stateOf (rdy |> inState (evoPg 0) 1); let p : Page := evoPg 0; let d := s.begun;
      decide (d.state p = 1) && decide ((p.kind = .can → p.inst < 2 → d.flag p R.EDG_CAN_STAT_PINS = true))) &&
     (let s : State := stateOf (rdy |> setTo dmaPg (R.DMA_Q_STAT_STATE.at 0) 1); let q : Fin 64 := 0;
      let d := s.begun; decide (d.qState q = 1)) &&
     (let s : State := stateOf (rdy |> inState (evoPg 0) 3); let p : Page := evoPg 0; let d := s.begun;
      decide (d.state p = 3) && decide (d.stopReady p = true)) &&
     (let s : State := stateOf (rdy |> setTo dmaPg (R.DMA_Q_STAT_STATE.at 0) 3); let q : Fin 64 := 0;
      let d := s.begun; decide (d.qState q = 3) && decide ((d.dmaQ q).reads = []) && decide ((d.dmaQ q).wbs = []) &&
      decide (d.qf q R.DMA_Q_STAT_PENDING ≠ 1)) &&
     (let s : State := stateOf (rdy |> inState (prtPg 0) 3); let port : Fin 40 := 0; let d := s.begun;
      decide (d.mainRun = true) && decide (d.state (prtPg port) = 3) && decide (d.stopReady (prtPg port) = true)) &&
     (let s : State := stateOf (rdy |> pageOn (canPg 0) |> setTo (canPg 0) R.EDG_CAN_STAT_SYNC 1);
      let bus : Fin 2 := 0; let d := s.begun; decide (d.mainRun = true) && decide (d.round ≠ 2) &&
      decide (d.round ≠ 3) && decide (d.npt.relay = none) &&
      decide ((d.state (canPg bus) = 1 ∨ d.state (canPg bus) = 2)) &&
      decide (d.flag (canPg bus) R.EDG_CAN_STAT_PINS = false) &&
      decide (d.flag (canPg bus) R.EDG_CAN_STAT_SYNC = true))) = true := by
  decide +kernel

theorem wit_AccessCommandsComplete :
    ((let s : State := stateOf rdy; let who : Owner := .host; let d := s.begun;
      decide (d.admits who sysPg 0x120 = true)) &&
     (let s : State := stateOf (rdy |> (fun d => { d with featBusy := some 1 })); let set : Nat := 1;
      let d := s.begun; decide (d.mainRun = true) && decide (d.featBusy = some set) &&
      decide (Dev.featureFault { d with featBusy := none } set = none)) &&
     (let s : State := stateOf (rdy |> (fun d => { d with featBusy := some (2 ^ 200) })); let set : Nat := 2 ^ 200;
      let reason : Nat := ((Dev.featureFault rdy (2 ^ 200)).getD (0, 0)).1;
      let bit : Nat := ((Dev.featureFault rdy (2 ^ 200)).getD (0, 0)).2; let d := s.begun; decide (d.mainRun = true)
        &&
      decide (d.featBusy = some set) && decide (Dev.featureFault { d with featBusy := none } set = some (reason,
        bit))) &&
     (let s : State := stateOf rdy; let who : Owner := .host; let p : Page := canPg 0; let d := s.begun;
      decide (d.admits who p 0x40 = true) && decide (p.kind.counterAreas ≠ [])) &&
     (let s : State := stateOf (rdy |> (fun d => { d with snapBusy := [(canPg 0).idx] })); let p : Page := canPg 0;
      let d := s.begun; decide (d.mainRun = true) && decide (d.snapBusy.contains p.idx = true)) &&
     (let s : State := stateOf rdy; let who : Owner := .host; let p : Page := evoPg 0; let off : Nat := 0x90;
      let r : RegDef := ⟨0x90, 0x4, 1, false, 0xFFFFFFFF, 0, 0, 0, 0, 0, 0⟩; let v : BitVec 64 := 0; let d := s.begun;
      decide (d.admits who p off = true) && decide (p.kind ∈ [.boot, .evo, .cap, .ccl, .dcap, .upd]) &&
      decide (recordWords p off = []) && decide (0x50 ≤ off) && decide (regOf p off = some r) &&
      decide (r.writable ≠ 0) && decide (d.badWrite who p off (v.toNat % 2 ^ 32) = false) &&
      decide ((r.staged ≠ 0 → d.holds p who = true))) &&
     (let s : State := stateOf { rdy with awake := [] }; let who : Owner := .host; let p : Page := prtPg 0;
      let off : Nat := 0x80; let write : Bool := false; let size : Nat := 4; let d := s.begun;
      decide (d.start.released = true) && decide (p.exists = true) && decide (d.reaches who p = true) &&
      decide (sizeOk (.reg p off) write size off = true) && decide (d.domainReady p.domain = false) &&
      decide (d.mainRun = true) && decide ((write = false → ∀ y ∈ d.stalls, y.acc.write = true → y.acc.who ≠ who))) &&
     (let s : State := stateOf (rdy |> (fun d => { d with stalls := [x1] })); let who : Owner := .host;
      let x : Stall := x1; let d := s.begun; decide (d.start.released = true) &&
      decide (d.stalls.reverse.find? (fun y => y.acc.write && y.acc.who == who) = some x)) &&
     (let s : State := stateOf (rdy |> (fun d => { d with stalls := [x0] })); let n : Fin 17 := 0; let d := s.begun;
      decide (d.waits n = true) && decide (d.mainRun = true) && decide (n.val ≠ 5)) &&
     (let s : State := stateOf (rdy |> (fun d => { d with stalls := [x0], now := 1000000000 })); let x : Stall := x0;
      let d := s.begun; decide (d.oldStall = some x) && decide (8 * msTicks ≤ d.now - x.since)) &&
     (let s : State := stateOf rdy; let who : Owner := .host; let w : Fin 64 := 0; let d := s.begun;
      decide (d.start.released = true) && decide (w.val < 19) && decide (d.reaches who (popPage w) = true) &&
      decide (d.domainReady (popPage w).domain = true))) = true := by
  decide +kernel

theorem wit_StartCommandsComplete :
    ((let s : State := stateOf rdy; let e : StepEnd := {}; let d := s.begun; decide (d.start.released = true) &&
      decide (d.start.step ∈ [1, 2, 7, 0xE]) && decide (d.start.variant < stepVariants d.start.step) &&
      decide (e.good = true)) &&
     (let s : State := stateOf (rdy |> (fun d => { d with start := { d.start with step := 0xB } }));
      let e : StepEnd := {}; let d := s.begun; decide (d.start.released = true) && decide (d.start.step = 0xB) &&
      decide (d.start.variant < 4) && decide (e.good = true)) &&
     (let s : State := stateOf (rdy |> (fun d => { d with start := { d.start with step := 9 } }));
      let e : StepEnd := {}; let d := s.begun; decide (d.start.released = true) && decide (d.start.step = 9) &&
      decide (d.start.variant < 3) && decide (e.good = true)) &&
     (let s : State := stateOf rdy; let d := s.begun; decide (d.start.released = true) && decide (d.start.step ≠ 0)) &&
     (let s : State := stateOf rdy; let d := s.begun; decide (d.start.released = true) && decide (d.start.step ≠ 0) &&
      decide (d.flag bootPg R.BOOT_STATUS_HOLD = false)) &&
     (let s : State := stateOf rdy; let who : Owner := .host; let d := s.begun;
      decide (d.admits who bootPg 0x8C = true)) &&
     (let s : State := stateOf rdy; let n : Fin 16 := 1; let d := s.begun; decide (d.start.released = true) &&
      decide (n.val ≠ 0)) &&
     (let s : State := stateOf rdy; let d := s.begun; decide (d.start.released = true) &&
      decide (d.start.chained = false) && decide (d.start.step ≠ 0xA)) &&
     (let s : State := stateOf (rdy |> (fun d => { d with start := { d.start with chained := true } }) |> setTo sysPg
       R.SYS_CHAIN_ADDR 1);
      let d := s.begun; decide (d.start.released = true) && decide (d.start.chained = true) && decide (d.addr ≠ 0)) &&
     (let s : State := stateOf (rdy |> (fun d => { d with start := { d.start with step := 0xA } })); let d := s.begun;
      decide (d.start.released = true) && decide (d.start.step = 0xA) && decide (d.start.chained = false))) = true := by
  decide +kernel

theorem wit_ResetCommandsComplete :
    ((let s : State := stateOf rdy; let d := s.begun; decide (d.start.released = true)) &&
     (let s : State := stateOf rdy; let ns : Nat := 1000; let d := s.begun; decide (1000 ≤ ns) &&
      decide (d.start.released = true)) &&
     (let s : State := stateOf rdy; let who : Owner := .host; let d := s.begun;
      decide (d.admits who sysPg 0x204 = true)) &&
     (let s : State := stateOf rdy; let d := s.begun; decide (d.spiDeep = false) &&
      decide (d.start.released = true) && decide (d.start.spiUp = true)) &&
     (let s : State := stateOf rdy; let d := s.begun; decide (d.mainRun = true)) &&
     (let s : State := stateOf rdy; let d := s.begun; decide (d.mainRun = true) &&
      decide (d.start.barsDecoded = true))) = true := by
  decide +kernel

theorem wit_PowerCommandsComplete :
    ((let s : State := stateOf (rdy |> inPower 1); let who : Owner := .host; let d := s.begun;
      let cur := d.fld pwrPg R.PWR_STATE_STAT_CUR; decide (d.admits who pwrPg 0x80 = true) &&
      decide (d.flag pwrPg R.PWR_STATE_STAT_BUSY = false) && decide (d.reqHeld = false) && decide (cur ≠ 0)) &&
     (let s : State := stateOf rdy; let who : Owner := .host; let d := s.begun;
      let cur := d.fld pwrPg R.PWR_STATE_STAT_CUR; decide (d.admits who pwrPg 0x80 = true) &&
      decide (d.flag pwrPg R.PWR_STATE_STAT_BUSY = false) && decide (d.reqHeld = false) && decide (cur ≠ 1)) &&
     (let s : State := stateOf rdy; let who : Owner := .host; let d := s.begun;
      let cur := d.fld pwrPg R.PWR_STATE_STAT_CUR; decide (d.admits who pwrPg 0x80 = true) &&
      decide (d.flag pwrPg R.PWR_STATE_STAT_BUSY = false) && decide (d.reqHeld = false) && decide (cur ≠ 4) &&
      decide (d.round = 0)) &&
     (let s : State := stateOf (rdy |> setTo pwrPg R.PWR_STATE_STAT_BUSY 1 |> setTo pwrPg R.PWR_STATE_STAT_NEXT 1);
      let who : Owner := .host; let d := s.begun; decide (d.admits who pwrPg 0x80 = true) &&
      decide (d.flag pwrPg R.PWR_STATE_STAT_BUSY = true ∨ d.reqHeld = true) &&
      decide (d.fld pwrPg R.PWR_STATE_STAT_NEXT ≠ 0)) &&
     (let s : State := stateOf (rdy |> setTo pwrPg R.PWR_STATE_STAT_BUSY 1); let d := s.begun;
      decide (d.flag pwrPg R.PWR_STATE_STAT_BUSY = true) && decide (d.fld pwrPg R.PWR_STATE_STAT_NEXT = 0)) &&
     (let s : State := stateOf rdy; let who : Owner := .host; let op : Fin 4 := 1; let d := s.begun;
      decide (d.admits who pwrPg 0x88 = true) && decide (d.flag pwrPg R.PWR_OP_STAT_BUSY = false) &&
      decide (d.reqHeld = false) && decide (d.fld pwrPg R.PWR_OP_STAT_CUR ≠ op.val)) &&
     (let s : State := stateOf (rdy |> setTo pwrPg R.PWR_OP_STAT_BUSY 1); let d := s.begun;
      decide (d.flag pwrPg R.PWR_OP_STAT_BUSY = true)) &&
     (let s : State := stateOf rdy; let d := s.begun; decide (d.mainRun = true) &&
      decide (d.fld pwrPg R.PWR_OP_TRIM_TRIM ≠ 3) && decide (d.flag pwrPg R.PWR_OP_STAT_BUSY = false)) &&
     (let s : State := stateOf (rdy |> setTo pwrPg R.PWR_VCTRL_PMBUS_EN 1); let d := s.begun;
      decide (d.mainRun = true) && decide (d.flag pwrPg R.PWR_VCTRL_PMBUS_EN = true)) &&
     (let s : State := stateOf (rdy |> (fun d => { d with supply := { wait := some 0 } })); let g : Fin 4 := 0;
      let d := s.begun; decide (d.supply.wait = some g.val) && decide (g.val ≠ 2)) &&
     (let s : State := stateOf (rdy |> (fun d => { d with supply := { wait := some 0 } })); let g : Fin 4 := 0;
      let d := s.begun; decide (d.supply.wait = some g.val)) &&
     (let s : State := stateOf rdy; let d := s.begun; decide (d.mainRun = true))) = true := by
  decide +kernel

theorem wit_SleepCommandsComplete :
    ((let s : State := stateOf rdy; let source : Fin 40 := 0; let d := s.begun;
      decide ((8 ≤ source.val → source.val < 32 → 2 ≤ d.fld (canPg (source.val - 8)) R.EDG_CAN_TRX_STATE))) &&
     (let s : State := stateOf (rdy |> setTo nptPg R.NPT_ALARM_NS 1 |> (fun d => { d with now := 4000 }));
      let d := s.begun; decide (d.fld nptPg R.NPT_ALARM_NS ≠ 0) && decide (d.fld nptPg R.NPT_ALARM_NS ≤ d.carriedNs)) &&
     (let s : State := stateOf rdy; let who : Owner := .host; let d := s.begun;
      decide (d.admits who nptPg 0x100 = true) && decide (d.adjState ≠ 4) && decide (d.round = 0)) &&
     (let s : State := stateOf rdy; let who : Owner := .host; let d := s.begun;
      decide (d.admits who nptPg 0x100 = true)) &&
     (let s : State := stateOf (rdy |> inRound 1); let d := s.begun; decide (d.round = 1)) &&
     (let s : State := stateOf (rdy |> setTo nptPg R.NPT_SLEEP_BUSES_CAN 1); let bus : Fin 24 := 0;
      let id : BitVec 11 := BitVec.ofNat 11 (rdy.fld nptPg R.NPT_SLEEP_ID_READY_BASE); let d := s.begun;
      decide (bitAt (d.fld nptPg R.NPT_SLEEP_BUSES_CAN) bus = true) &&
      decide (id.toNat - id.toNat % 32 = d.fld nptPg R.NPT_SLEEP_ID_READY_BASE)) &&
     (let s : State := stateOf rdy; let who : Owner := .host; let d := s.begun;
      decide (d.admits who nptPg 0x110 = true)) &&
     (let s : State := stateOf (rdy |> inRound 2); let d := s.begun; decide (d.round = 2)) &&
     (let s : State := stateOf (rdy |> inRound 4); let d := s.begun; decide (d.round = 4) &&
      decide (d.supply.wait = none)) &&
     (let s : State := stateOf rdy; let who : Owner := .host; let d := s.begun;
      decide (d.admits who nptPg 0x158 = true)) &&
     (let s : State := stateOf (rdy |> setTo nptPg R.NPT_AWAKE_LEFT_S 0); let d := s.begun;
      decide (d.awakeCounts = true) && decide (d.awakeLeft = 0)) &&
     (let s : State := stateOf (rdy |> setTo nptPg (R.NPT_SRC_STAT_QUAR.at 0) 1); let src : Fin 48 := 0;
      let d := s.begun; decide (src.val ≠ 0x2B) && decide (d.flag nptPg (R.NPT_SRC_STAT_QUAR.at src) = true))) = true := by
  decide +kernel

theorem wit_HallCommandsComplete :
    ((let s : State := stateOf (rdy |> pageOn (prtPg 0) |> setTo (prtPg 0) R.PRT_LINK_STAT_PCS_LOCK 1);
      let p : Fin 40 := 0; let d := s.begun; decide (d.mainRun = true) && decide (d.looped p = false) &&
      decide (d.macReceives p = true)) &&
     (let s : State := stateOf (rdy |> pageOn (prtPg 24) |> setTo (prtPg 24) R.PRT_LINK_STAT_PCS_LOCK 1 |> (·.setPort
       24 { rx := some rx0 }));
      let p : Fin 40 := 24; let e : RxEnd := { data := List.replicate 60 0 }; let r : RxCur := rx0; let d := s.begun;
      let d' := d.setPort p { d.port p with rx := none }; decide (d.mainRun = true) && decide (d.looped p = false) &&
      decide ((d.port p).rx = some r) && decide (d'.macReceives p = true) && decide (r.stopped = false) &&
      decide (e.assemblyErr = false) && decide (rxFails e r.maxLen = none) && decide (24 ≤ p.val) &&
      decide (((d'.rxSymbols p e).flag pmkPg R.PMK_GPTP_CFG_EN && isGptp e.data) = false)) &&
     (let s : State := stateOf (rdy |> pageOn (prtPg 0) |> setTo (prtPg 0) R.PRT_CTRL_LOOP 1); let p : Fin 40 := 0;
      let d := s.begun; decide (d.mainRun = true) && decide (d.looped p = true)) &&
     (let s : State := stateOf (rdy |> pageOn shlPg |> pageOn burPg |> (·.withHall (fun x =>
       { x with stored := [(1, frm0)] })));
      let frame : Nat := 1; let f : Machine.Frm := frm0; let d := s.begun;
      let d' := d.withHall (fun h => { h with stored := h.stored.erase frame });
      let d' := (d'.prtCnt f.inPort 0).prtCnt f.inPort 1 f.len; decide (d.mainRun = true) &&
      decide (d.hall.stored.get? frame = some f) && decide ((f.inPort < 40 → d.isoPort f.inPort = false)) &&
      decide (d.stalled (portIsland f.inPort) 0 = false) && decide (d.stalled 0 1 = false) &&
      decide (d'.isOn shlPg = true) && decide (d'.isOn burPg = true)) &&
     (let s : State := stateOf (rdy |> (·.withBur (fun x => { x with flights := [fl0 2] }))); let frame : Nat := 1;
      let fl : Flight := fl0 2; let d := s.begun; decide (d.mainRun = true) &&
      decide (d.bur.flights.find? (fun x => x.frm.id == frame && x.phase == 2) = some fl) &&
      decide (d.resultWaits fl = false) && decide (d.stalled 1 0 = false) && decide (fl.frm.res.destType = 0)) &&
     (let s : State := stateOf (rdy |> pageOn frkPg |> (·.withBur (fun x => { x with flights := [fl2] })));
      let frame : Nat := 1; let fl : Flight := fl2; let m : Metered := { dei := false };
      let dm : Dev := (((pageOn frkPg rdy).withBur (fun x => { x with flights := [fl2] })).withBur (fun b =>
        { b with flights := b.flights.filter (fun x => x.frm.id != 1) })).meter frm2 |>.2;
      let d := s.begun; decide (d.mainRun = true) &&
      decide (d.bur.flights.find? (fun x => x.frm.id == frame && x.phase == 2) = some fl) &&
      decide (d.resultWaits fl = false) && decide (d.stalled 1 0 = false) && decide (fl.frm.res.destType ≠ 0) &&
      decide ((d.withBur (fun b => { b with flights := b.flights.filter (fun x => x.frm.id != frame) })).meter fl.frm
        = (some m, dm))) &&
     (let s : State := stateOf (rdy |> (·.withHall (fun x => { x with writing := [(0, 1)] })));
      let w : Nat × Nat := (0, 1); let ws : List (Nat × Nat) := []; let d := s.begun; decide (d.mainRun = true) &&
      decide (d.hall.writing = w :: ws) && decide (d.stalled 0 0x0E = false)) &&
     (let s : State := stateOf (rdy |> (·.withHall (fun x => { x with readBudget := 1 })) |> hasQ 0
       { spill := [copy0] } |> setTo shlPg R.SHL_Q_SPILL_ON_ON 10);
      let n : Fin 43 := 0; let q : Fin 8 := 0; let c : Copy := copy0; let rest : List Copy := []; let d := s.begun;
      let i := qIdx n q; decide (d.mainRun = true) && decide ((d.queue i).spill = c :: rest) &&
      decide ((d.queue i).refill = none) && decide (d.hall.writing.contains (i, c.frm.id) = false) &&
      decide (d.stalled 0x0E 0 = false) && decide (d.depth i < (d.fld shlPg (R.SHL_Q_SPILL_ON_ON.at i) + 1) / 2) &&
      decide (c.cells ≤ d.sharedFree) && decide (0 < d.hall.readBudget)) &&
     (let s : State := stateOf (rdy |> hasQ 0 { refill := some copy0 }); let n : Fin 43 := 0; let q : Fin 8 := 0;
      let c : Copy := copy0; let d := s.begun; let i := qIdx n q;
      let d' := (d.dsTake 1 c.frm.id).2.setQueue i { d.queue i with refill := none }; decide (d.mainRun = true) &&
      decide ((d.queue i).refill = some c) && decide ((d.dsTake 1 c.frm.id).1 = false) && decide (d'.aged i c =
        false)) &&
     (let s : State := stateOf (rdy |> pageOn shlPg |> setTo shlPg R.SHL_SPILL_CFG_EN 1); let d := s.begun;
      decide (d.mainRun = true) && decide (d.spillOn = true)) &&
     (let s : State := stateOf rdy; let d := s.begun; decide (d.mainRun = true)) &&
     (let s : State := stateOf (rdy |> pageOn shlPg |> hasQ (8 * 41) { chip := [copy0] }); let n : Fin 43 := 41;
      let d := s.begun; let d' := (d.pick n (d.queued n + 1)).2; let qc := ((0, copy0) : Nat × Copy);
      let d2 := d'.released n qc.1 qc.2 qc.2.read.2; decide (d.mainRun = true) &&
      decide ((n.val < 40 → d.state (prtPg n) ≠ 0)) && decide (d.mayRelease n = true) &&
      decide ((d.pick n (d.queued n + 1)).1 = some qc) && decide (d2.shlInject qc.2 = none)) &&
     (let s : State := stateOf (rdy |> pageOn (prtPg 0) |> setTo (prtPg 0) R.PRT_LINK_STAT_UP 1 |> setTo (prtPg 0)
       R.PRT_LINK_STAT_PCS_LOCK 1 |> (·.withHall (fun x => { x with tx := [(0, [{ tx0 with sof := some sof0 }])] })));
      let p : Fin 40 := 0; let t : TxCopy := { tx0 with sof := some sof0 }; let ts : List TxCopy := [];
      let x : TxSof := sof0; let d := s.begun; decide (d.mainRun = true) && decide (d.txOf p = t :: ts) &&
      decide (d.portUp p = true) && decide (d.forcedIdle p = false) && decide (t.cut = false) &&
      decide (d.looped p = false) && decide ((d.txSof p t).sof = some x)) &&
     (let s : State := stateOf (rdy |> pageOn shlPg); let kind : Fin 5 := 0; let d := s.begun;
      decide (d.mainRun = true) && decide (d.isArmed shlPg kind = false) && decide (d.isArmed shlPg 5 = false)) &&
     (let s : State := stateOf rdy; let who : Owner := .host; let d := s.begun;
      decide (d.admits who shlPg 0x98 = true))) = true := by
  decide +kernel

theorem wit_PortCommandsComplete :
    ((let s : State := stateOf (rdy |> inState (prtPg 0) 3); let p : Fin 40 := 0; let d := s.begun; let g := prtPg p;
      decide (d.mainRun = true) && decide (d.state g = 3)) &&
     (let s : State := stateOf (rdy |> pageOn (prtPg 0)); let p : Fin 40 := 0; let d := s.begun; let g := prtPg p;
      decide (d.mainRun = true) && decide (d.state g ≠ 0)) &&
     (let s : State := stateOf (rdy |> pageOn (prtPg 0)); let p : Fin 40 := 0; let d := s.begun; let g := prtPg p;
      decide (d.mainRun = true) && decide (d.state g ≠ 0) && decide (d.hasFaultSignal p = true)) &&
     (let s : State := stateOf (rdy |> pageOn (prtPg 0) |> setTo (prtPg 0) R.PRT_MODE_AN 1); let p : Fin 40 := 0;
      let d := s.begun; let g := prtPg p; decide (d.mainRun = true) && decide (d.state g ≠ 0) &&
      decide (d.flag g R.PRT_MODE_AN = true)) &&
     (let s : State := stateOf (rdy |> pageOn (prtPg 0) |> setTo (prtPg 0) R.PRT_LINK_STAT_PCS_LOCK 1 |> setTo (prtPg
       0) R.PRT_LINK_STAT_PHY_UP 1);
      let p : Fin 40 := 0; let d := s.begun; let g := prtPg p; decide (d.mainRun = true) && decide (d.isOn g = true)
        &&
      decide (d.linkGood p = true) && decide (d.flag g R.PRT_LINK_STAT_UP = false)) &&
     (let s : State := stateOf (rdy |> setTo (prtPg 0) R.PRT_MDIO_CFG_POLL_MS 1); let m : Fin 4 := 0;
      let d := s.begun; decide (d.mainRun = true) && decide (d.fld (prtPg 0) (R.PRT_MDIO_CFG_POLL_MS.at m) ≠ 0)) &&
     (let s : State := stateOf (rdy |> pageOn (prtPg 0)); let who : Owner := .host; let m : Fin 4 := 0;
      let d := s.begun; decide (d.admits who (prtPg 0) (0x804 + 0x40 * m) = true) &&
      decide (d.flag (prtPg 0) (R.PRT_MDIO_STAT_BUSY.at m) = false)) &&
     (let s : State := stateOf (rdy |> (fun d => { d with mdio := [(0, mdio0)] })); let m : Fin 4 := 0;
      let run : MdioRun := mdio0; let d := s.begun; decide (d.mainRun = true) && decide (d.mdio.get? m = some run)) &&
     (let s : State := stateOf (rdy |> setTo (prtPg 0) R.PRT_LINK_STAT_UP 1 |> setTo (prtPg 0) R.PRT_MM_STAT_VERIFY
       1);
      let v : Fin 24 := 0; let d := s.begun; decide (d.mainRun = true) &&
      decide (d.flag (prtPg v) R.PRT_LINK_STAT_UP = true) && decide (d.fld (prtPg v) R.PRT_MM_STAT_VERIFY = 1) &&
      decide ((d.port v).verifyTries < 3)) &&
     (let s : State := stateOf (rdy |> setTo (prtPg 0) R.PRT_MM_STAT_VERIFY 2); let v : Fin 24 := 0; let d := s.begun;
      decide (d.mainRun = true) && decide (d.fld (prtPg v) R.PRT_MM_STAT_VERIFY = 2)) &&
     (let s : State := stateOf (rdy |> pageOn (prtPg 32) |> setTo (prtPg 32) R.PRT_PLCA_EN 1 |> setTo (prtPg 32)
       R.PRT_PLCA_NODE_ID 0);
      let k : Fin 8 := 0; let d := s.begun; decide (d.mainRun = true) && decide (d.plcaOn (32 + k.val) = true) &&
      decide (d.fld (prtPg (32 + k.val)) R.PRT_PLCA_NODE_ID = 0)) &&
     (let s : State := stateOf (rdy |> pageOn (prtPg 32) |> setTo (prtPg 32) R.PRT_PLCA_EN 1 |> setTo (prtPg 32)
       R.PRT_PLCA_NODE_ID 1);
      let k : Fin 8 := 0; let d := s.begun; decide (d.mainRun = true) && decide (d.plcaOn (32 + k.val) = true) &&
      decide (d.fld (prtPg (32 + k.val)) R.PRT_PLCA_NODE_ID ≠ 0)) &&
     (let s : State := stateOf (rdy |> pageOn (prtPg 32) |> setTo (prtPg 32) R.PRT_PLCA_EN 1 |> setTo (prtPg 32)
       R.PRT_PLCA_NODE_ID 1 |> setTo (prtPg 32) R.PRT_PLCA_STAT_ACTIVE 1);
      let k : Fin 8 := 0; let d := s.begun; decide (d.mainRun = true) && decide (d.plcaOn (32 + k.val) = true) &&
      decide (d.fld (prtPg (32 + k.val)) R.PRT_PLCA_NODE_ID ≠ 0) &&
      decide (d.flag (prtPg (32 + k.val)) R.PRT_PLCA_STAT_ACTIVE = true)) &&
     (let s : State := stateOf (rdy |> pageOn (prtPg 0)); let who : Owner := .host; let p : Fin 40 := 0;
      let d := s.begun; let g := prtPg p; decide (d.admits who g 0xE0 = true) && decide (d.isOn g = true) &&
      decide (d.tc10 p = 0)) &&
     (let s : State := stateOf (rdy |> pageOn (prtPg 0) |> (·.setTc10 0 2)); let who : Owner := .host;
      let p : Fin 40 := 0; let d := s.begun; let g := prtPg p; decide (d.admits who g 0xE0 = true) &&
      decide (d.isOn g = true) && decide (d.tc10 p = 2)) &&
     (let s : State := stateOf (rdy |> (·.setPort 0 { tc10Drain := true })); let p : Fin 40 := 0; let d := s.begun;
      decide (d.mainRun = true) && decide ((d.port p).tc10Drain = true)) &&
     (let s : State := stateOf (rdy |> (·.setTc10 0 1)); let p : Fin 40 := 0; let d := s.begun;
      decide (d.mainRun = true) && decide (d.tc10 p = 1)) &&
     (let s : State := stateOf (rdy |> (·.setTc10 0 3)); let p : Fin 40 := 0; let d := s.begun;
      decide (d.mainRun = true) && decide (d.tc10 p = 3))) = true := by
  decide +kernel

theorem wit_ClassifierCommandsComplete :
    ((let s : State := stateOf (rdy |> lockedBy .host burPg); let who : Owner := .host; let d := s.begun;
      decide (d.admits who burPg 0x120 = true) && decide (d.holds burPg who = true) &&
      decide (d.flag burPg R.BUR_EM_STAT_BUSY = false) && decide (d.flag burPg R.BUR_EDITION_STAT_BUSY = false)) &&
     (let s : State := stateOf (rdy |> (·.withBur (fun x => { x with emRun := some (1, 1, []) })));
      let run : Nat × Nat × List Nat := (1, 1, []); let d := s.begun; decide (d.mainRun = true) &&
      decide (d.bur.emRun = some run)) &&
     (let s : State := stateOf (rdy |> lockedBy .host burPg); let d := s.begun; decide (d.mainRun = true)) &&
     (let s : State := stateOf (rdy |> lockedBy .host burPg |> (·.withBur (fun x => { x with shadow := some {} })) |>
       setTo burPg R.BUR_EDITION_SHADOW_OWNER 1);
      let who : Owner := .host; let off : BitVec 32 := 0; let t : Tables := {};
      let table : TabWin := ⟨0x01, 0x0, 8192, 0x100, 192⟩; let d := s.begun; decide (d.ownsShadow who.code = true) &&
      decide (d.frozen = false) && decide (emWin.has off.toNat = false) && decide (inLoad off.toNat = false) &&
      decide (findTab off.toNat = some table) && decide (d.bur.shadow = some t)) &&
     (let s : State := stateOf (rdy |> (·.withBur (fun x => { x with flights := [fl0 0] }))); let frame : Nat := 1;
      let fl : Flight := fl0 0; let d := s.begun; decide (d.mainRun = true) &&
      decide (d.bur.flights.find? (fun x => x.frm.id == frame && x.phase == 0) = some fl) &&
      decide (d.bur.paused = false) && decide (d.slotWaits fl = false)) &&
     (let s : State := stateOf (rdy |> (·.withBur (fun x => { x with flights := [fl0 1] }))); let frame : Nat := 1;
      let fl : Flight := fl0 1; let d := s.begun; decide (d.mainRun = true) &&
      decide (d.bur.flights.find? (fun x => x.frm.id == frame && x.phase == 1) = some fl) &&
      decide (d.ctBehind fl = false)) &&
     (let s : State := stateOf (rdy |> lockedBy .host burPg); let who : Owner := .host; let d := s.begun;
      decide (d.start.released = true) && decide (d.reaches who burPg = true) &&
      decide (d.domainReady burPg.domain = true) && decide (d.waits burPg.domain = false) &&
      decide (d.snapBusy.contains burPg.idx = false) && decide (d.orderBarred = false) &&
      decide (d.noCredit = false) && decide (d.waits creditTag = false) &&
      decide (d.flag burPg R.BUR_EDITION_STAT_BUSY = false)) &&
     (let s : State := stateOf (rdy |> (·.withBur (fun x => { x with edRun := some (2, 0, 4) })));
      let load : Nat × Nat × Nat := (2, 0, 4); let d := s.begun; decide (d.mainRun = true) &&
      decide (d.bur.edRun = some load) && decide (load.2.2 ≠ 0)) &&
     (let s : State := stateOf (rdy |> (·.withBur (fun x => { x with edRun := some (1, 0, 0) })));
      let load : Nat × Nat × Nat := (1, 0, 0); let d := s.begun; decide (d.mainRun = true) &&
      decide (d.bur.edRun = some load) && decide (load.1 = 1) && decide (load.2.2 = 0)) &&
     (let s : State := stateOf (rdy |> (·.withBur (fun x => { x with paused := true }))); let d := s.begun;
      decide (d.mainRun = true) && decide (d.bur.paused = true) && decide (d.bur.flipped = false) &&
      decide (d.pipesEmpty = true)) &&
     (let s : State := stateOf rdy; let who : Owner := .host; let k : Fin 3 := 0; let seconds : BitVec 16 := 1;
      let d := s.begun; decide (d.admits who fwlPg (0xB0 + 4 * k) = true) && decide (seconds.toNat ≠ 0)) &&
     (let s : State := stateOf (rdy |> lockedBy .host burPg); let who : Owner := .host; let k : Fin 3 := 0;
      let d := s.begun; decide (d.admits who fwlPg (0xB0 + 4 * k) = true)) &&
     (let s : State := stateOf (rdy |> lockedBy .host burPg); let d := s.begun; decide (d.mainRun = true))) = true := by
  decide +kernel

theorem wit_ScheduleCommandsComplete :
    ((let s : State := stateOf rdy; let d := s.begun; decide (d.mainRun = true)) &&
     (let s : State := stateOf (rdy |> pageOn frkPg |> (·.withFrk (fun x => { x with recovs := [(0,
       { recov := some 0 })] })));
      let k : Fin 1024 := 0; let d := s.begun; decide (d.mainRun = true) && decide (d.isOn frkPg = true) &&
      decide ((d.recovOf k).recov.isSome = true)) &&
     (let s : State := stateOf (rdy |> pageOn (schPg 0)); let n : Fin 43 := 0; let d := s.begun; let p := schPg n;
      decide (n.val < 40) && decide (d.mainRun = true) && decide (d.isOn p = true) &&
      decide (d.flag p R.SCH_GCL_STAT_EXTENDING = false) && decide (d.isArmed p 0 = false) &&
      decide ((d.sched n).shut = false)) &&
     (let s : State := stateOf (rdy |> lockedBy .host (schPg 0)); let who : Owner := .host; let n : Fin 43 := 0;
      let d := s.begun; let p := schPg n; decide (n.val < 40) && decide (d.admits who p 0xC0 = true) &&
      decide (d.holds p who = true) && decide (d.flag p R.SCH_GCL_STAT_COPYING = false) &&
      decide (d.flag p R.PAGE_STAT_TORN = false) && decide (d.changeBad n = false)) &&
     (let s : State := stateOf (rdy |> lockedBy .host (schPg 0)); let who : Owner := .host; let n : Fin 43 := 0;
      let d := s.begun; let p := schPg n; decide (d.admits who p 0xC0 = true) && decide (d.holds p who = true)) &&
     (let s : State := stateOf (rdy |> (·.setSched 0 { copying := some {} })); let m : Fin 40 := 0; let g : Gcl := {};
      let d := s.begun; decide (d.mainRun = true) && decide ((d.sched m).copying = some g) &&
      decide ((d.sched m).nearSwap = false ∨ (d.sched m).pend = none)) &&
     (let s : State := stateOf (rdy |> (·.setSched 0 { copying := some {}, nearSwap := true, pend := some {} }));
      let m : Fin 40 := 0; let g : Gcl := {}; let d := s.begun; decide (d.mainRun = true) &&
      decide ((d.sched m).copying = some g) && decide ((d.sched m).nearSwap = true) &&
      decide ((d.sched m).pend.isSome = true)) &&
     (let s : State := stateOf (rdy |> pageOn (schPg 0) |> (·.setSched 0 { pend := some {} })); let m : Fin 40 := 0;
      let g : Gcl := {}; let d := s.begun; let pm := schPg m; decide (d.mainRun = true) && decide (d.isOn pm = true)
        &&
      decide (d.flag pm R.SCH_GCL_STAT_EXTENDING = false) && decide ((d.sched m).pend = some g)) &&
     (let s : State := stateOf (rdy |> pageOn (schPg 0) |> (·.setSched 0 { pend := some {} }) |> setTo (schPg 0)
       R.SCH_GCL_STAT_EXTENDING 1);
      let m : Fin 40 := 0; let g : Gcl := {}; let d := s.begun; let pm := schPg m; decide (d.mainRun = true) &&
      decide (d.isOn pm = true) && decide (d.flag pm R.SCH_GCL_STAT_EXTENDING = true) &&
      decide ((d.sched m).pend = some g)) &&
     (let s : State := stateOf (rdy |> lockedBy .host (schPg 0)); let who : Owner := .host; let n : Fin 43 := 0;
      let value : BitVec 64 := 0x40; let d := s.begun; let p := schPg n; decide (n.val < 40) &&
      decide (d.admits who p 0xE0 8 = true) && decide (d.holds p who = true) &&
      decide (d.flag p R.SCH_GCL_STAT_COPYING = false) && decide (d.flag p R.SCH_GCL_INDEX_LIST = false) &&
      decide (gclBad value.toNat = false)) &&
     (let s : State := stateOf (rdy |> pageOn (schPg 0) |> setTo (schPg 0) R.SCH_HIST_CFG_EN 1); let n : Fin 43 := 0;
      let d := s.begun; decide (d.mainRun = true) && decide (d.histOn n = true)) &&
     (let s : State := stateOf rdy; let who : Owner := .host; let n : Fin 43 := 0; let d := s.begun; let p := schPg n;
      decide (d.admits who p 0xEC = true)) &&
     (let s : State := stateOf rdy; let who : Owner := .host; let d := s.begun;
      decide (d.admits who frkPg 0x84 = true) && decide (d.flag frkPg R.FRK_TBL_STAT_BUSY = false)) &&
     (let s : State := stateOf (rdy |> (·.withFrk (fun x => { x with run := some (1, 0, 0, []) })));
      let run : Nat × Nat × Nat × List Nat := (1, 0, 0, []); let d := s.begun; decide (d.mainRun = true) &&
      decide (d.frk.run = some run))) = true := by
  decide +kernel

theorem wit_PostmarkCommandsComplete :
    ((let s : State := stateOf (rdy |> pageOn pmkPg |> setTo pmkPg R.PMK_GPTP_CFG_EN 1 |> pairOn 1 1 |> setTo pmkPg
       (R.PMK_ANCHOR_CFG_TRACK.at 0) 1 |> setTo pmkPg (R.PMK_PORT_CFG_ROLE0.at 0) 2 |> (·.withPmk (fun x =>
       { x with rx := [gptp0] })));
      let m : GptpMsg := gptp0; let rest : List GptpMsg := []; let n : Fin 2 := 0; let d := s.begun;
      let d' := d.gptpStamps.withPmk (fun x => { x with rx := rest }); decide (d.mainRun = true) &&
      decide (d.gptpOn = true) && decide (d.gptpStamps.pmk.rx = m :: rest) &&
      decide (beNat (slice (gptpBody m.data) 0 1) % 16 = 0) &&
      decide ([0, 1].find? (fun n => d'.flag pmkPg (R.PMK_ANCHOR_CFG_TRACK.at n) && d'.domainOf n == beNat (slice
        (gptpBody m.data) 4 1)) = some n.val) &&
      decide (d'.role n m.port = 2)) &&
     (let s : State := stateOf (rdy |> pageOn pmkPg |> setTo pmkPg R.PMK_GPTP_CFG_EN 1 |> pairOn 1 1);
      let n : Fin 2 := 0; let d := s.begun; decide (d.mainRun = true) && decide (d.gptpOn = true) &&
      decide ((List.range 40).any (fun p => d.role n p == 2) = false)) &&
     (let s : State := stateOf (rdy |> pageOn pmkPg |> setTo pmkPg R.PMK_GPTP_CFG_EN 1 |> pairOn 1 1);
      let d := s.begun; decide (d.mainRun = true) && decide (d.gptpOn = true)) &&
     (let s : State := stateOf (rdy |> pageOn pmkPg |> setTo pmkPg (R.PMK_ANCHOR_STAT_STATE.at 0) 2);
      let n : Fin 2 := 0; let d := s.begun; let d' := d.bump pmkPg 0x2000 8; decide (d.mainRun = true) &&
      decide (d.isOn pmkPg = true) && decide (d.ancState n = 2) && decide (d'.flag pmkPg R.PMK_HS_CFG_EN = false)) &&
     (let s : State := stateOf (rdy |> pageOn pmkPg |> setTo pmkPg (R.PMK_ANCHOR_STAT_STATE.at 0) 2 |> setTo pmkPg
       (R.PMK_ANCHOR_STAT_STATE.at 1) 2 |> setTo pmkPg R.PMK_HS_CFG_EN 1);
      let n : Fin 2 := 0; let d := s.begun; let d' := d.bump pmkPg 0x2000 8; decide (d.mainRun = true) &&
      decide (d.isOn pmkPg = true) && decide (d.ancState n = 2) && decide (d'.flag pmkPg R.PMK_HS_CFG_EN = true) &&
      decide (d'.ancState (1 - n.val) = 2)) &&
     (let s : State := stateOf (rdy |> pageOn pmkPg); let who : Owner := .host; let n : Fin 2 := 0; let d := s.begun;
      let cmd := 0xA8 + 0x40 * n.val; decide (d.admits who pmkPg cmd = true) && decide (d.ancState n = 0)) &&
     (let s : State := stateOf (rdy |> pageOn pmkPg |> setTo pmkPg (R.PMK_ANCHOR_STAT_SPLIT.at 0) 1);
      let who : Owner := .host; let n : Fin 2 := 0; let d := s.begun; let cmd := 0xA8 + 0x40 * n.val;
      decide (d.admits who pmkPg cmd = true) && decide (d.flag pmkPg (R.PMK_ANCHOR_STAT_SPLIT.at n) = true)) &&
     (let s : State := stateOf (rdy |> pageOn pmkPg); let who : Owner := .host; let c : Fin 6 := 0;
      let value : Word := 0x80000001; let d := s.begun; let src := bits value.toNat 30 28;
      decide (d.admits who pmkPg (0x200 + 0x20 * c) = true) && decide (src ≤ 1) &&
      decide (bits value.toNat 27 24 ≤ 10) && decide (0 < bits value.toNat 23 0) &&
      decide (bits value.toNat 23 0 ≤ 1000000) && decide (bitAt value.toNat 31 = true) &&
      decide (d.wcOn (c + 2) = false)) &&
     (let s : State := stateOf (rdy |> pageOn pmkPg |> setTo pmkPg (R.PMK_WC_CFG_EN.at 0) 1);
      let who : Owner := .host; let c : Fin 6 := 0; let d := s.begun;
      decide (d.admits who pmkPg (0x204 + 0x20 * c) = true) && decide (d.claimHeld (0x32 + c) = false) &&
      decide (d.wcOn (c + 2) = true)) &&
     (let s : State := stateOf (rdy |> pageOn pmkPg); let d := s.begun; decide (d.mainRun = true) &&
      decide (d.isOn pmkPg = true)) &&
     (let s : State := stateOf (rdy |> pageOn pmkPg); let who : Owner := .host; let d := s.begun;
      decide (d.admits who pmkPg 0x60 = true) && decide (d.isOn pmkPg = true)) &&
     (let s : State := stateOf (rdy |> (·.withPmk (fun x => { x with latching := true }))); let d := s.begun;
      decide (d.mainRun = true) && decide (d.pmk.latching = true)) &&
     (let s : State := stateOf (rdy |> pageOn (evoPg 0) |> setTo (evoPg 0) R.PMK_EVO_STAT_ARMED 1);
      let o : Fin 16 := 0; let d := s.begun; let d' := d.setEvo o { d.evo o with emitted := (d.evo o).emitted + 1 };
      decide (d.mainRun = true) && decide (d.isOn (evoPg o) = true) &&
      decide (d.flag (evoPg o) R.PMK_EVO_STAT_ARMED = true) && decide (d.evoForced o = false) &&
      decide (d'.flag (evoPg o) R.PMK_EVO_FLAGS_MUTE = false)) &&
     (let s : State := stateOf (rdy |> (·.setEvo 0 { high := true })); let o : Fin 16 := 0; let d := s.begun;
      decide (d.mainRun = true) && decide ((d.evo o).high = true)) &&
     (let s : State := stateOf (rdy |> pageOn (capPg 0) |> setTo (capPg 0) R.PMK_CAP_CFG_EDGE 3); let k : Fin 8 := 0;
      let rising : Bool := false; let d := s.begun; decide (d.mainRun = true) && decide (d.isOn (capPg k) = true) &&
      decide (bitAt (d.fld (capPg k) R.PMK_CAP_CFG_EDGE) (if rising then 0 else 1) = true) &&
      decide (d.pmk.caps.get? k = none)) &&
     (let s : State := stateOf (rdy |> pageOn pmkPg); let d := s.begun; decide (d.isOn pmkPg = true))) = true := by
  decide +kernel

theorem wit_EdgeCommandsComplete :
    ((let s : State := stateOf (rdy |> pageOn (canPg 0) |> setTo (canPg 0) R.EDG_CAN_STAT_SYNC 1 |> setTo (canPg 0)
       R.EDG_CAN_STAT_PINS 1 |> setTo (canPg 0) R.EDG_CAN_TRX_STATE 0);
      let bus : Fin 24 := 0; let msg : CanMsg := can0; let d := s.begun; decide (d.mainRun = true) &&
      decide (d.canListens bus = true) && decide (d.canKnows bus msg = true)) &&
     (let s : State := stateOf (rdy |> pageOn (canPg 0) |> setTo (canPg 0) R.EDG_CAN_STAT_SYNC 1 |> setTo (canPg 0)
       R.EDG_CAN_STAT_PINS 1 |> setTo (canPg 0) R.EDG_CAN_TRX_STATE 0);
      let bus : Fin 24 := 0; let d := s.begun; decide (d.mainRun = true) && decide (d.canListens bus = true)) &&
     (let s : State := stateOf (rdy |> pageOn (canPg 0) |> (·.setCan 0 { wire := some { msg := can0 } }));
      let bus : Fin 24 := 0; let t : TxMsg := { msg := can0 }; let d := s.begun; decide (d.mainRun = true) &&
      decide ((d.can bus).wire = some t)) &&
     (let s : State := stateOf (rdy |> pageOn (canPg 0) |> (·.setCan 0 { wire := some { msg := can0 } }));
      let bus : Fin 24 := 0; let t : TxMsg := { msg := can0 }; let d := s.begun; decide (d.mainRun = true) &&
      decide ((d.can bus).wire = some t) && decide (t.np = false)) &&
     (let s : State := stateOf (rdy |> pageOn (canPg 0)); let d := s.begun; decide (d.mainRun = true)) &&
     (let s : State := stateOf (rdy |> pageOn (canPg 0)); let who : Owner := .host; let bus : Fin 24 := 0;
      let d := s.begun; let p := canPg bus; decide (d.admits who p 0x9C = true)) &&
     (let s : State := stateOf (rdy |> pageOn (canPg 0) |> setTo (canPg 0) R.EDG_CAN_STAT_ERR_STATE 2 |> setTo (canPg
       0) R.EDG_CAN_STAT_RECOVERING 1);
      let bus : Fin 24 := 0; let d := s.begun; let p := canPg bus; decide (d.mainRun = true) &&
      decide (d.busOff bus = true) && decide (d.flag p R.EDG_CAN_STAT_RECOVERING = true) &&
      decide (d.keptAsleep (.can bus) = false)) &&
     (let s : State := stateOf (rdy |> pageOn adjPg |> setTo adjPg R.ADJ_SHARED_CAN_CAN 1); let bus : Fin 24 := 0;
      let d := s.begun; decide (d.mainRun = true) && decide (d.canMuted bus = true)) &&
     (let s : State := stateOf (rdy |> pageOn (canPg 0) |> setTo (canPg 0) R.EDG_CAN_STAT_SYNC 1 |> setTo (canPg 0)
       R.EDG_CAN_STAT_PINS 1 |> setTo (canPg 0) R.EDG_CAN_TRX_STATE 0);
      let bus : Fin 24 := 0; let d := s.begun; let p := canPg bus; decide (d.mainRun = true) &&
      decide (d.isOn p = true) && decide (d.fld p R.EDG_CAN_TRX_STATE ≤ 1) && decide (d.keptAsleep (.can bus) =
        false)) &&
     (let s : State := stateOf (rdy |> pageOn (canPg 0)); let who : Owner := .host; let bus : Fin 24 := 0;
      let value : Word := BitVec.ofNat 32 (rdy.word (canPg 0) 0x94); let d := s.begun; let p := canPg bus;
      decide (d.admits who p 0x94 = true) && decide (bits value.toNat 23 16 = bits (d.word p 0x94) 23 16) &&
      decide (bits value.toNat 7 0 = bits (d.word p 0x94) 7 0)) &&
     (let s : State := stateOf (rdy |> (·.setCan 0 { trxGoing := some 1 })); let bus : Fin 24 := 0;
      let state : Nat := 1; let d := s.begun; decide (d.mainRun = true) && decide ((d.can bus).trxGoing = some state)) &&
     (let s : State := stateOf (rdy |> pageOn (canPg 0)); let who : Owner := .host; let d := s.begun;
      decide (d.admits who (canPg 0) 0x830 = true) && decide (d.flag (canPg 0) R.EDG_RT_STAT_BUSY = false)) &&
     (let s : State := stateOf (rdy |> (fun d => { d with rtRun := some (false, 0, []) }));
      let run : Bool × Nat × List Nat := (false, 0, []); let d := s.begun; decide (d.mainRun = true) &&
      decide (d.rtRun = some run)) &&
     (let s : State := stateOf (rdy |> pageOn (linPg 0) |> setTo (linPg 0) R.EDG_LIN_CFG_MASTER 1);
      let who : Owner := .host; let lin : Fin 8 := 0; let len : BitVec 8 := 0; let d := s.begun; let l := linPg lin;
      decide (d.admits who l 0x84 = true) && decide (d.flag l R.EDG_LIN_SCHED_PENDING = false) &&
      decide (len.toNat ≤ 64) && decide (d.flag l R.EDG_LIN_CFG_MASTER = true) &&
      decide ((List.range len.toNat).any ((d.setFld l R.EDG_LIN_SCHED_LEN len.toNat).slotBad lin) = false)) &&
     (let s : State := stateOf (rdy |> pageOn (linPg 0) |> setTo (linPg 0) R.EDG_LIN_CFG_MASTER 1 |> (·.setLin 0
       { running := true }));
      let lin : Fin 8 := 0; let d := s.begun; let l := linPg lin; decide (d.mainRun = true) &&
      decide (d.isOn l = true) && decide (d.flag l R.EDG_LIN_CFG_MASTER = true) &&
      decide ((d.lin lin).running = true) && decide ((d.lin lin).first = false) &&
      decide ((d.linMissed lin).keptAsleep (.lin lin) = false)) &&
     (let s : State := stateOf (rdy |> pageOn (linPg 0) |> setTo (linPg 0) R.EDG_LIN_CFG_MASTER 0);
      let lin : Fin 8 := 0; let d := s.begun; let l := linPg lin; decide (d.mainRun = true) &&
      decide (d.isOn l = true) && decide (d.flag l R.EDG_LIN_CFG_MASTER = false) &&
      decide (d.keptAsleep (.lin lin) = false)) &&
     (let s : State := stateOf (rdy |> pageOn (linPg 0) |> (·.setLin 0 { await := some 0x3C })); let lin : Fin 8 := 0;
      let d := s.begun; let l := linPg lin; let d' := d.setLin lin { d.lin lin with await := none };
      decide (d.mainRun = true) && decide ((d.lin lin).await = some 0x3C) && decide (d'.isOn l = true))) = true := by
  decide +kernel

theorem wit_NightPostCommandsComplete :
    ((let s : State := stateOf (rdy |> pageOn nptPg |> (·.withNpt (fun x => { x with serving := true })));
      let ext : Bool := rdy.flag nptPg R.NPT_RX_ID_IDE;
      let id : BitVec 29 := BitVec.ofNat 29 (rdy.fld nptPg R.NPT_RX_ID_ID); let d := s.begun;
      decide (d.isOn nptPg = true) && decide (d.npt.serving = true) && decide (ext = d.flag nptPg R.NPT_RX_ID_IDE) &&
      decide (id.toNat = d.fld nptPg R.NPT_RX_ID_ID) &&
      decide (d.npt.frames.length < (if d.npt.relay.isSome then 4 else 5))) &&
     (let s : State := stateOf (rdy |> pageOn nptPg |> (·.withNpt (fun x =>
       { x with serving := true, frames := List.replicate 5 np0 })));
      let ext : Bool := rdy.flag nptPg R.NPT_RX_ID_IDE;
      let id : BitVec 29 := BitVec.ofNat 29 (rdy.fld nptPg R.NPT_RX_ID_ID); let d := s.begun;
      decide (d.isOn nptPg = true) && decide (d.npt.serving = true) && decide (ext = d.flag nptPg R.NPT_RX_ID_IDE) &&
      decide (id.toNat = d.fld nptPg R.NPT_RX_ID_ID) &&
      decide ((if d.npt.relay.isSome then 4 else 5) ≤ d.npt.frames.length)) &&
     (let s : State := stateOf (rdy |> (·.withNpt (fun x => { x with relay := some rel0 }))); let r : Relay := rel0;
      let d := s.begun; decide (d.npt.relay = some r) && decide (r.onOffer = false) && decide (r.left ≠ 0)) &&
     (let s : State := stateOf (rdy |> (·.withNpt (fun x => { x with relay := some { rel0 with onOffer := true } })));
      let r : Relay := { rel0 with onOffer := true }; let d := s.begun; decide (d.npt.relay = some r) &&
      decide (r.onOffer = true) && decide (r.viaCan1 = false) && decide (d.flag (canPg 1) R.EDG_CAN_STAT_PINS =
        false)) &&
     (let s : State := stateOf rdy; let d := s.begun; decide (d.npt.frames = []) && decide (d.npt.relay = none))) = true := by
  decide +kernel

theorem wit_FaultCommandsComplete :
    ((let s : State := stateOf (rdy |> setTo fltPg (R.FLT_CLS_STAT_STATE.at 0) 2); let cls : Fin 12 := 0;
      let d := s.begun; let state := d.fld fltPg (R.FLT_CLS_STAT_STATE.at cls); decide (d.mainRun = true) &&
      decide (state = 2)) &&
     (let s : State := stateOf (rdy |> setTo fltPg (R.FLT_CLS_STAT_STATE.at 0) 1 |> setTo fltPg (R.FLT_CLS_CFG_AUTO.at
       0) 1);
      let cls : Fin 12 := 0; let d := s.begun; let state := d.fld fltPg (R.FLT_CLS_STAT_STATE.at cls);
      decide (d.mainRun = true) && decide (state = 1) && decide (d.flag fltPg (R.FLT_CLS_CFG_AUTO.at cls) = true)) &&
     (let s : State := stateOf (rdy |> setTo fltPg (R.FLT_CLS_STAT_STATE.at 0) 1 |> setTo fltPg (R.FLT_CLS_CFG_AUTO.at
       0) 0);
      let cls : Fin 12 := 0; let d := s.begun; let state := d.fld fltPg (R.FLT_CLS_STAT_STATE.at cls);
      decide (d.mainRun = true) && decide (state = 1) && decide (d.flag fltPg (R.FLT_CLS_CFG_AUTO.at cls) = false)) &&
     (let s : State := stateOf (rdy |> setTo fltPg (R.FLT_CLS_STAT_STATE.at 0) 1); let who : Owner := .host;
      let cls : Fin 12 := 0; let d := s.begun; let state := d.fld fltPg (R.FLT_CLS_STAT_STATE.at cls);
      decide (d.admits who fltPg (0x108 + 0x10 * cls) = true) && decide (state = 1)) &&
     (let s : State := stateOf rdy; let d := s.begun; decide (d.mainRun = true)) &&
     (let s : State := stateOf (rdy |> setTo fltPg R.FLT_PFAIL_ASSERTED 1); let d := s.begun;
      decide (d.mainRun = true) && decide (d.flag fltPg R.FLT_PFAIL_ASSERTED = true)) &&
     (let s : State := stateOf rdy; let celsius : Int := 135; let d := s.begun;
      let d' := d.setFld fltPg R.FLT_TEMP_NOW (wrapTo 8 celsius); decide (d.mainRun = true) &&
      decide ((d'.fld fltPg R.FLT_TEMP_HIGH : Int) < celsius ∨ 135 ≤ celsius)) &&
     (let s : State := stateOf rdy; let celsius : Int := 0; let d := s.begun;
      let d' := d.setFld fltPg R.FLT_TEMP_NOW (wrapTo 8 celsius); decide (d.mainRun = true) &&
      decide (celsius ≤ (d'.fld fltPg R.FLT_TEMP_HIGH : Int)) && decide (celsius < 135))) = true := by
  decide +kernel

theorem wit_WindowCommandsComplete :
    ((let s : State := stateOf rdy; let space : Fin 3 := 0; let addr : BitVec 32 := 0;
      let crc : Byte := BitVec.ofNat 8 (crc8 (spiRequest 1 0 0 [])); let d := s.begun;
      let good (op : Nat) (data : List Byte) : Bool := decide (crc8 (spiRequest op space addr data) = crc.toNat);
      decide (d.spiDeep = false) && decide (d.start.released = true) && decide (d.start.spiUp = true) &&
      decide (d.spiPending = false) && decide (good 1 [])) &&
     (let s : State := stateOf rdy; let space : Fin 3 := 0; let addr : BitVec 32 := 0;
      let crc : Byte := BitVec.ofNat 8 (crc8 (spiRequest 2 0 0 [])); let d := s.begun;
      let good (op : Nat) (data : List Byte) : Bool := decide (crc8 (spiRequest op space addr data) = crc.toNat);
      decide (d.spiDeep = false) && decide (d.start.released = true) && decide (d.start.spiUp = true) &&
      decide (d.spiPending = false) && decide (good 2 [])) &&
     (let s : State := stateOf rdy; let space : Fin 3 := 0; let addr : BitVec 32 := 0; let low : BitVec 32 := 0;
      let crc : Byte := BitVec.ofNat 8 (crc8 (spiRequest 3 0 0 (beBytes 4 0))); let d := s.begun;
      let good (op : Nat) (data : List Byte) : Bool := decide (crc8 (spiRequest op space addr data) = crc.toNat);
      decide (d.spiDeep = false) && decide (d.start.released = true) && decide (d.start.spiUp = true) &&
      decide (d.spiPending = false) && decide (good 3 (beBytes 4 low.toNat))) &&
     (let s : State := stateOf rdy; let space : Fin 3 := 0; let addr : BitVec 32 := 0;
      let crc : Byte := BitVec.ofNat 8 (crc8 (spiRequest 4 0 0 (beBytes 8 0))); let data : BitVec 64 := 0;
      let d := s.begun;
      let good (op : Nat) (data : List Byte) : Bool := decide (crc8 (spiRequest op space addr data) = crc.toNat);
      decide (d.spiDeep = false) && decide (d.start.released = true) && decide (d.start.spiUp = true) &&
      decide (d.spiPending = false) && decide (good 4 (beBytes 8 data.toNat))) &&
     (let s : State := stateOf rdy; let crc : Byte := BitVec.ofNat 8 (crc8 [0x60]); let d := s.begun;
      decide (d.spiDeep = false) && decide (d.start.released = true) && decide (d.start.spiUp = true) &&
      decide (d.spiPending = false) && decide (crc8 [0x60] = crc.toNat)) &&
     (let s : State := stateOf (rdy |> pageOn adjPg |> setTo adjPg R.ADJ_STAT_PEER_STATE 4); let who : Owner := .host;
      let wide : Bool := false; let off : BitVec 23 := 0; let data : BitVec 64 := 0; let d := s.begun;
      let size := if wide then 8 else 4;
      let reached (off : Nat) : Bool := decide (d.start.released = true ∧ d.reaches who hbrPg = true ∧ off % size = 0
        ∧ d.domainReady 1 = true ∧ d.feature 7 = true ∧ who ≠ .peer);
      let a (write : Bool) : Access :=
        { who := who, target := .addr .bar0 (0x1000000 + off.toNat), write := write, size := size, data := data.toNat };
      decide (reached off.toNat) && decide (d.peerJoined = true) && decide (d.heldWrite (a false) = none)) &&
     (let s : State := stateOf (rdy |> pageOn adjPg |> setTo adjPg R.ADJ_STAT_PEER_STATE 4 |> (fun d =>
       { d with stalls := [x1] }));
      let who : Owner := .host; let wide : Bool := false; let off : BitVec 23 := 0; let data : BitVec 64 := 0;
      let d := s.begun; let size := if wide then 8 else 4;
      let reached (off : Nat) : Bool := decide (d.start.released = true ∧ d.reaches who hbrPg = true ∧ off % size = 0
        ∧ d.domainReady 1 = true ∧ d.feature 7 = true ∧ who ≠ .peer);
      let a (write : Bool) : Access :=
        { who := who, target := .addr .bar0 (0x1000000 + off.toNat), write := write, size := size, data := data.toNat };
      let tag := 1; decide (reached off.toNat) && decide (d.peerJoined = true) &&
      decide (d.heldWrite (a false) = some tag)) &&
     (let s : State := stateOf (rdy |> pageOn adjPg |> setTo adjPg R.ADJ_STAT_PEER_STATE 4); let who : Owner := .host;
      let wide : Bool := false; let off : BitVec 23 := 0; let d := s.begun; let size := if wide then 8 else 4;
      let reached (off : Nat) : Bool := decide (d.start.released = true ∧ d.reaches who hbrPg = true ∧ off % size = 0
        ∧ d.domainReady 1 = true ∧ d.feature 7 = true ∧ who ≠ .peer);
      decide (reached off.toNat) && decide (d.peerJoined = true) &&
      decide (d.flag hbrPg R.HBR_RWIN_PEER_FENCED = false)) &&
     (let s : State := stateOf (rdy |> setTo hbrPg R.HBR_RWIN_FLASH_BASE 4); let who : Owner := .host;
      let wide : Bool := false; let off : BitVec 23 := 0; let d := s.begun; let size := if wide then 8 else 4;
      let reached (off : Nat) : Bool := decide (d.start.released = true ∧ d.reaches who hbrPg = true ∧ off % size = 0
        ∧ d.domainReady 1 = true ∧ d.feature 7 = true ∧ who ≠ .peer);
      let at_ := d.fld hbrPg R.HBR_RWIN_FLASH_BASE * 2 ^ 23 + off.toNat;
      let a (write : Bool) (v : Nat) : Access :=
        { who := who, target := .addr .bar0 (0x1800000 + off.toNat), write := write, size := size, data := v };
      decide (reached off.toNat) && decide (d.sectorBusy at_ = false) && decide (d.heldWrite (a false 0) = none)) &&
     (let s : State := stateOf (rdy |> (·.withFlash (fun x => { x with queue := [uw0], mem := [(0x100000, 0x02)] }))
       |> knownSlot);
      let w : FlashWr := uw0; let ws : List FlashWr := []; let d := s.begun;
      let d' := d.withFlash (fun f => { f with queue := ws, headAt := d.now });
      let r := d'.flashRead w.addr w.data.length; decide (d.mainRun = true) && decide (d.flash.queue = w :: ws) &&
      decide (d.flashHeld d.flash.headAt = false) && decide (d'.sectorBusy w.addr = false) &&
      decide (r.1 &&& leNat w.data = leNat w.data)) &&
     (let s : State := stateOf (rdy |> (·.withFlash (fun x => { x with erasing := some 512 }))); let k : Nat := 512;
      let d := s.begun; decide (d.mainRun = true) && decide (d.flash.erasing = some k) &&
      decide (d.flashHeld d.flash.eraseFrom = false))) = true := by
  decide +kernel

theorem wit_HostCommandsComplete :
    ((let s : State := stateOf (rdy |> setTo dmaPg (R.DMA_Q_STAT_STATE.at 0) 2 |> setTo dmaPg (R.DMA_Q_CFG_SIZE.at 0)
       16);
      let q : Fin 128 := 0; let tail : BitVec 32 := 0; let who : Owner := .host; let d := s.begun;
      decide (d.admits who dmaPg (0x1014 + 0x40 * q.val) = true) &&
      decide (d.badWrite .host dmaPg (0x1014 + 0x40 * q.val) tail.toNat = false)) &&
     (let s : State := stateOf (rdy |> pageOn dmaPg |> (fun d => { d with pcie :=
       { linkUp := true, busMaster := true } }) |> setTo dmaPg (R.DMA_Q_STAT_STATE.at 64) 2 |> setTo dmaPg
       (R.DMA_Q_CFG_SIZE.at 64) 16 |> setTo dmaPg (R.DMA_Q_TAIL_TAIL.at 64) 1 |> setTo dmaPg (R.DMA_Q_CFG_UNITS.at 64)
       1);
      let next : List TxNext := [nxt0]; let n : TxNext := nxt0; let d := s.begun; let d' := (d.drr next (64 * 128)).2;
      decide (d.mainRun = true) && decide (d.state dmaPg = 2) && decide (d.dma.freeAt ≤ d.now) &&
      decide (d.stalled 13 0 = false) && decide ((d.drr next (64 * 128)).1 = some n) && decide (n.fail = none) &&
      decide (d'.hostBarred = none)) &&
     (let s : State := stateOf (rdy |> (·.setDmaQ 64 { reads := [⟨[], 1, false, true⟩] })); let t : Fin 64 := 0;
      let r : TxRead := ⟨[], 1, false, true⟩; let rest : List TxRead := []; let d := s.begun; let i := 64 + t.val;
      let x := d.dmaQ i; decide (d.mainRun = true) && decide (x.reads = r :: rest) && decide (r.bad = true)) &&
     (let s : State := stateOf (rdy |> (·.setDmaQ 64 { reads := [⟨[], 1, false, false⟩] })); let t : Fin 64 := 0;
      let r : TxRead := ⟨[], 1, false, false⟩; let rest : List TxRead := []; let d := s.begun; let i := 64 + t.val;
      let x := d.dmaQ i; decide (d.mainRun = true) && decide (x.reads = r :: rest) && decide (r.bad = false)) &&
     (let s : State := stateOf (rdy |> (·.setDmaQ 64 { wbs := [{ frm := some 1, descs := 1 }] }) |> (fun d =>
       { d with now := 1000000000 }));
      let t : Fin 64 := 0; let w : TxWb := { frm := some 1, descs := 1 }; let id : Nat := 1; let d := s.begun;
      let i := 64 + t.val; let x := d.dmaQ i; decide (d.mainRun = true) &&
      decide (x.wbs.find? (fun w => w.status.isNone && decide (w.since + 2 * msTicks ≤ d.now)) = some w) &&
      decide (w.frm = some id)) &&
     (let s : State := stateOf (rdy |> (·.setDmaQ 0 { unann := 1 }) |> setTo dmaPg (R.DMA_Q_IRQ_EN.at 0) 1 |> (fun d
       => { d with now := 1000000000 }));
      let q : Fin 128 := 0; let d := s.begun; decide (d.mainRun = true) && decide ((d.dmaQ q).unann ≠ 0) &&
      decide (d.qf q R.DMA_Q_IRQ_EN = 1) && decide ((d.dmaQ q).timerAt + d.qf q R.DMA_Q_IRQ_ITR_US * usTicks ≤ d.now)) &&
     (let s : State := stateOf rdy; let m : Fin 4 := 0; let who : Owner := .host; let d := s.begun;
      decide (d.admits who lbxPg (0x80 + 0x10 * m.val) = true) && decide (who.code = mbParty m) &&
      decide (d.mbState m ≠ 1) && decide (d.mbState m ≠ 2)) &&
     (let s : State := stateOf (rdy |> (·.setMb 0 1) |> pairOn 0 1 |> (·.setWord lbxPg (reqOff 0 0) 0x10000));
      let m : Fin 4 := 0; let d := s.begun; let w := d.word lbxPg (reqOff m 0);
      let k := d.carrier (codePair (w / 2 ^ 16));
      let body := (List.range (w % 64)).map (fun i => d.word lbxPg (reqOff m (2 + i))); decide (d.mainRun = true) &&
      decide (d.mbState m = 1) && decide (d.mbAhead m = false) && decide (d.flag bootPg R.BOOT_STATUS_HOLD = false) &&
      decide ((d.pairState 2 ≠ 5 ∨ d.pairState 3 ≠ 5)) && decide (d.pairState k = 1) &&
      decide (d.framing m (w / 2 ^ 16) (w % 64) body = 0))) = true := by
  decide +kernel

theorem wit_MailboxCommandsComplete :
    ((let s : State := stateOf (rdy |> mbSt 0x0001 []); let m : Fin 4 := 0; let r : MbRun := mb0 0x0001 [];
      let d := s.begun; let runs (code : Nat) : Bool := decide (d.mainRun = true ∧ d.mbRun m code = some r);
      decide (runs 1)) &&
     (let s : State := stateOf (rdy |> mbSt 0x0002 []); let m : Fin 4 := 0; let r : MbRun := mb0 0x0002 [];
      let d := s.begun; let runs (code : Nat) : Bool := decide (d.mainRun = true ∧ d.mbRun m code = some r);
      decide (runs 2)) &&
     (let s : State := stateOf (rdy |> mbSt 0x0710 [0x640] |> pageOn fwlPg |> setTo fwlPg R.FWL_CT_CFG_EN 1);
      let m : Fin 4 := 0; let r : MbRun := mb0 0x0710 [0x640]; let d := s.begun;
      let runs (code : Nat) : Bool := decide (d.mainRun = true ∧ d.mbRun m code = some r);
      let w (i : Nat) : Nat := r.body.getD i 0; decide (runs 0x0710) && decide (d.ctServes = true) &&
      decide (bits (w 0) 15 8 ∈ [1, 6, 17, 58]) && decide (bits (w 0) 7 6 ≠ 0) && decide (bits (w 0) 7 6 ≠ 3)) &&
     (let s : State := stateOf (rdy |> mbSt 0x0711 [0] |> pageOn fwlPg |> setTo fwlPg R.FWL_CT_CFG_EN 1);
      let m : Fin 4 := 0; let r : MbRun := mb0 0x0711 [0]; let d := s.begun;
      let runs (code : Nat) : Bool := decide (d.mainRun = true ∧ d.mbRun m code = some r); decide (runs 0x0711) &&
      decide (d.ctServes = true)) &&
     (let s : State := stateOf (rdy |> mbSt 0x0712 [0, 0, 0, 0] |> pageOn fwlPg |> setTo fwlPg R.FWL_CT_CFG_EN 1);
      let m : Fin 4 := 0; let r : MbRun := mb0 0x0712 [0, 0, 0, 0]; let d := s.begun;
      let runs (code : Nat) : Bool := decide (d.mainRun = true ∧ d.mbRun m code = some r); decide (runs 0x0712) &&
      decide (d.ctServes = true) && decide (iovaBad (r.wide 0) = false)) &&
     (let s : State := stateOf (rdy |> mbSt 0x0900 [0, 0, 80]); let m : Fin 4 := 0;
      let r : MbRun := mb0 0x0900 [0, 0, 80]; let image : List Byte := schedImg;
      let secs : List SchedSec := [⟨0x40, false, 0, 0, 8, 80⟩]; let d := s.begun;
      let runs (code : Nat) : Bool := decide (d.mainRun = true ∧ d.mbRun m code = some r);
      let w (i : Nat) : Nat := r.body.getD i 0; let pages := (secs.map SchedSec.page).eraseDups;
      decide (runs 0x0900) && decide (iovaBad (r.wide 0) = false) && decide (schedHeader image (w 2) = 0) &&
      decide ((schedSections image (imgW image 0x0C % 2 ^ 16) 0 64 []).toOption = some secs) &&
      decide ((enum secs).find? (fun e => (List.range e.2.count).any (fun k => e.2.bad image k)) = none) &&
      decide (pages.any (fun p => d.flag p R.PAGE_LOCK_HELD || (p.kind == .sch && d.flag p R.SCH_GCL_STAT_COPYING)) =
        false)) &&
     (let s : State := stateOf (rdy |> mbSt 0x0C01 [0, 0, 0, 0, 64] |> (·.setWord sysPg 0x1080 0x80000005) |> setTo
       dstPg (R.DST_CAPR_SIZE_MIB.at 0) 1);
      let m : Fin 4 := 0; let r : MbRun := mb0 0x0C01 [0, 0, 0, 0, 64]; let d := s.begun;
      let runs (code : Nat) : Bool := decide (d.mainRun = true ∧ d.mbRun m code = some r);
      let w (i : Nat) : Nat := r.body.getD i 0; decide (runs 0x0C01) &&
      decide (bitAt (d.claim (0x20 + w 0 % 16)) 31 = true) &&
      decide (d.fld sysPg (R.SYS_CLAIM_FEATURE.at (0x20 + w 0 % 16)) = 5) && decide (w 4 ≠ 0) &&
      decide (w 4 ≤ 2 ^ 24) && decide (w 1 * 64 + w 4 ≤ d.capUnits (w 0 % 16) * 64) &&
      decide (iovaBad (r.wide 2) = false)) &&
     (let s : State := stateOf (rdy |> mbSt 0x0D01 []); let m : Fin 4 := 0; let r : MbRun := mb0 0x0D01 [];
      let d := s.begun; let runs (code : Nat) : Bool := decide (d.mainRun = true ∧ d.mbRun m code = some r);
      decide (runs 0x0D01)) &&
     (let s : State := stateOf (rdy |> mbSt 0x0B01 [0]); let m : Fin 4 := 0; let r : MbRun := mb0 0x0B01 [0];
      let d := s.begun; let runs (code : Nat) : Bool := decide (d.mainRun = true ∧ d.mbRun m code = some r);
      decide (runs 0x0B01)) &&
     (let s : State := stateOf (rdy |> mbSt 0x0B02 [0]); let m : Fin 4 := 0; let r : MbRun := mb0 0x0B02 [0];
      let d := s.begun; let runs (code : Nat) : Bool := decide (d.mainRun = true ∧ d.mbRun m code = some r);
      let w (i : Nat) : Nat := r.body.getD i 0; decide (runs 0x0B02) && decide (w 0 % 32 ≤ 23)) &&
     (let s : State := stateOf (rdy |> pairOn 3 1 |> (fun d => { d with msc := { mka := [(0, { en := true })] } }));
      let port : Fin 24 := 0; let d := s.begun; decide (d.mainRun = true) && decide (d.idleReturn.duty 3 = true) &&
      decide ((d.idleReturn.mka port).en = true)) &&
     (let s : State := stateOf (rdy |> pairOn 0 1 |> (fun d => { d with flt := { staging := [[]] }, start :=
       { d.start with step := 0 } }));
      let d := s.begun; decide (d.mainRun = true) && decide (d.archiveRuns = true) && decide (d.flt.staging ≠ [])) &&
     (let s : State := stateOf (rdy |> mbSt 0x1002 []); let m : Fin 4 := 0; let r : MbRun := mb0 0x1002 [];
      let d := s.begun; let runs (code : Nat) : Bool := decide (d.mainRun = true ∧ d.mbRun m code = some r);
      decide (runs 0x1002)) &&
     (let s : State := stateOf (rdy |> mbSt 0x1001 [0, 0, 0, 0]); let m : Fin 4 := 0;
      let r : MbRun := mb0 0x1001 [0, 0, 0, 0]; let d := s.begun;
      let runs (code : Nat) : Bool := decide (d.mainRun = true ∧ d.mbRun m code = some r); decide (runs 0x1001) &&
      decide (iovaBad (r.wide 0) = false))) = true := by
  decide +kernel

theorem wit_UpdateCommandsComplete :
    ((let s : State := stateOf (rdy |> mbSt 0x0F01 [1, 8192]); let m : Fin 4 := 0;
      let r : MbRun := mb0 0x0F01 [1, 8192]; let d := s.begun;
      let runs (code : Nat) : Bool := decide (d.mainRun = true ∧ d.mbRun m code = some r);
      let w (i : Nat) : Nat := r.body.getD i 0; let n := w 0 % 2; decide (runs 0x0F01) &&
      decide (d.flag updPg (R.UPD_SLOT_STAT_ACTIVE.at n) = false) && decide (d.actPhase = 0) && decide (8192 ≤ w 1) &&
      decide (w 1 ≤ slotSize) && decide (w 1 % 4096 = 0)) &&
     (let s : State := stateOf (rdy |> setTo updPg (R.UPD_SLOT_STAT_STATE.at 1) 1); let slot : Fin 2 := 1;
      let d := s.begun; decide (d.mainRun = true) && decide (d.slotState slot = 1) &&
      decide (d.flashHeld d.upd.eraseFrom = false)) &&
     (let s : State := stateOf (rdy |> mbSt 0x0F02 [3, 0, 4, crc32c [1, 2, 3, 4], 0x04030201] |> setTo updPg
       (R.UPD_SLOT_STAT_STATE.at 1) 2 |> setTo updPg (R.UPD_SLOT_LEN_LENGTH.at 1) 8192);
      let m : Fin 4 := 0; let r : MbRun := mb0 0x0F02 [3, 0, 4, crc32c [1, 2, 3, 4], 0x04030201]; let d := s.begun;
      let runs (code : Nat) : Bool := decide (d.mainRun = true ∧ d.mbRun m code = some r);
      let w (i : Nat) : Nat := r.body.getD i 0; let n := w 0 % 2; let size := w 2 % 2 ^ 17;
      let data := ((r.body.drop 4).flatMap (leBytes 4)).take size; decide (runs 0x0F02) &&
      decide (bitAt (w 0) 1 = true) && decide (w 1 % 4 = 0) && decide (size % 4 = 0) && decide (4 ≤ size) &&
      decide (size ≤ 232) && decide (w 1 + size ≤ d.fld updPg (R.UPD_SLOT_LEN_LENGTH.at n)) &&
      decide (w 1 / 65536 = (w 1 + size - 1) / 65536) && decide (d.slotState n = 2) && decide (data.length = size) &&
      decide (crc32c data = w 3) && decide (d.overlaps (slotBase n + w 1) data = false)) &&
     (let s : State := stateOf (rdy |> mbSt 0x0F03 [1] |> setTo updPg (R.UPD_SLOT_STAT_STATE.at 1) 2);
      let m : Fin 4 := 0; let r : MbRun := mb0 0x0F03 [1]; let d := s.begun;
      let runs (code : Nat) : Bool := decide (d.mainRun = true ∧ d.mbRun m code = some r);
      let w (i : Nat) : Nat := r.body.getD i 0; let n := w 0 % 2; decide (runs 0x0F03) && decide (d.slotState n = 2)) &&
     (let s : State := stateOf (rdy |> mbSt 0x0F06 [1] |> setTo updPg (R.UPD_SLOT_STAT_STATE.at 1) 2);
      let m : Fin 4 := 0; let r : MbRun := mb0 0x0F06 [1]; let d := s.begun;
      let runs (code : Nat) : Bool := decide (d.mainRun = true ∧ d.mbRun m code = some r);
      let w (i : Nat) : Nat := r.body.getD i 0; let n := w 0 % 2; decide (runs 0x0F06) && decide (d.actPhase ≠ 4) &&
      decide (d.slotState n = 2)) &&
     (let s : State := stateOf (rdy |> mbSt 0x0F05 [0] |> setTo updPg R.UPD_ACT_DONE_MASK 15); let m : Fin 4 := 0;
      let r : MbRun := mb0 0x0F05 [0]; let d := s.begun;
      let runs (code : Nat) : Bool := decide (d.mainRun = true ∧ d.mbRun m code = some r);
      let w (i : Nat) : Nat := r.body.getD i 0; let n := w 0 % 2; decide (runs 0x0F05) &&
      decide (d.flag updPg (R.UPD_SLOT_STAT_ACTIVE.at n) = true) && decide (d.actPhase = 0) &&
      decide (d.fld updPg R.UPD_ACT_DONE_MASK = 0xF)) &&
     (let s : State := stateOf (rdy |> mbSt 0x0F04 [0x11, 0, 0] |> setTo updPg (R.UPD_SLOT_STAT_STATE.at 1) 3);
      let m : Fin 4 := 0; let r : MbRun := mb0 0x0F04 [0x11, 0, 0]; let d := s.begun;
      let runs (code : Nat) : Bool := decide (d.mainRun = true ∧ d.mbRun m code = some r);
      let w (i : Nat) : Nat := r.body.getD i 0; decide (runs 0x0F04) &&
      decide ((d.actStatus (bits (w 0) 4 4) (w 0 % 4) (r.wide 1)).1 = 0)) &&
     (let s : State := stateOf (rdy |> setTo updPg R.UPD_ACT_PHASE 3); let d := s.begun; decide (d.mainRun = true) &&
      decide (d.actPhase = 3)) &&
     (let s : State := stateOf (rdy |> setTo updPg R.UPD_ACT_PHASE 4); let d := s.begun; decide (d.mainRun = true) &&
      decide (d.actPhase = 4) && decide (d.feature 6 = true) && decide (d.wide updPg 0xA8 ≤ d.time)) &&
     (let s : State := stateOf (rdy |> mbSt 0x0F10 [0]); let m : Fin 4 := 0; let r : MbRun := mb0 0x0F10 [0];
      let pages : Nat := 0; let d := s.begun;
      let runs (code : Nat) : Bool := decide (d.mainRun = true ∧ d.mbRun m code = some r); decide (runs 0x0F10) &&
      decide (allPages.any (fun p => d.flag p R.PAGE_LOCK_HELD || d.flag p R.PAGE_STAT_TORN) = false) &&
      decide (d.cfgFits pages = true)) &&
     (let s : State := stateOf (rdy |> (fun d => { d with cfg := { compact := some 0 } })); let k : Nat := 0;
      let d := s.begun; decide (d.mainRun = true) && decide (d.cfg.compact = some k) &&
      decide (d.flashHeld d.cfg.since = false) && decide (d.cfg.second = false)) &&
     (let s : State := stateOf (rdy |> (fun d => { d with cfg := { compact := some 1, second := true } }));
      let k : Nat := 1; let d := s.begun; decide (d.mainRun = true) && decide (d.cfg.compact = some k) &&
      decide (d.flashHeld d.cfg.since = false) && decide (d.cfg.second = true)) &&
     (let s : State := stateOf (rdy |> (·.withBur (fun x => { x with committing := true }))); let d := s.begun;
      decide (d.mainRun = true) && decide (d.bur.committing = true) && decide (d.bur.paused = false) &&
      decide (d.flashHeld d.bur.saveAt = false)) &&
     (let s : State := stateOf (rdy |> (·.withBur (fun x => { x with paused := true, flipped := true })));
      let d := s.begun; decide (d.mainRun = true) && decide (d.bur.paused = true) && decide (d.bur.flipped = true))) = true := by
  decide +kernel

theorem wit_StoreCommandsComplete :
    ((let s : State := stateOf (rdy |> pageOn dstPg); let d := s.begun; decide (d.mainRun = true) &&
      decide (d.isOn dstPg = true)) &&
     (let s : State := stateOf (rdy |> pageOn dstPg |> (·.withDst (fun x => { x with reads := [req0] })));
      let requester : BitVec 8 := 0; let r : DsReq := req0; let d := s.begun; decide (d.mainRun = true) &&
      decide (d.isOn dstPg = true) && decide (d.dst.reads.find? (fun r => r.who == requester.toNat) = some r) &&
      decide (d.isArmed dstPg 0 = false)) &&
     (let s : State := stateOf (rdy |> pageOn dstPg |> (·.withDst (fun x => { x with waiting := [req0] })) |> (fun d
       => { d with now := 1000000 }));
      let r : DsReq := req0; let rs : List DsReq := []; let d := s.begun; decide (d.mainRun = true) &&
      decide (d.isOn dstPg = true) &&
      decide (d.dst.waiting.filter (fun r => !r.starved && decide (r.at0 + 4 * d.fld dstPg R.DST_ARB_CFG_STARVE_NS ≤
        d.now)) = r :: rs)) &&
     (let s : State := stateOf (rdy |> pageOn dstPg |> (·.withDst (fun x => { x with waiting := [req0] })) |> (fun d
       => { d with now := 100000000000 }));
      let r : DsReq := req0; let rs : List DsReq := []; let d := s.begun; decide (d.mainRun = true) &&
      decide (d.isOn dstPg = true) &&
      decide (d.dst.waiting.filter (fun r => !r.stalled && decide (r.at0 + usTicks * d.fld dstPg
        R.DST_ARB_CFG_STALL_US ≤ d.now)) = r :: rs)) &&
     (let s : State := stateOf (rdy |> pageOn dstPg |> setTo dstPg R.DST_SCRUB_EN 1); let d := s.begun;
      decide (d.mainRun = true) && decide (d.isOn dstPg = true) && decide (d.flag dstPg R.DST_SCRUB_EN = true) &&
      decide (((d.dst.waiting ++ d.dst.reads).filter (fun r => r.who == 5)).length < 2)) &&
     (let s : State := stateOf (rdy |> pageOn dstPg); let d := s.begun; decide (d.mainRun = true) &&
      decide (d.isOn dstPg = true) && decide (d.dst.granules < d.dstSize / 2 ^ 21)) &&
     (let s : State := stateOf (rdy |> pageOn dstPg); let who : Owner := .host; let d := s.begun;
      decide (d.admits who dstPg 0x84 = true)) &&
     (let s : State := stateOf (rdy |> pageOn dstPg); let who : Owner := .pair 0; let scope : Fin 4 := 0;
      let d := s.begun; decide (d.admits who mmuPg 0x180 = true) && decide (mmuWriter who = true) &&
      decide (scope.val ≠ 3)) &&
     (let s : State := stateOf (rdy |> (·.withMmu (fun x => { x with invs := [(0, 0, 0)] })));
      let inv : Nat × Nat × Nat := (0, 0, 0); let invs : List (Nat × Nat × Nat) := []; let d := s.begun;
      decide (d.mainRun = true) && decide (d.mmu.invs = inv :: invs)) &&
     (let s : State := stateOf (rdy |> pageOn dstPg); let who : Owner := .pair 0; let ch : Fin 32 := 0;
      let d := s.begun; let off := 0x1000 + 0x40 * ch.val; decide (d.admits who mmuPg off = true) &&
      decide (mmuWriter who = true) && decide (d.movFree ch = true)) &&
     (let s : State := stateOf (rdy |> (·.setMovState 0 3)); let who : Owner := .pair 0; let ch : Fin 32 := 0;
      let d := s.begun; let off := 0x1000 + 0x40 * ch.val; decide (d.admits who mmuPg off = true) &&
      decide (mmuWriter who = true) && decide (d.movState ch = 3)) &&
     (let s : State := stateOf (rdy |> pageOn dstPg); let who : Owner := .pair 0; let ch : Fin 32 := 0;
      let d := s.begun; let off := 0x1000 + 0x40 * ch.val; decide (d.admits who mmuPg off = true) &&
      decide (mmuWriter who = true)) &&
     (let s : State := stateOf (rdy |> (·.setMovState 0 1)); let c : Nat := 0; let d := s.begun;
      decide (d.mainRun = true) && decide (d.movNext = some c) &&
      decide (((List.range 32).filter (fun x => d.movState x == 2)).length < 4)) &&
     (let s : State := stateOf (rdy |> (·.setMovState 0 2)); let ch : Fin 32 := 0; let d := s.begun;
      let m := d.mov ch; decide (d.mainRun = true) && decide (d.movState ch = 2) &&
      decide ((d.dsTake (0x20 + ch) 0).1 = false) &&
      decide ((d.dsTake (0x20 + ch) 0).2.dsPending (0x20 + ch) 0 = false) &&
      decide (((m.src ++ m.dst).any (·.1)) = false))) = true := by
  decide +kernel

theorem wit_ClusterCommandsComplete :
    ((let s : State := stateOf (rdy |> pairOn 0 1); let n : Fin 4 := 0; let d := s.begun; decide (d.mainRun = true) &&
      decide (d.pairState n = 1)) &&
     (let s : State := stateOf (rdy |> pairOn 0 1); let n : Fin 4 := 0; let cause : Fin 5 := 1; let d := s.begun;
      decide (d.mainRun = true) && decide (d.pairState n = 1) && decide (cause.val ≠ 0) && decide (cause.val ≠ 4)) &&
     (let s : State := stateOf (rdy |> pairOn 0 3); let n : Fin 4 := 0; let d := s.begun; decide (d.mainRun = true) &&
      decide (d.pairState n = 3)) &&
     (let s : State := stateOf (rdy |> pairOn 0 5 |> pairOn 1 1); let n : Fin 4 := 0; let d := s.begun;
      decide (d.mainRun = true) && decide (d.pairState n = 5) && decide (d.pairRuns (partner n) = true) &&
      decide (d.flag cclPg (R.CCL_PAIR_STAT_COVER.at (partner n)) = false)) &&
     (let s : State := stateOf (rdy |> pairOn 0 1); let d := s.begun; decide (d.mainRun = true))) = true := by
  decide +kernel

theorem wit_SecurityCommandsComplete :
    ((let s : State := stateOf (rdy |> lockedBy .host keyPg); let who : Owner := .host; let d := s.begun;
      decide (d.admits who keyPg 0xC0 = true) && decide (d.holds keyPg who = true) &&
      decide (d.flag keyPg R.KEY_CMD_STAT_BUSY = false)) &&
     (let s : State := stateOf (rdy |> (·.withKeys (fun x => { x with run := some key1 }))); let run : KeyRun := key1;
      let d := s.begun; decide (d.keys.run = some run) && decide (run.result = 0) &&
      decide ((d.keyRecords run && d.flashHeld run.since) = false)) &&
     (let s : State := stateOf (rdy |> lockedBy .host keyPg); let source : Fin 4 := 0; let d := s.begun;
      let d' := (d.withKeys (fun k => { k with active := k.active ||| 2 ^ source.val }));
      decide (d.tamperOn source = true) && decide (d'.lockout = false)) &&
     (let s : State := stateOf (rdy |> setTo keyPg R.KEY_TAMPER_STAT_FUSE_PENDING 1); let d := s.begun;
      decide (d.flag keyPg R.KEY_TAMPER_STAT_FUSE_PENDING = true)) &&
     (let s : State := stateOf (rdy |> (·.withKeys (fun x => { x with revokeDue := true }))); let d := s.begun;
      decide (d.keys.revokeDue = true) && decide (d.flag keyPg R.KEY_TAMPER_STAT_FUSE_PENDING = false)) &&
     (let s : State := stateOf (rdy |> lockedBy .host keyPg); let who : Owner := .host; let c : Fin 4 := 0;
      let ctrl : BitVec 29 := 0x10100000 + 0; let d := s.begun; let v := 2 ^ 31 + ctrl.toNat;
      decide (d.admits who waxPg (0x800 + 0x80 * c.val) = true) && decide (ctxAccepts c who.code = true) &&
      decide (d.ctxWritable c who.code = true) && decide (1 ≤ bits v 23 20) && decide (bits v 23 20 ≤ 4) &&
      decide (((d.ctxState c = 4) == bitAt v 28) = false)) &&
     (let s : State := stateOf (rdy |> setTo waxPg (R.WAX_CTX_STAT_STATE.at 0) 1 |> setTo waxPg
       (R.WAX_CTX_STAT_OWNER.at 0) 1);
      let who : Owner := .host; let c : Fin 4 := 0; let d := s.begun;
      decide (d.admits who waxPg (0x800 + 0x80 * c.val) = true) && decide (ctxAccepts c who.code = true) &&
      decide (d.ctxOwner c = who.code) && decide (1 ≤ d.ctxState c) && decide (d.ctxState c ≤ 4)) &&
     (let s : State := stateOf (rdy |> setTo waxPg (R.WAX_CTX_STAT_STATE.at 0) 5 |> setTo waxPg
       (R.WAX_CTX_STAT_OWNER.at 0) 1);
      let who : Owner := .host; let c : Fin 4 := 0; let d := s.begun;
      decide (d.admits who waxPg (0x800 + 0x80 * c.val) = true) && decide (ctxAccepts c who.code = true) &&
      decide (d.ctxOwner c = who.code) && decide (d.ctxState c = 5)) &&
     (let s : State := stateOf (rdy |> (·.withWax (fun x => { x with cur := some 0 }))); let w : Nat := 0;
      let d := s.begun; decide (d.wax.cur = some w)) &&
     (let s : State := stateOf (rdy |> lockedBy .host keyPg); let who : Owner := .host; let k : Fin 6 := 0;
      let d := s.begun; let p : Page := ⟨.msc, k⟩; decide (d.admits who p 0x104 = true) &&
      decide (d.flag p R.MSC_SA_STAT_BUSY = false)) &&
     (let s : State := stateOf (rdy |> (fun d => { d with msc := { runs := [(0, ⟨false, 0, 0, []⟩)] } }));
      let k : Fin 6 := 0; let sa : SaRun := ⟨false, 0, 0, []⟩; let d := s.begun; decide (d.mainRun = true) &&
      decide (d.msc.runs.get? k.val = some sa))) = true := by
  decide +kernel

theorem wit_PairCommandsComplete :
    ((let s : State := stateOf (rdy |> pageOn adjPg); let d := s.begun; decide (d.mainRun = true) &&
      decide (d.adjOn = true)) &&
     (let s : State := stateOf (rdy |> adjIn 1 |> setTo adjPg R.ADJ_CFG_NUMBER 1); let words : List Word := hlo rdy;
      let d := s.begun; let ws := nats words; let w (k : Nat) : Nat := ws.getD k 0;
      let d' := (d.withAdj (fun a => { a with hello := some ws })).setFld adjPg R.ADJ_STAT_PEER_NUMBER (bits (w 1) 11
        8);
      decide (d.mainRun = true) && decide (d.adjOn = true) &&
      decide (helloKey ws = helloKey (d.helloWords d.adjState)) &&
      decide (bits (w 1) 11 8 ≠ d.fld adjPg R.ADJ_CFG_NUMBER) && decide (bits (w 1) 31 28 ≠ 0) &&
      decide (d'.adjState = 1)) &&
     (let s : State := stateOf (rdy |> pageOn adjPg |> (·.withAdj (fun x => { x with hello := some [] })));
      let d := s.begun; decide (d.mainRun = true) && decide (d.adjOn = true) && decide (d.adj.peerLost = false) &&
      decide (d.adj.hello.isNone = false)) &&
     (let s : State := stateOf (rdy |> pageOn adjPg); let d := s.begun; decide (d.mainRun = true) &&
      decide (d.adjOn = true) && decide (d.isArmed adjPg 0 = false)) &&
     (let s : State := stateOf (rdy |> adjIn 4); let seq : Word := 0; let d := s.begun;
      let acked (type : Nat) : Dev := d.adjSend 5 [type, seq.toNat]; decide (d.mainRun = true) &&
      decide (d.adjOn = true) && decide (d.isArmed adjPg 0 = false) && decide ((acked 4).adjState = 4)) &&
     (let s : State := stateOf (rdy |> pageOn adjPg |> (·.withAdj (fun x => { x with remote := [rem0] })));
      let words : List Word := [0, 0x80]; let seq : Word := 0; let req : Nat × Access := rem0; let d := s.begun;
      let ws := nats words; let w (k : Nat) : Nat := ws.getD k 0;
      let acked (type : Nat) : Dev := d.adjSend 5 [type, seq.toNat]; decide (d.mainRun = true) &&
      decide (d.adjOn = true) && decide (d.isArmed adjPg 0 = false) &&
      decide ((acked 7).adj.remote.find? (fun r => r.1 == w 0) = some req) && decide (w 1 = 0x80)) &&
     (let s : State := stateOf (rdy |> adjIn 4 |> (·.withAdj (fun x => { x with orders := [ord0 5] })) |> pageOn pmkPg
       |> (·.setAnchor 0 { sub := 10 ^ 19 }));
      let o : Order := ord0 5; let d := s.begun; decide (d.mainRun = true) && decide (d.orderDue = some o) &&
      decide (o.kind = 5)) &&
     (let s : State := stateOf (rdy |> adjIn 4 |> (·.withAdj (fun x => { x with orders := [ord0 4] })) |> pageOn pmkPg
       |> (·.setAnchor 0 { sub := 10 ^ 19 }));
      let o : Order := ord0 4; let d := s.begun; decide (d.mainRun = true) && decide (d.orderDue = some o) &&
      decide (o.kind = 4)) &&
     (let s : State := stateOf (rdy |> adjIn 4 |> (·.withAdj (fun x => { x with orders := [ord0 1] })) |> pageOn pmkPg
       |> (·.setAnchor 0 { sub := 10 ^ 19 }));
      let o : Order := ord0 1; let d := s.begun; decide (d.mainRun = true) && decide (d.orderDue = some o) &&
      decide (o.kind = 1)) &&
     (let s : State := stateOf (rdy |> pageOn adjPg); let d := s.begun; decide (d.mainRun = true)) &&
     (let s : State := stateOf (rdy |> (·.withAdj (fun x => { x with unacked := [una0] }))); let seq : Word := 0;
      let type : Byte := 4; let u : Unacked := una0; let d := s.begun; decide (d.mainRun = true) &&
      decide (d.adj.unacked.find? (fun u => u.type == type.toNat && u.seq == seq.toNat) = some u) &&
      decide (u.tries < 8)) &&
     (let s : State := stateOf (rdy |> adjIn 5 |> setTo adjPg R.ADJ_STAT_HOLD 1); let d := s.begun;
      decide (d.mainRun = true) && decide (d.issues = true)) &&
     (let s : State := stateOf (rdy |> adjIn 5 |> setTo adjPg R.ADJ_STAT_HOLD 1); let d := s.begun;
      decide (d.mainRun = true) && decide (d.issues = true) && decide (d.adj.awaited = [])) &&
     (let s : State := stateOf (rdy |> adjIn 5 |> setTo adjPg R.ADJ_STAT_HOLD 1 |> setTo adjPg R.ADJ_STAT_PEER_STATE
       4);
      let d := s.begun; decide (d.mainRun = true) && decide (d.issues = true) && decide (d.peerTakes = true)) &&
     (let s : State := stateOf (rdy |> adjIn 4); let d := s.begun; decide (d.mainRun = true) &&
      decide (d.adjOn = true) && decide (d.adjState = 4)) &&
     (let s : State := stateOf (rdy |> setTo adjPg R.ADJ_STAT_LANES 1); let lane : Fin 2 := 0; let d := s.begun;
      let lanes := d.fld adjPg R.ADJ_STAT_LANES; decide (d.mainRun = true) && decide (bitAt lanes lane = true)) &&
     (let s : State := stateOf (rdy |> pageOn adjPg); let d := s.begun; decide (d.mainRun = true) &&
      decide (d.adjOn = true)) &&
     (let s : State := stateOf (rdy |> adjIn 2); let d := s.begun; decide (d.mainRun = true) &&
      decide (d.adjOn = true) && decide (d.entersRound = true) && decide (d.hasClaim = false)) &&
     (let s : State := stateOf (rdy |> adjIn 1); let d := s.begun; decide (d.mainRun = true) &&
      decide (d.adjOn = true) && decide (d.adjState = 1)) &&
     (let s : State := stateOf (rdy |> adjIn 5 |> setTo adjPg R.ADJ_STAT_HOLD 1 |> setTo adjPg R.ADJ_STAT_PEER_STATE
       4);
      let who : Owner := .host; let d := s.begun; decide (d.admits who adjPg 0x9C = true) &&
      decide (d.yieldBarred = false)) &&
     (let s : State := stateOf (rdy |> adjIn 4); let who : Owner := .host; let d := s.begun;
      decide (d.admits who adjPg 0x9C = true) && decide (d.adjState = 4)) &&
     (let s : State := stateOf (rdy |> mbSt 0x0E01 [] |> (·.withAdj (fun x => { x with hello := some [] })));
      let m : Fin 4 := 0; let r : MbRun := mb0 0x0E01 []; let h : List Nat := []; let d := s.begun;
      decide (d.mainRun = true) && decide (d.mbRun m 0x0E01 = some r) && decide (d.adj.hello = some h))) = true := by
  decide +kernel

end Sys2Proof.Tests
end

section
/-! SUPPORT. The shape of every command, and the statement that none of them stops the device. -/

namespace Sys2Proof.Machine

/-- Every command is a function that runs on the device between the begin and the end that all commands share. -/
theorem exec_eq_run (c : Instr) (s : State) : ∃ f : Dev → Dev, exec c s = s.run f := by
  cases c <;> exact ⟨_, rfl⟩

/-- The end of a command leaves the queue of waiting commands. -/
@[simp] theorem State.pending_ends (s : State) (d : Dev) : (s.ends d).pending = s.pending := rfl

/-- Settles O3: a command is a run on the device, and a run answers a next state. -/
theorem noCommandStops : Obligations.NoCommandStops := by
  intro c s
  obtain ⟨f, hf⟩ := exec_eq_run c s
  exact ⟨f s.begun, hf.trans (State.run_eq s f), State.pending_ends s _⟩

end Sys2Proof.Machine
end

section
/-! SUPPORT. One access type per bit (R8): what a write leaves of a register, and the register maps. -/

namespace Sys2Proof.Machine

/-- The complement of a 32-bit number, bit by bit. -/
theorem testBit_compl {x i : Nat} (hx : x < 2 ^ 32) (hi : i < 32) : (0xFFFFFFFF - x).testBit i = !x.testBit i := by
  have h : 0xFFFFFFFF - x = 2 ^ 32 - (x + 1) := by omega
  rw [h, Nat.testBit_two_pow_sub_succ hx, decide_eq_true hi, Bool.true_and]

/-- The mask that cuts a number to 32 bits. -/
theorem testBit_mask {i : Nat} (hi : i < 32) : (0xFFFFFFFF : Nat).testBit i = true := by
  have h : 0xFFFFFFFF = 2 ^ 32 - 1 := by norm_num
  rw [h, Nat.testBit_two_pow_sub_one, decide_eq_true hi]

/-- Masks that share no bit are not both set in one place. -/
theorem testBit_disjoint {a b : Nat} (h : a &&& b = 0) (i : Nat) : (a.testBit i && b.testBit i) = false := by
  rw [← Nat.testBit_and, h, Nat.zero_testBit]

/-- What a write leaves in each bit: bits that take the value, bits a 1 sets, and the others without those a 1 clears. -/
theorem RegDef.testBit_write (r : RegDef) (old v i : Nat) (hi : i < 32) (hst : r.staged < 2 ^ 32) (hc : r.w1c &&& v < 2 ^ 32)
    (hwo : r.wo < 2 ^ 32) : (r.write old v).testBit i =
      (let takes := r.rw.testBit i && !r.staged.testBit i || r.wo.testBit i
       old.testBit i && !takes && !(r.w1c.testBit i && v.testBit i) || takes && v.testBit i
        || r.w1s.testBit i && v.testBit i) := by
  have htakes : (r.rw &&& (0xFFFFFFFF - r.staged)) ||| r.wo < 2 ^ 32 :=
    Nat.or_lt_two_pow (Nat.and_lt_two_pow _ (by omega)) hwo
  simp only [RegDef.write, Nat.testBit_and, Nat.testBit_or, testBit_mask hi, testBit_compl hst hi, testBit_compl hc hi,
    testBit_compl htakes hi, Bool.and_true]

/-- Settles O9: where no bit has two access types, the parts of a write do not meet in one bit. -/
theorem bitsFollowTheirType : Obligations.BitsFollowTheirType := by
  intro r old v i hi hst hc hrc hrs hcs hro hco hso hwo
  have hrc := testBit_disjoint hrc i
  have hrs := testBit_disjoint hrs i
  have hcs := testBit_disjoint hcs i
  have hro := testBit_disjoint hro i
  have hco := testBit_disjoint hco i
  have hso := testBit_disjoint hso i
  rw [RegDef.testBit_write r old v i hi hst hc hwo]
  split_ifs with hRw hW1c hW1s hWo
  · -- RW and not staged: no other type has the bit
    simp_all
  · -- W1C: the bit is kept where no 1 is written
    simp_all
  · -- W1S: the bit is kept, or set by a 1
    simp_all
  · -- WO: the bit takes the value
    simp_all
  · -- a bit of no type, or a staged one, keeps what it held
    rw [Bool.not_eq_true] at hRw hW1c hW1s hWo
    rw [hRw, hW1c, hW1s, hWo]
    simp

/-- The test of a register: no bit has two access types, the bits lie in one word, and only RW bits are staged. -/
def RegDef.oneType (r : RegDef) : Bool :=
  (r.rw &&& r.w1c) == 0 && (r.rw &&& r.w1s) == 0 && (r.rw &&& r.ro) == 0 && (r.rw &&& r.wo) == 0 && (r.w1c &&& r.w1s) == 0
    && (r.w1c &&& r.ro) == 0 && (r.w1c &&& r.wo) == 0 && (r.w1s &&& r.ro) == 0 && (r.w1s &&& r.wo) == 0
    && (r.ro &&& r.wo) == 0 && (r.rw ||| r.staged) == r.rw && decide (r.rw ||| r.w1c ||| r.w1s ||| r.ro ||| r.wo < 2 ^ 32)

/-- The common header passes the test. -/
theorem header_oneType : headerRegs.all RegDef.oneType = true := by decide

/-- So do the snapshot registers. -/
theorem snap_oneType : snapRegs.all RegDef.oneType = true := by decide

/-- So does the map of every page set. -/
theorem kind_oneType (k : PageKind) : k.regs.all RegDef.oneType = true := by
  cases k <;> decide

/-- The row an offset lies in is a row of the map. -/
theorem findReg_mem {off : Nat} {rs : List RegDef} {r : RegDef} (h : findReg off rs = some r) : r ∈ rs := by
  induction rs with
  | nil => simp [findReg] at h
  | cons x xs ih =>
    rw [findReg] at h
    split at h
    · simp_all
    · exact List.mem_cons_of_mem _ (ih h)

/-- The row of a page's register comes from the header, the snapshot registers or the map of its kind. -/
theorem Page.reg_mem {p : Page} {off : Nat} {r : RegDef} (h : p.reg off = some r) :
    r ∈ headerRegs ∨ r ∈ snapRegs ∨ r ∈ p.kind.regs := by
  unfold Page.reg at h
  split at h
  · exact .inl (findReg_mem h)
  · split at h
    · exact .inr (.inl (findReg_mem h))
    · exact .inr (.inr (findReg_mem h))

/-- Settles O10: every row of every map passes the test. -/
theorem everyBitHasOneType : Obligations.EveryBitHasOneType := by
  intro p off r h
  have ht : r.oneType = true := by
    rcases Page.reg_mem h with hr | hr | hr
    · exact List.all_eq_true.1 header_oneType r hr
    · exact List.all_eq_true.1 snap_oneType r hr
    · exact List.all_eq_true.1 (kind_oneType p.kind) r hr
  simpa [RegDef.oneType, and_assoc] using ht

end Sys2Proof.Machine
end

section
/-! SUPPORT. The parts of an access: what an answer changes, the decode of a target, the checks of the gate, and a write of
a register that only holds its fields. -/

namespace Sys2Proof.Machine

-- ==== answers ====

/-- Sending on the Adjor link changes the state of the link and what is sent out, and nothing else. -/
theorem Dev.adjSend_eq (d : Dev) (type : Nat) (ws : List Nat) :
    ∃ adj out, d.adjSend type ws = { d with adj := adj, out := out } := by
  simp only [Dev.adjSend, Dev.when]
  split
  · exact ⟨_, _, rfl⟩
  · exact ⟨_, _, rfl⟩

/-- An answer changes the management port's result, the Adjor link and what is sent out, and nothing else. -/
theorem Dev.answer_eq (d : Dev) (a : Access) (status data : Nat) :
    ∃ spi adj out, d.answer a status data = { d with spi := spi, adj := adj, out := out } := by
  unfold Dev.answer
  split
  · exact ⟨_, _, _, rfl⟩
  · obtain ⟨adj, out, h⟩ := d.adjSend_eq 7 [a.tag, status, data % 2 ^ 32, data / 2 ^ 32]
    exact ⟨_, _, _, h⟩
  · exact ⟨_, _, _, rfl⟩

/-- So does the end of a write. -/
theorem Dev.written_eq (d : Dev) (a : Access) : ∃ spi adj out, d.written a = { d with spi := spi, adj := adj, out := out } := by
  unfold Dev.written
  split
  · exact d.answer_eq a 0x80 0
  · exact d.answer_eq a 0x80 0
  · exact ⟨_, _, _, rfl⟩

-- ==== words of other pages ====

/-- The number of a page that exists names it. -/
theorem Page.ofIdx_idx (k : PageKind) : ∀ n < k.count, Page.ofIdx (Page.idx ⟨k, n⟩) = ⟨k, n⟩ := by
  cases k <;> decide

/-- Pages that exist have different numbers. -/
theorem Page.eq_of_idx {p q : Page} (hp : p.exists = true) (hq : q.exists = true) (h : p.idx = q.idx) : p = q := by
  have hp' : Page.ofIdx p.idx = p := Page.ofIdx_idx p.kind p.inst (of_decide_eq_true hp)
  have hq' : Page.ofIdx q.idx = q := Page.ofIdx_idx q.kind q.inst (of_decide_eq_true hq)
  rw [← hp', h, hq']

/-- A write of one word leaves every other word of every page. -/
theorem Dev.word_setWord_elsewhere (d : Dev) {p q : Page} {off o v : Nat} (hp : p.exists = true) (hq : q.exists = true)
    (hoff : off < pageSpan) (ho : o < pageSpan) (h : q = p → o ≠ off) : (d.setWord p off v).word q o = d.word q o := by
  by_cases hpq : p.idx = q.idx
  · obtain rfl := Page.eq_of_idx hp hq hpq
    exact Dev.word_setWord_off d p off o v (h rfl).symm
  · exact Dev.word_setWord_page d p q off o v hpq hoff ho

-- ==== decode ====

/-- A register named by its page is decoded as itself. -/
theorem resolve_reg {p : Page} (off : Nat) (h : p.exists = true) : resolve (.reg p off) = .reg p off := by
  rw [resolve, if_pos h]

/-- The words of the mapped pop windows lie in BAR2, 0x400 bytes for each window (R62). -/
theorem resolve_pop {n off : Nat} (hn : n < 19) (hoff : off < 0x400) :
    resolve (.addr .bar2 (0x400 * n + off)) = .pop n off := by
  have hdiv : (0x400 * n + off) / 0x400 = n := by omega
  have hmod : (0x400 * n + off) % 0x400 = off := by omega
  have hdepth : popDepth n ≠ 0 := by
    unfold popDepth
    split_ifs
    all_goals omega
  rw [resolve, hdiv, hmod, if_neg hdepth]

/-- A write never waits behind a write. -/
theorem Dev.heldWrite_of_write (d : Dev) {a : Access} (h : a.write = true) : d.heldWrite a = none := by
  rw [Dev.heldWrite, if_pos h]

/-- An access waits behind no write where it is one itself or its requester has no write that waits. -/
theorem Dev.heldWrite_none (d : Dev) (a : Access)
    (h : a.write = false → ∀ x ∈ d.stalls, x.acc.write = true → x.acc.who ≠ a.who) : d.heldWrite a = none := by
  unfold Dev.heldWrite
  split
  · rfl
  · rename_i hw
    have hnone : d.stalls.reverse.find? (fun x => x.acc.write && x.acc.who == a.who) = none := by
      simpa [List.find?_eq_none] using h (by simpa using hw)
    rw [hnone, Option.map_none]

/-- An access to a register that waits behind no write meets the gate, or is read. -/
theorem Dev.access_reg (d : Dev) {a : Access} {p : Page} {off : Nat} (hrel : d.start.released = true)
    (hheld : d.heldWrite a = none) (ht : resolve a.target = .reg p off) :
    d.access a = if a.write then d.gate a p off (fun d => d.writeReg a p off) else d.readReg a p off := by
  simp [Dev.access, hrel, hheld, ht]

/-- An access to a pop window that waits behind no write. -/
theorem Dev.access_pop (d : Dev) {a : Access} {n off : Nat} (hrel : d.start.released = true)
    (hheld : d.heldWrite a = none) (ht : resolve a.target = .pop n off) : d.access a = d.popAccess a n off := by
  simp [Dev.access, hrel, hheld, ht]

-- ==== the checks of the gate ====

section

variable (d : Dev) (a : Access) {p : Page} {off : Nat} (hp : p.exists = true) (hreach : d.reaches a.who p = true)

include hp hreach

/-- A write that reaches its page and can change nothing ends there, whoever holds the lock (R8, R9). -/
theorem Dev.gate_of_inert (eff : Dev → Dev) (hrel : d.start.released = true)
    (hsize : sizeOk (.reg p off) true a.size off = true) (hready : d.domainReady p.domain = true)
    (hwait : d.waits p.domain = false) (hsnap : d.snapBusy.contains p.idx = false) (hin : inert p off a.size = true) :
    d.gate a p off eff = d.written a := by
  rw [Dev.gate, if_neg (by simp [hrel]), if_neg (by simp [hp, hreach]), if_neg (by simp [hsize]), if_neg (by simp [hready]),
    if_neg (by simp [hwait]), if_neg (by rw [hsnap]; decide), if_pos hin]

/-- A write that meets a domain that is not ready stalls (R39). -/
theorem Dev.gate_of_asleep (eff : Dev → Dev) (hrel : d.start.released = true)
    (hsize : sizeOk (.reg p off) true a.size off = true) (hready : d.domainReady p.domain = false) :
    d.gate a p off eff = d.domainStall p.domain a := by
  rw [Dev.gate, if_neg (by simp [hrel]), if_neg (by simp [hp, hreach]), if_neg (by simp [hsize]), if_pos (by simp [hready])]

/-- So does a read. -/
theorem Dev.readReg_of_asleep (hsize : sizeOk (.reg p off) false a.size off = true)
    (hready : d.domainReady p.domain = false) : d.readReg a p off = d.domainStall p.domain a := by
  rw [Dev.readReg, if_neg (by simp [hp, hreach]), if_neg (by simp [hsize]), if_pos (by simp [hready])]

/-- A read that nothing holds is answered with the value of the register. -/
theorem Dev.readReg_of_ready (hsize : sizeOk (.reg p off) false a.size off = true) (hready : d.domainReady p.domain = true)
    (hwait : d.waits p.domain = false) (hsnap : d.snapBusy.contains p.idx = false) :
    d.readReg a p off = d.answer a 0x80 (d.regRead p off a.size) := by
  rw [Dev.readReg, if_neg (by simp [hp, hreach]), if_neg (by simp [hsize]), if_neg (by simp [hready]), if_neg (by simp [hwait]),
    if_neg (by rw [hsnap]; decide)]

end

/-- A read of a pop window is answered with its words. -/
theorem Dev.popAccess_read (d : Dev) {a : Access} {n off : Nat} (hw : a.write = false)
    (hreach : d.reaches a.who (popPage n) = true) (hsize : sizeOk (.pop n off) false a.size off = true)
    (hready : d.domainReady (popPage n).domain = true) : ∃ v, d.popAccess a n off = d.answer a 0x80 v := by
  unfold Dev.popAccess
  dsimp only
  rw [if_neg (by simp [hreach]), if_neg (by simp [hw, hsize]), if_neg (by simp [hready]), if_neg (by simp [hw])]
  exact ⟨_, rfl⟩

/-- A write of a pop window's acknowledge register acknowledges (R60). -/
theorem Dev.popAccess_ack (d : Dev) {a : Access} {n : Nat} (hw : a.write = true) (hs : a.size = 4)
    (hreach : d.reaches a.who (popPage n) = true) (hready : d.domainReady (popPage n).domain = true) :
    d.popAccess a n 8 = (d.popAck n (a.data % 65536)).written a := by
  unfold Dev.popAccess
  dsimp only
  rw [if_neg (by simp [hreach]), if_neg (by simp [hw, hs, sizeOk]), if_neg (by simp [hready]), if_pos hw, if_pos rfl]

/-- With the main domains on, an access to a domain that is not ready waits, is counted and fires source 0x2A. -/
theorem Dev.domainStall_of_mainRun (d : Dev) (n : Nat) (a : Access) (h : d.mainRun = true) :
    d.domainStall n a = ((d.hold n a).cnt pwrPg 2).fire 0x2A := by
  have hoff : d.isOff = false := by
    simp only [Dev.mainRun, Bool.and_eq_true, bne_iff_ne] at h
    simpa [Dev.isOff] using h.1.2
  simp [Dev.domainStall, hoff, h]

-- ==== plain registers ====

/-- A write that no order rule concerns is its effect and the answer. -/
theorem Dev.act_unordered (d : Dev) (a : Access) (eff : Dev → Dev) : d.act a false eff = (eff d).written a := by
  simp [Dev.act, Dev.when]

/-- The pages whose registers of their own only hold their fields. -/
def plainKinds : List PageKind := [.boot, .evo, .cap, .ccl, .dcap, .upd]

theorem isOrdered_of_plain {p : Page} (h : p.kind ∈ plainKinds) : isOrdered p = false := by
  simp only [plainKinds, List.mem_cons, List.not_mem_nil, or_false] at h
  rcases h with h | h | h | h | h | h <;> simp [isOrdered, h]

/-- Of the registers of such a page that clear no record, a 32-bit write is a plain write. -/
theorem Dev.writeReg_of_plain (d : Dev) {a : Access} {p : Page} {off : Nat} {r : RegDef} (hs : a.size = 4)
    (hk : p.kind ∈ plainKinds) (hrec : recordWords p off = []) (hoff : 0x50 ≤ off) (hr : regOf p off = some r) :
    d.writeReg a p off = d.plainWrite a.who p off (a.data % 2 ^ 32) := by
  have habs : absent p off = false := by
    by_contra h
    simp [regOf, h] at hr
  have hpage : d.pageWrite a.who p off (a.data % 2 ^ 32) = d.plainWrite a.who p off (a.data % 2 ^ 32) := by
    simp only [plainKinds, List.mem_cons, List.not_mem_nil, or_false] at hk
    rcases hk with h | h | h | h | h | h <;> simp [Dev.pageWrite, hrec, h]
  rw [Dev.writeReg, if_neg (by omega), Dev.regWrite, habs, if_neg (by decide), if_neg (by omega), if_neg (by omega),
    if_neg (by simp; omega), if_neg (by omega), if_neg (by omega), if_neg (by simp; omega), hpage]

/-- A plain write that nothing refuses keeps its staged bits for COMMIT and writes the others (R8, R50). -/
theorem Dev.plainWrite_of_good (d : Dev) {who : Owner} {p : Page} {off v : Nat} {r : RegDef} (hr : regOf p off = some r)
    (hw : r.writable ≠ 0) (hbad : d.badWrite who p off v = false) (hst : r.staged ≠ 0 → d.holds p who = true) :
    d.plainWrite who p off v =
      (let d := if r.staged ≠ 0 then d.stage p off r.staged v else d
       d.setWord p off (r.write (d.word p off) v)) := by
  simp only [Dev.plainWrite, hr]
  rw [if_neg hw, if_neg (by simp [hbad]), if_neg (by simpa using hst)]
  simp [Dev.when]

/-- Where a write is admitted the page exists and reset is released. -/
theorem Dev.exists_of_admits {d : Dev} {who : Owner} {p : Page} {off size : Nat} (h : d.admits who p off size = true) :
    d.start.released = true ∧ p.exists = true := by
  simp only [Dev.admits, Bool.and_eq_true] at h
  tauto

end Sys2Proof.Machine
end

section
/-! SUPPORT. What each command of an access does (R28, R36, R58, R60, R65, R350, R352), and the statements about
register writes, reads and their completion. -/

namespace Sys2Proof.Machine

-- ==== the commands ====

theorem exec_registerWrite (who : Owner) (t : Target) (size : Nat) (v : BitVec 64) (s : State) :
    exec (.registerWrite who t size v) s
      = .next (s.ends (s.begun.access { who := who, target := t, write := true, size := size, data := v.toNat })) := rfl

theorem exec_domainAccessWake (who : Owner) (t : Target) (write : Bool) (size : Nat) (v : BitVec 64) (s : State) :
    exec (.domainAccessWake who t write size v) s
      = .next (s.ends (s.begun.access { who := who, target := t, write := write, size := size, data := v.toNat })) := rfl

theorem exec_popAck (who : Owner) (w : Fin 64) (seq : BitVec 16) (s : State) :
    exec (.popAck who w seq) s = .next (s.ends (s.begun.access
      { who := who, target := .addr .bar2 (0x400 * w.val + 8), write := true, data := seq.toNat })) := rfl

theorem exec_domainReady (n : Fin 17) (s : State) : exec (.domainReady n) s = .next (s.ends (s.begun.domainUp n)) := rfl

theorem exec_accessStallTimeout (s : State) : exec .accessStallTimeout s = .next (s.ends s.begun.stallTimeout) := rfl

theorem exec_snapshot (who : Owner) (p : Page) (s : State) :
    exec (.snapshot who p) s = .next (s.ends (s.begun.gateW who p 0x40 1 (fun d =>
      d.when (!p.kind.counterAreas.isEmpty) (fun d => d.snapGo p 1)))) := rfl

theorem exec_snapshotDone (p : Page) (s : State) : exec (.snapshotDone p) s = s.runMain (fun d =>
    if !d.snapBusy.contains p.idx then d
    else (({ d with snapBusy := d.snapBusy.filter (· != p.idx) } : Dev).incWrap p R.SNAP_SEQ_SEQ).releaseHeld
      (snapTag p.idx)) := rfl

theorem exec_featuresAccept (who : Owner) (s : State) :
    exec (.featuresAccept who) s = .next (s.ends (s.begun.gateW who sysPg 0x120 1 (fun d => d.featGo 1))) := rfl

theorem exec_featuresDone (s : State) : exec .featuresDone s = s.runMain Dev.featDone := rfl

-- ==== writes ====

/-- An admitted write of a register that only holds its fields (R8, R50). -/
theorem exec_registerWrite_plain {s : State} {who : Owner} {p : Page} {off : Nat} {r : RegDef} {v : BitVec 64}
    (hadm : s.begun.admits who p off = true) (hk : p.kind ∈ plainKinds) (hrec : recordWords p off = []) (hoff : 0x50 ≤ off)
    (hr : regOf p off = some r) (hw : r.writable ≠ 0) (hbad : s.begun.badWrite who p off (v.toNat % 2 ^ 32) = false)
    (hst : r.staged ≠ 0 → s.begun.holds p who = true) :
    exec (.registerWrite who (.reg p off) 4 v) s = .next (s.ends (s.begun.act
      { who := who, target := .reg p off, write := true, data := v.toNat } (isOrdered p) (fun d =>
        let d := if r.staged ≠ 0 then d.stage p off r.staged (v.toNat % 2 ^ 32) else d
        d.setWord p off (r.write (d.word p off) (v.toNat % 2 ^ 32))))) := by
  obtain ⟨hrel, hp⟩ := Dev.exists_of_admits hadm
  let a : Access := { who := who, target := .reg p off, write := true, data := v.toNat }
  have heff := (s.begun.writeReg_of_plain (a := a) rfl hk hrec hoff hr).trans (Dev.plainWrite_of_good _ hr hw hbad hst)
  rw [exec_registerWrite, Dev.access_reg _ hrel (Dev.heldWrite_of_write _ rfl) (resolve_reg off hp), if_pos rfl,
    Dev.gate_of_admits _ a _ _ _ hadm]
  exact State.next_ends (Dev.act_congr _ a _ _ _ heff)

/-- Settles O15: the plain write sets one word, and the answer of a write changes no kind of state listed. -/
theorem registerWriteFrame : Obligations.RegisterWriteFrame := by
  intro s who p off r v d hadm _ hk hrec hoff hspan hr hw hst hbad
  obtain ⟨_, hp⟩ := Dev.exists_of_admits hadm
  have hexec := exec_registerWrite_plain hadm hk hrec hoff hr hw hbad (fun h => absurd hst h)
  simp only [hst, ne_eq, not_true_eq_false, if_false] at hexec
  rw [isOrdered_of_plain hk, Dev.act_unordered] at hexec
  obtain ⟨spi, adj, out, hans⟩ := Dev.written_eq (d.setWord p off (r.write (d.word p off) (v.toNat % 2 ^ 32)))
    { who := who, target := .reg p off, write := true, data := v.toNat }
  refine ⟨_, hexec, ?_, fun q o hq ho hne => ?_, ?_⟩
  · rw [Dev.word_written, Dev.word_setWord_same]
  · rw [Dev.word_written, Dev.word_setWord_elsewhere d hp hq hspan ho hne]
  · rw [hans]
    exact ⟨rfl, rfl, rfl, rfl, rfl, rfl, rfl, rfl, rfl, rfl, rfl⟩

/-- A word none of whose bits can be written is inert. -/
theorem inert_of_no_type {p : Page} {off : Nat}
    (h : ∀ r, regOf p off = some r → r.rw = 0 ∧ r.w1c = 0 ∧ r.w1s = 0 ∧ r.wo = 0) : inert p off 4 = true := by
  have hword : inertWord p off = true := by
    unfold inertWord
    split
    · rfl
    · rename_i r hr
      obtain ⟨hrw, hw1c, hw1s, hwo⟩ := h r hr
      simp [RegDef.writable, hrw, hw1c, hw1s, hwo]
  rw [inert, hword]
  rfl

/-- Settles O16: the gate ends an inert write before it asks who holds the lock. -/
theorem inertWritesAreIgnored : Obligations.InertWritesAreIgnored := by
  intro s who p off v d hrel hp hreach hsize hready hwait hsnap hbits
  let a : Access := { who := who, target := .reg p off, write := true, size := 4, data := v.toNat }
  have hacc : d.access a = d.written a := by
    rw [Dev.access_reg d hrel (Dev.heldWrite_of_write d rfl) (resolve_reg off hp), if_pos rfl,
      Dev.gate_of_inert d a hp hreach _ hrel hsize hready hwait hsnap (inert_of_no_type hbits)]
  obtain ⟨spi, adj, out, hans⟩ := d.written_eq a
  refine ⟨_, (exec_registerWrite who (.reg p off) 4 v s).trans (State.next_ends (hacc.trans hans)), ?_⟩
  exact ⟨rfl, rfl, rfl, rfl, rfl, rfl, rfl, rfl, rfl, rfl, rfl, rfl⟩

-- ==== reads ====

/-- Settles O18: a read ends in an answer, which changes the management port's result and what is sent out alone. -/
theorem readsChangeNothing : Obligations.ReadsChangeNothing := by
  intro s who size w p off v d hrel hposted
  refine ⟨fun hw hreach hready hoff hsize => ?_, fun hp hreach hready hwait hsnap hsize => ?_⟩
  · let a : Access := { who := who, target := .addr .bar2 (0x400 * w.val + off), write := false, size := size,
                        data := v.toNat }
    obtain ⟨x, hx⟩ := d.popAccess_read (a := a) rfl hreach hsize hready
    obtain ⟨spi, adj, out, hans⟩ := d.answer_eq a 0x80 x
    have hacc : d.access a = d.popAccess a w off :=
      d.access_pop hrel (d.heldWrite_none a fun _ => hposted) (resolve_pop hw hoff)
    refine ⟨_, (exec_domainAccessWake who _ false size v s).trans (State.next_ends (hacc.trans (hx.trans hans))), ?_⟩
    exact ⟨rfl, rfl, rfl, rfl, rfl⟩
  · let a : Access := { who := who, target := .reg p off, write := false, size := size, data := v.toNat }
    obtain ⟨spi, adj, out, hans⟩ := d.answer_eq a 0x80 (d.regRead p off size)
    have hacc : d.access a = d.answer a 0x80 (d.regRead p off size) := by
      rw [d.access_reg hrel (d.heldWrite_none a fun _ => hposted) (resolve_reg off hp), if_neg Bool.false_ne_true,
        d.readReg_of_ready a hp hreach hsize hready hwait hsnap]
    refine ⟨_, (exec_domainAccessWake who _ false size v s).trans (State.next_ends (hacc.trans hans)), ?_⟩
    exact ⟨rfl, rfl, rfl, rfl, rfl, rfl, rfl, rfl, rfl, rfl, rfl⟩

-- ==== completion ====

/-- A write of 1 to ACCEPT clears the last failure, and the negotiation runs (R65). -/
theorem Dev.featGo_one (d : Dev) : d.featGo 1 =
    { ((d.setFlag sysPg R.SYS_FEATURES_OK_FAILED false).setWord sysPg 0x124 0) with featBusy := some d.wanted } := rfl

/-- A set that passes every test is in force (R65). -/
theorem Dev.featDone_of_pass {d : Dev} {set : Nat} (hbusy : d.featBusy = some set)
    (h : Dev.featureFault { d with featBusy := none } set = none) : d.featDone =
      { (({ d with featBusy := none } : Dev).setFlag sysPg R.SYS_FEATURES_OK_OK true) with features := set } := by
  simp only [Dev.featDone, hbusy, h]

/-- A set that fails a test leaves the set in force, and the test is shown (R65). -/
theorem Dev.featDone_of_fail {d : Dev} {set reason bit : Nat} (hbusy : d.featBusy = some set)
    (h : Dev.featureFault { d with featBusy := none } set = some (reason, bit)) : d.featDone =
      (let d := (({ d with featBusy := none } : Dev).setFlag sysPg R.SYS_FEATURES_OK_FAILED true).setFld sysPg
         R.SYS_FEATURES_FAIL_REASON reason
       (d.setFld sysPg R.SYS_FEATURES_FAIL_BIT bit).showFeatures d.features) := by
  simp only [Dev.featDone, hbusy, h]

/-- A domain other than the deep store's wakes: the stalls are measured and what waits runs (R350). -/
theorem Dev.domainUp_of_waits {d : Dev} {n : Nat} (hwait : d.waits n = true) (hmain : d.mainRun = true) (hn : n ≠ 5) :
    d.domainUp n =
      (let d := (d.stalls.filter (fun x => x.domain == n)).foldl (fun d x => d.stallMax x.since) d
       Dev.releaseHeld { d with awake := (d.awake.filter (· != n)) ++ [n] } n) := by
  simp [Dev.domainUp, hwait, hmain, hn]

/-- The oldest access that waits ends after 8 ms with a stall timeout and a SUPPLY fault (R352). -/
theorem Dev.stallTimeout_of_late {d : Dev} {x : Stall} (hold : d.oldStall = some x) (hlate : 8 * msTicks ≤ d.now - x.since) :
    d.stallTimeout =
      (let d := ({ d with stalls := d.stalls.filter (· != x) } : Dev)
       let d := (d.stallMax x.since).accessFail x.acc 3 0x85
       ((d.cnt pwrPg 3).raise pwrPg 3).fault { cls := 5, page := pwrPg }) := by
  simp only [Dev.stallTimeout, hold, if_neg (Nat.not_lt.2 hlate)]

/-- A read waits with the tag of its requester's posted write that was held last (R375). -/
theorem Dev.access_behind_write {d : Dev} {a : Access} {x : Stall} (hrel : d.start.released = true) (hr : a.write = false)
    (h : d.stalls.reverse.find? (fun y => y.acc.write && y.acc.who == a.who) = some x) : d.access a = d.hold x.domain a := by
  simp [Dev.access, Dev.heldWrite, hrel, hr, h]

/-- An access to a register of a domain that is not ready waits for it (R39, R350). -/
theorem Dev.access_of_asleep {d : Dev} {a : Access} {p : Page} {off : Nat} (ht : a.target = .reg p off)
    (hrel : d.start.released = true) (hp : p.exists = true) (hreach : d.reaches a.who p = true)
    (hsize : sizeOk (.reg p off) a.write a.size off = true) (hready : d.domainReady p.domain = false)
    (hheld : d.heldWrite a = none) : d.access a = d.domainStall p.domain a := by
  have hres : resolve a.target = .reg p off := by rw [ht, resolve_reg off hp]
  rw [d.access_reg hrel hheld hres]
  cases hw : a.write with
  | true => rw [if_pos rfl, d.gate_of_asleep a hp hreach _ hrel (hw ▸ hsize) hready]
  | false => rw [if_neg Bool.false_ne_true, d.readReg_of_asleep a hp hreach (hw ▸ hsize) hready]

/-- Settles O38: each command by the lemma that says what its operation does under the conditions named. -/
theorem accessCommandsComplete : Obligations.AccessCommandsComplete := by
  intro s who p off r v n x write size w seq set reason bit d
  refine ⟨?accept, ?pass, ?fail, ?snap, ?snapDone, ?write, ?asleep, ?behind, ?woken, ?timeout, ?popAck⟩
  case accept =>
    intro hadm
    rw [exec_featuresAccept, Dev.gateW_of_admits _ _ _ _ _ _ hadm]
    exact State.next_wrote d.featGo_one
  case pass =>
    intro hmain hbusy hpass
    rw [exec_featuresDone, State.runMain_of s _ hmain, Dev.featDone_of_pass hbusy hpass]
  case fail =>
    intro hmain hbusy hfail
    rw [exec_featuresDone, State.runMain_of s _ hmain, Dev.featDone_of_fail hbusy hfail]
  case snap =>
    intro hadm hareas
    rw [exec_snapshot, Dev.gateW_of_admits _ _ _ _ _ _ hadm]
    exact State.next_wrote (by simp [Dev.when, hareas])
  case snapDone =>
    intro hmain hbusy
    rw [exec_snapshotDone, State.runMain_of s _ hmain, if_neg (by rw [hbusy]; decide)]
  case write =>
    intro hadm hk hrec hoff hr hw hbad hst
    exact exec_registerWrite_plain hadm hk hrec hoff hr hw hbad hst
  case asleep =>
    intro hrel hp hreach hsize hready hmain hposted
    rw [exec_domainAccessWake, Dev.access_of_asleep rfl hrel hp hreach hsize hready (Dev.heldWrite_none _ _ hposted),
      Dev.domainStall_of_mainRun _ _ _ hmain]
  case behind =>
    intro hrel hx
    rw [exec_domainAccessWake, Dev.access_behind_write hrel rfl hx]
  case woken =>
    intro hwait hmain hn
    rw [exec_domainReady, Dev.domainUp_of_waits hwait hmain hn]
  case timeout =>
    intro hold hlate
    rw [exec_accessStallTimeout, Dev.stallTimeout_of_late hold hlate]
  case popAck =>
    intro hrel hw hreach hready
    have hseq : seq.toNat % 65536 = seq.toNat := Nat.mod_eq_of_lt seq.isLt
    rw [exec_popAck, Dev.access_pop _ hrel (Dev.heldWrite_of_write _ rfl) (resolve_pop hw (by decide)),
      Dev.popAccess_ack _ rfl rfl hreach hready, hseq]

end Sys2Proof.Machine
end

section
/-! SUPPORT. The queue of waiting commands (R28): a step runs the one at its front, and what a command leaves is sound. -/

namespace Sys2Proof.Machine

/-- Settles O1: the step takes the front of the queue apart. -/
theorem stepRunsTheFrontCommand : Obligations.StepRunsTheFrontCommand := by
  intro c rest s h
  unfold step
  rw [h]

/-- The canonical form of the sparse maps is canonical. -/
theorem Dev.canonical_canon (d : Dev) : d.canon.Canonical :=
  ⟨NMap.wf_canon _ _, NMap.wf_canon _ _, NMap.wf_canon _ _, NMap.wf_canon _ _, NMap.wf_canon _ _⟩

/-- What a command leaves is sound, whatever it did to the device. -/
theorem State.sound_ends (s : State) (d : Dev) : (s.ends d).Sound := Dev.canonical_canon _

/-- A step with a command waiting neither faults nor is refused: it leaves the rest of the queue and a sound state. -/
theorem step_of_waiting {s : State} {c : Instr} {rest : List Instr} (h : s.pending = c :: rest) :
    ∃ t, step s = .next t ∧ t.pending = rest ∧ t.Sound := by
  obtain ⟨d, hexec, hrest⟩ := noCommandStops c { s with pending := rest }
  exact ⟨_, (stepRunsTheFrontCommand c rest s h).trans hexec, hrest, State.sound_ends _ d⟩

/-- Steps that begin with a step to `t` go on from `t`. -/
theorem State.steps_succ {s t : State} (h : step s = .next t) (n : Nat) : s.steps (n + 1) = t.steps n := by
  rw [State.steps, h]

/-- A queue runs to its end, from every sound state it waits in. -/
theorem State.steps_of_queue (queue : List Instr) :
    ∀ s : State, s.pending = queue → s.Sound → ∃ t, s.steps queue.length = .next t ∧ t.pending = [] ∧ t.Sound := by
  induction queue with
  | nil => exact fun s hempty hsound => ⟨s, rfl, hempty, hsound⟩
  | cons c rest ih =>
    intro s hwait _
    obtain ⟨u, hstep, hrest, hsound⟩ := step_of_waiting hwait
    obtain ⟨t, hsteps, hend⟩ := ih u hrest hsound
    exact ⟨t, (State.steps_succ hstep _).trans hsteps, hend⟩

/-- Settles O7: by induction on the queue, one step for each command. -/
theorem queueRunsToItsEnd : Obligations.QueueRunsToItsEnd :=
  fun s hsound => State.steps_of_queue s.pending s rfl hsound

end Sys2Proof.Machine
end

section
/-! SUPPORT. The enable state machine (R46, R385): what a request and a completion do in each STATE, and the statement
about the commands of enabling. -/

namespace Sys2Proof.Machine

-- ==== the commands ====

theorem exec_pageEnRequest_page (who : Owner) (p : Page) (on : Bool) (s : State) :
    exec (.pageEnRequest who (.page p) on) s
      = .next (s.ends (s.begun.gateW who p 0x08 (enCode on) (fun d => d.pageCtrl who p (enCode on)))) := rfl

theorem exec_pageEnRequest_rxq (who : Owner) (q : Fin 64) (on : Bool) (s : State) :
    exec (.pageEnRequest who (.rxq q) on) s = .next (s.ends
      (s.begun.gateW who dmaPg (0x1000 + 0x40 * q.val) (enCode on) (fun d => d.qRequest q on))) := rfl

theorem exec_pageEnRequest_txq (who : Owner) (q : Fin 64) (on : Bool) (s : State) :
    exec (.pageEnRequest who (.txq q) on) s = .next (s.ends
      (s.begun.gateW who dmaPg (0x2000 + 0x40 * q.val) (enCode on) (fun d => d.qRequest (64 + q) on))) := rfl

theorem exec_startComplete_page (p : Page) (s : State) :
    exec (.startComplete (.page p)) s = .next (s.ends (s.begun.startDone p)) := rfl

theorem exec_startComplete_rxq (q : Fin 64) (s : State) :
    exec (.startComplete (.rxq q)) s = .next (s.ends (s.begun.qStarted q)) := rfl

theorem exec_stopComplete_page (p : Page) (s : State) :
    exec (.stopComplete (.page p)) s = .next (s.ends (s.begun.stopDone p)) := rfl

theorem exec_stopComplete_rxq (q : Fin 64) (s : State) :
    exec (.stopComplete (.rxq q)) s = .next (s.ends (s.begun.qStopped q)) := rfl

theorem exec_portLanesDown (port : Fin 40) (s : State) :
    exec (.portLanesDown port) s = s.runMain (fun d => d.stopDone (prtPg port)) := rfl

-- ==== pages ====

/-- A write of PAGE_CTRL with EN alone is a request of a writer the lock lets through (R46, R51). -/
theorem Dev.pageCtrl_en {d : Dev} {who : Owner} {p : Page} (hw : d.mayWrite p who = true) (on : Bool) :
    d.pageCtrl who p (enCode on) = d.enRequest who.code p on := by
  cases on with
  | true => exact if_pos hw
  | false => exact if_pos hw

/-- A request ON in OFF turns the page on (R46). -/
theorem Dev.enRequest_on {d : Dev} {p : Page} (party : Nat) (hoff : d.state p = 0) :
    d.enRequest party p true = d.turnOn p party := by
  simp [Dev.enRequest, hoff]

/-- A request OFF in ON turns a page off that may go OFF (R46). -/
theorem Dev.enRequest_off {d : Dev} {p : Page} (party : Nat) (hon : d.state p = 2) (hstays : staysOn p = false) :
    d.enRequest party p false = d.turnOff p := by
  simp [Dev.enRequest, hon, hstays]

/-- A page that nothing bars takes its claims and goes to STARTING (R24, R46). -/
theorem Dev.turnOn_of_free {d : Dev} {p : Page} (party : Nat) (hbar : d.enBarred p = false) (hclash : d.claimClash p = none) :
    d.turnOn p party =
      (let d := (d.claimTake p party).setFld p R.PAGE_CTRL_EN 1
       ({ d with party := d.party.set p.idx party }.setState p 1).starting p) := by
  simp only [Dev.turnOn, hbar, hclash, Bool.false_eq_true, if_false]

/-- STARTING ends unless CAN 0 or CAN 1 waits for its pins (R30). -/
theorem Dev.startDone_of_starting {d : Dev} {p : Page} (hst : d.state p = 1)
    (hpins : p.kind = .can → p.inst < 2 → d.flag p R.EDG_CAN_STAT_PINS = true) : d.startDone p = d.startEnd p := by
  have hready : (p.kind == .can && decide (p.inst < 2) && !d.flag p R.EDG_CAN_STAT_PINS) = false := by
    by_cases hk : p.kind = .can
    · by_cases hn : p.inst < 2
      · simp [hpins hk hn]
      · simp [hn]
    · simp [hk]
  rw [Dev.startDone, hready, Bool.not_false, Bool.and_true, if_pos (decide_eq_true hst)]

/-- STOPPING ends once nothing has to be waited for (R46). -/
theorem Dev.stopDone_of_ready {d : Dev} {p : Page} (hst : d.state p = 3) (hready : d.stopReady p = true) :
    d.stopDone p = d.stopEnd p := by
  simp [Dev.stopDone, hst, hready]

-- ==== DMA queues ====

/-- A request ON in OFF, with the page ON, puts a queue in STARTING on an empty ring (R385). -/
theorem Dev.qRequest_on {d : Dev} {i : Nat} (hpage : d.isOn dmaPg = true) (hoff : d.qState i = 0) :
    d.qRequest i true =
      (let d := (d.setFld dmaPg (R.DMA_Q_CTRL_EN.at i) 1).setQState i 1
       ((d.setFld dmaPg (R.DMA_Q_HEAD_HEAD.at i) 0).setFld dmaPg (R.DMA_Q_TAIL_TAIL.at i) 0).setFld dmaPg
         (R.DMA_Q_STAT_ERR.at i) 0) := by
  simp [Dev.qRequest, hpage, hoff]

/-- A request OFF in ON puts a queue in STOPPING (R385). -/
theorem Dev.qRequest_off {d : Dev} {i : Nat} (hon : d.qState i = 2) :
    d.qRequest i false = (d.setFld dmaPg (R.DMA_Q_CTRL_EN.at i) 2).setQState i 3 := by
  simp [Dev.qRequest, hon]

/-- STARTING of a queue ends in ON, or goes on to STOPPING with OFF pending (R385). -/
theorem Dev.qStarted_of_starting {d : Dev} {i : Nat} (hst : d.qState i = 1) : d.qStarted i =
    (let d' := (d.setFld dmaPg (R.DMA_Q_STAT_PENDING.at i) 0).setQState i 2
     if d.qf i R.DMA_Q_STAT_PENDING = 2 then d'.setQState i 3 else d') :=
  if_neg (not_not_intro hst)

/-- STOPPING of a queue that reads nothing and waits for no writeback ends in OFF where no ON is pending (R385). -/
theorem Dev.qStopped_of_idle {d : Dev} {i : Nat} (hst : d.qState i = 3) (hreads : (d.dmaQ i).reads = [])
    (hwbs : (d.dmaQ i).wbs = []) (hpend : d.qf i R.DMA_Q_STAT_PENDING ≠ 1) :
    d.qStopped i = ((d.setFld dmaPg (R.DMA_Q_STAT_PENDING.at i) 0).setDmaQ i {}).setQState i 0 := by
  simp [Dev.qStopped, hst, hreads, hwbs, hpend]

-- ==== the pins of CAN 0 and CAN 1 ====

/-- The pins pass to an integrated controller while no sleep round and no relay holds them (R31, R298). -/
theorem exec_canPinsPass_of_integrated {s : State} {bus : Fin 2} {d : Dev} (hd : s.begun = d) (hmain : d.mainRun = true)
    (hcommitted : d.round ≠ 2) (hasleep : d.round ≠ 3) (hrelay : d.npt.relay = none)
    (hst : d.state (canPg bus) = 1 ∨ d.state (canPg bus) = 2) (hpins : d.flag (canPg bus) R.EDG_CAN_STAT_PINS = false)
    (hsync : d.flag (canPg bus) R.EDG_CAN_STAT_SYNC = true) :
    exec (.canPinsPass bus) s = .next (s.ends (
      let d' := d.setClaim (0x10 + bus.val) (claimWord (d.party.getD (canPg bus).idx 0) bus 3)
      let d' := (d'.setFlag (canPg bus) R.EDG_CAN_STAT_PINS true).raise (canPg bus) 6
      let d' := (d'.setCan bus { d'.can bus with trxGoing := none, trxPend := none }).setFld (canPg bus) R.EDG_CAN_TRX_STATE 0
      if d.state (canPg bus) = 1 then d'.startEnd (canPg bus) else d'.trxUpdate bus)) := by
  refine (State.runMain_at hd hmain).trans (State.next_ends (if_neg ?_))
  rcases hst with hst | hst <;> simp [hcommitted, hasleep, hrelay, hst, hpins, hsync]

/-- Settles O37: each command by the lemma that says what a request or a completion does in the STATE named. -/
theorem enableCommandsComplete : Obligations.EnableCommandsComplete := by
  intro s who p q port bus d
  refine ⟨?pageOn, ?pageOff, ?rxqOn, ?txqOff, ?started, ?rxqStarted, ?stopped, ?rxqStopped, ?lanesDown, ?pins⟩
  case pageOn =>
    intro hadm hw hoff hbar hclash
    rw [exec_pageEnRequest_page, Dev.gateW_of_admits _ _ _ _ _ _ hadm]
    exact State.next_wrote ((Dev.pageCtrl_en hw true).trans ((Dev.enRequest_on _ hoff).trans (Dev.turnOn_of_free _ hbar hclash)))
  case pageOff =>
    intro hadm hw hon hstays
    rw [exec_pageEnRequest_page, Dev.gateW_of_admits _ _ _ _ _ _ hadm]
    exact State.next_wrote ((Dev.pageCtrl_en hw false).trans (Dev.enRequest_off _ hon hstays))
  case rxqOn =>
    intro hadm hpage hoff
    rw [exec_pageEnRequest_rxq, Dev.gateW_of_admits _ _ _ _ _ _ hadm]
    exact State.next_wrote (Dev.qRequest_on hpage hoff)
  case txqOff =>
    intro hadm hon
    rw [exec_pageEnRequest_txq, Dev.gateW_of_admits _ _ _ _ _ _ hadm]
    exact State.next_wrote (Dev.qRequest_off hon)
  case started =>
    intro hst hpins
    exact (exec_startComplete_page p s).trans (State.next_ends (Dev.startDone_of_starting hst hpins))
  case rxqStarted =>
    intro hst
    exact (exec_startComplete_rxq q s).trans (State.next_ends (Dev.qStarted_of_starting hst))
  case stopped =>
    intro hst hready
    exact (exec_stopComplete_page p s).trans (State.next_ends (Dev.stopDone_of_ready hst hready))
  case rxqStopped =>
    intro hst hreads hwbs hpend
    exact (exec_stopComplete_rxq q s).trans (State.next_ends (Dev.qStopped_of_idle hst hreads hwbs hpend))
  case lanesDown =>
    intro hmain hst hready
    rw [exec_portLanesDown, State.runMain_of s _ hmain, Dev.stopDone_of_ready hst hready]
  case pins =>
    intro hmain hcommitted hasleep hrelay hst hpins hsync
    exact exec_canPinsPass_of_integrated rfl hmain hcommitted hasleep hrelay hst hpins hsync

end Sys2Proof.Machine
end

section
/-! SUPPORT. The Night Post (R335 to R343): wake frames that wait, the copies of a relay, the oscillator, and the statement
about its commands. -/

namespace Sys2Proof.Machine

-- ==== the commands ====

theorem exec_wakeFrameRx (fd ext : Bool) (id : BitVec 29) (data : List Byte) (s : State) :
    exec (.wakeFrameRx fd ext id data) s = .next (s.ends (s.begun.wakeFrame fd ext id.toNat data)) := rfl

theorem exec_relayCopyDue (s : State) : exec .relayCopyDue s = .next (s.ends s.begun.relayDue) := rfl

theorem exec_relayCopyDone (ok : Bool) (s : State) :
    exec (.relayCopyDone ok) s = .next (s.ends (s.begun.relayTried ok)) := rfl

/-- The oscillator stops once nothing waits and no relay runs (R335). -/
theorem exec_npOscStop_of_idle {s : State} {d : Dev} (hd : s.begun = d) (hframes : d.npt.frames = [])
    (hrelay : d.npt.relay = none) :
    exec .npOscStop s = .next (s.ends (d.withNpt (fun n => { n with oscillator := false }))) :=
  (State.run_at hd).trans (State.next_ends (if_pos (by simp [hframes, hrelay])))

-- ==== wake frames ====

/-- Four frames wait beside the one that is handled; the frame of a running relay has left the list (R337). -/
theorem Dev.four_le_npWaiting (d : Dev) :
    4 ≤ d.npWaiting ↔ (if d.npt.relay.isSome then 4 else 5) ≤ d.npt.frames.length := by
  unfold Dev.npWaiting
  split
  · rw [Nat.sub_zero]
  · omega

/-- The device as a frame of the identifier finds it: counted, with the oscillator running (R335, R336). -/
def Dev.npHeard (d : Dev) : Dev := (d.cnt nptPg 0).withNpt (fun n => { n with oscillator := true })

/-- Hearing a frame leaves what waits. -/
theorem Dev.npWaiting_npHeard (d : Dev) : d.npHeard.npWaiting = d.npWaiting := rfl

/-- A frame of the identifier, in service, is heard; it waits where fewer than four do and is discarded else (R336, R337). -/
theorem Dev.wakeFrame_of_served {d : Dev} {fd ext : Bool} {id : Nat} {data : List Byte} (hon : d.isOn nptPg = true)
    (hserve : d.npt.serving = true) (hext : ext = d.flag nptPg R.NPT_RX_ID_IDE) (hid : id = d.fld nptPg R.NPT_RX_ID_ID) :
    d.wakeFrame fd ext id data =
      if 4 ≤ d.npWaiting then d.npHeard.cnt nptPg 6
      else (d.npHeard.withNpt (fun n => { n with frames := n.frames ++ [⟨fd, data⟩] })).npNext := by
  subst hext hid
  rw [Dev.wakeFrame, if_neg (by simp [hon, hserve]), ← Dev.npWaiting_npHeard]
  rfl

-- ==== the relay ====

/-- The next copy is offered once GAP_MS has passed (R339). -/
theorem Dev.relayDue_of_left {d : Dev} {r : Relay} (hrelay : d.npt.relay = some r) (hoffer : r.onOffer = false)
    (hleft : r.left ≠ 0) : d.relayDue = d.relayOffer r := by
  simp [Dev.relayDue, hrelay, hoffer, hleft]

/-- While NP-CAN B offers the copy, an attempt sends it or fails; at level 3 it fails (R32, R339). -/
theorem Dev.relayTried_of_offer {d : Dev} {r : Relay} (ok : Bool) (hrelay : d.npt.relay = some r) (hoffer : r.onOffer = true)
    (hvia : r.viaCan1 = false) (hpins : d.flag (canPg 1) R.EDG_CAN_STAT_PINS = false) : d.relayTried ok =
      if ok && !d.safe then (d.emit (.can 1 (d.relayMsg r))).copySent r else (d.copyFailed r).2 := by
  simp [Dev.relayTried, hrelay, hoffer, hvia, hpins]

/-- The first copy sent shows the relay's success, and fires source 0x28 where the command asks it (R340). -/
theorem Dev.copySent_eq (d : Dev) (r : Relay) : d.copySent r =
    (let r' := { r with sent := r.sent + 1 }
     let d' := d.setFld nptPg R.NPT_RELAY_STAT_COPIES r'.sent
     (if r'.sent = 1 then
       let d' := ((d'.setFld nptPg R.NPT_RELAY_STAT_RESULT 1).cnt nptPg 1).raise nptPg 0
       if d'.flag nptPg (R.NPT_CMD_MAP_WAKE.at r'.cmd) then d'.fire 0x28 else d'
     else d').copyOver r') := by
  simp only [Dev.copySent, Dev.when, beq_iff_eq]

/-- A failed attempt is tried again up to RETRY; then the copy is over, and a relay that sent none has failed (R339). -/
theorem Dev.copyFailed_snd (d : Dev) (r : Relay) : (d.copyFailed r).2 =
    (let r' := { r with attempts := r.attempts + 1 }
     if r'.attempts < d.fld nptPg R.NPT_RELAY_CFG_RETRY then d.setRelay (some r')
     else
       let d' := d.cnt nptPg 5
       (if r'.left = 0 ∧ r'.sent = 0 then d'.setFld nptPg R.NPT_RELAY_STAT_RESULT 8 else d').copyOver r') := by
  simp only [Dev.copyFailed, Dev.when, Bool.and_eq_true, beq_iff_eq]
  split
  · rfl
  · rfl

/-- Settles O49: each command by the lemma that says what its operation does under the conditions named. -/
theorem nightPostCommandsComplete : Obligations.NightPostCommandsComplete := by
  intro s fd ext ok id data r d
  refine ⟨fun hon hserve hext hid => ⟨fun hroom => ?room, fun hfull => ?full⟩, ?copyDue, ?copyDone, ?oscStop⟩
  case room =>
    have hwait : ¬ 4 ≤ d.npWaiting := by rw [Dev.four_le_npWaiting]; exact Nat.not_le.2 hroom
    rw [exec_wakeFrameRx, Dev.wakeFrame_of_served hon hserve hext hid, if_neg hwait]
    rfl
  case full =>
    have hwait : 4 ≤ d.npWaiting := d.four_le_npWaiting.2 hfull
    rw [exec_wakeFrameRx, Dev.wakeFrame_of_served hon hserve hext hid, if_pos hwait]
    rfl
  case copyDue =>
    intro hrelay hoffer hleft
    exact (exec_relayCopyDue s).trans (State.next_ends (Dev.relayDue_of_left hrelay hoffer hleft))
  case copyDone =>
    intro hrelay hoffer hvia hpins
    rw [exec_relayCopyDone, Dev.relayTried_of_offer ok hrelay hoffer hvia hpins, Dev.copySent_eq, Dev.copyFailed_snd]
  case oscStop =>
    intro hframes hrelay
    exact exec_npOscStop_of_idle rfl hframes hrelay

end Sys2Proof.Machine
end

section
/-! SUPPORT. What a delivery, a refusal and an order can change of the registers and counters (R43, R44, R51, R490). -/

namespace Sys2Proof.Machine

-- ==== places of registers and counters ====

/-- Two places of pages that exist have different keys unless page and offset agree. -/
theorem Page.key_ne {p q : Page} {o o' : Nat} (hp : p.exists = true) (hq : q.exists = true) (ho : o < pageSpan)
    (ho' : o' < pageSpan) (h : q = p → o' ≠ o) : p.key o ≠ q.key o' := by
  by_cases hpq : p.idx = q.idx
  · obtain rfl := Page.eq_of_idx hp hq hpq
    rw [Ne, Page.key_inj]
    exact (h rfl).symm
  · exact Page.key_page p q o o' hpq ho ho'

/-- A counter after a counter has counted. -/
theorem Dev.count_addCount (d : Dev) (p q : Page) (o o' n : Nat) :
    (d.addCount p o n).count q o' = if p.key o = q.key o' then (d.count p o + n) % 2 ^ 64 else d.count q o' := by
  unfold Dev.addCount
  rw [Dev.count, NMap.getD, NMap.get?_set]
  split
  · rfl
  · rfl

/-- Setting a field leaves every word but its own one or two. -/
theorem Dev.word_setFld_elsewhere (d : Dev) {p q : Page} {f : Fld} {o : Nat} (v : Nat) (hp : p.exists = true)
    (hq : q.exists = true) (hf : f.off + 4 < pageSpan) (ho : o < pageSpan) (h : q = p → o ≠ f.off ∧ o ≠ f.off + 4) :
    (d.setFld p f v).word q o = d.word q o := by
  unfold Dev.setFld
  split
  · exact d.word_setWord_elsewhere hp hq (by omega) ho fun e => (h e).1
  · rw [Dev.setWide, Dev.word_setWord_elsewhere _ hp hq hf ho fun e => (h e).2,
      Dev.word_setWord_elsewhere _ hp hq (by omega) ho fun e => (h e).1]

/-- A field lies below a power of two. -/
theorem bits_lt (w hi lo : Nat) : bits w hi lo < 2 ^ (hi + 1 - lo) := Nat.mod_lt _ (by positivity)

/-- The vector of a page interrupt is one of 128 (R43). -/
theorem Dev.vector_lt (d : Dev) (p : Page) : d.fld p R.IRQ_ROUTE_VECTOR < 128 := bits_lt _ 6 0

-- ==== deliveries ====

/-- A word that no delivery changes: any but IRQ_RAW and the pending bits of the host bridge (R43, R381). -/
structure Page.Spared (q : Page) (o : Nat) : Prop where
  exist : q.exists = true
  span : o < pageSpan
  quiet : q.kind = .hbr → o ≠ 0x18 ∧ o < 0x3000

/-- The common header of a page but its IRQ_RAW is spared. -/
theorem Page.spared_header {p : Page} {o : Nat} (hp : p.exists = true) (ho : o < 0x40) (h : o ≠ 0x18) : Page.Spared p o :=
  ⟨hp, by unfold pageSpan; omega, fun _ => ⟨h, by omega⟩⟩

/-- Of registers and counters the device differs as deliveries make it differ: in the host bridge alone. -/
structure Dev.Delivers (d d' : Dev) : Prop where
  words : ∀ {q : Page} {o : Nat}, Page.Spared q o → d'.word q o = d.word q o
  counts : ∀ {q : Page} {o : Nat}, q.exists = true → o < pageSpan → q.kind ≠ .hbr → d'.count q o = d.count q o

namespace Dev.Delivers

variable {d e e' : Dev}

theorem of_eq (hr : e.regs = d.regs) (hc : e.counts = d.counts) : d.Delivers e :=
  ⟨fun _ => by simp only [Dev.word, hr], fun _ _ _ => by simp only [Dev.count, hc]⟩

theorem refl (d : Dev) : d.Delivers d := of_eq rfl rfl

theorem trans (h : d.Delivers e) (h' : e.Delivers e') : d.Delivers e' :=
  ⟨fun hs => (h'.words hs).trans (h.words hs), fun hq ho hk => (h'.counts hq ho hk).trans (h.counts hq ho hk)⟩

theorem ifThen (b : Bool) {f : Dev → Dev} (h : d.Delivers (f d)) : d.Delivers (d.when b f) := by
  unfold Dev.when
  split
  · exact h
  · exact refl d

/-- IRQ_RAW and the pending bits of the host bridge. -/
theorem setWord {off : Nat} (v : Nat) (hoff : off < pageSpan) (h : off = 0x18 ∨ 0x3000 ≤ off) :
    d.Delivers (d.setWord (pg .hbr) off v) := by
  refine ⟨fun {q o} hs => d.word_setWord_elsewhere rfl hs.exist hoff hs.span fun hq => ?_,
    fun _ _ _ => d.count_setWord _ _ _ _ _⟩
  obtain ⟨hraw, hpend⟩ := hs.quiet (hq ▸ rfl)
  omega

/-- Counters of the host bridge. -/
theorem cnt {i n : Nat} (hi : i < 8) : d.Delivers (d.cnt (pg .hbr) i n) := by
  refine ⟨fun _ => d.word_cnt _ _ _ _ _, fun {q o} hq ho hk => ?_⟩
  have hkey := Page.key_ne (p := pg .hbr) (o := cntBase (pg .hbr).kind + 8 * i) rfl hq
    (by simp only [cntBase, pg, pageSpan]; omega) ho fun h => absurd (h ▸ rfl) hk
  rw [Dev.cnt, Dev.count_addCount, if_neg hkey]

theorem pendMsix {v : Nat} (hv : v < 128) : d.Delivers (d.pendMsix v) := by
  have hoff : (R.HBR_MSIX_PBA_PEND.at (v / 32)).off = 0x3000 + v / 32 * 4 := rfl
  rw [Dev.pendMsix, Dev.setFld_narrow _ _ _ _ (by decide : 31 < 32)]
  exact setWord _ (by rw [hoff]; unfold pageSpan; omega) (by rw [hoff]; omega)

theorem deliverAside (p : Page) : d.Delivers (d.deliverAside p) :=
  of_eq (d.regs_deliverAside p) (d.counts_deliverAside p)

theorem pwEntry (src req cause unit addr data : Nat) (wide : Bool) :
    d.Delivers (d.pwEntry src req cause unit addr data wide) :=
  (of_eq (by simp) (by simp)).trans (cnt (by decide))

theorem failMsix {v : Nat} (cause : Nat) (hv : v < 128) : d.Delivers (d.failMsix v cause) := by
  have hlog : ∀ addr data w : Nat,
      d.Delivers (((d.pwEntry 3 0 cause v addr data false).pendMsix v).setWord (pg .hbr) 0x18 w) := fun _ _ _ =>
    ((pwEntry ..).trans (pendMsix hv)).trans (setWord _ (by decide) (.inl rfl))
  unfold Dev.failMsix
  dsimp only
  split
  · exact hlog _ _ _
  · exact ((hlog _ _ _).trans (deliverAside _)).trans (ifThen _ (pendMsix (Dev.vector_lt _ _)))

theorem sendMsix {v : Nat} (hv : v < 128) : d.Delivers (d.sendMsix v) := by
  unfold Dev.sendMsix
  dsimp only
  split_ifs
  · exact pendMsix hv
  · exact failMsix _ hv
  · exact failMsix _ hv
  · exact trans (of_eq (e := d.emit _) rfl rfl) (cnt (by decide))

theorem deliver (p : Page) : d.Delivers (d.deliver p) :=
  (ifThen _ (sendMsix (d.vector_lt p))).trans (deliverAside p)

theorem deliveries {α : Type} (p : Page) (l : List α) : d.Delivers (l.foldl (fun d _ => d.deliver p) d) := by
  induction l generalizing d with
  | nil => exact refl d
  | cons _ l ih => exact (deliver p).trans ih

end Dev.Delivers

-- ==== events and refusals ====

section

variable (d : Dev) {p q : Page} {o : Nat}

/-- An event changes no counter but what its deliveries count. -/
theorem Dev.count_raise (p : Page) (b : Nat) (hq : q.exists = true) (ho : o < pageSpan) (hk : q.kind ≠ .hbr) :
    (d.raise p b).count q o = d.count q o := by
  unfold Dev.raise Dev.irqEdge
  split
  · rfl
  · exact ((Dev.Delivers.deliveries p _).counts hq ho hk).trans (d.count_setWord _ _ _ _ _)

/-- Nor does a refusal. -/
theorem Dev.count_refuse (p : Page) (hq : q.exists = true) (ho : o < pageSpan) (hk : q.kind ≠ .hbr) :
    (d.refuse p).count q o = d.count q o := by
  unfold Dev.refuse
  dsimp only
  split
  · rfl
  · rw [Dev.count_raise _ p 30 hq ho hk, Dev.count_setFlag]
    rfl

variable (hp : p.exists = true)

include hp

/-- An event sets its bit of IRQ_RAW; what it changes beside comes from its deliveries. -/
theorem Dev.word_raise (b : Nat) (hs : Page.Spared q o) (h : q = p → o ≠ 0x18) : (d.raise p b).word q o = d.word q o := by
  unfold Dev.raise Dev.irqEdge
  split
  · rfl
  · exact ((Dev.Delivers.deliveries p _).words hs).trans
      (d.word_setWord_elsewhere hp hs.exist (by decide) hs.span h)

/-- A refusal changes PAGE_STAT and raises REFUSED. -/
theorem Dev.word_refuse (hs : Page.Spared q o) (h : q = p → o ≠ 0x0C ∧ o ≠ 0x18) :
    (d.refuse p).word q o = d.word q o := by
  unfold Dev.refuse
  dsimp only
  split
  · rfl
  · rw [Dev.word_raise _ hp 30 hs fun e => (h e).2, Dev.setFlag, Dev.setFld_narrow _ _ _ _ (by decide)]
    exact Dev.word_setWord_elsewhere _ hp hs.exist (by decide) hs.span fun e => (h e).1

/-- An event leaves the fields of PAGE_STAT. -/
theorem Dev.fld_raise_stat {f : Fld} (b : Nat) (hf : f.hi < 32) (hoff : f.off = 0x0C) :
    (d.raise p b).fld p f = d.fld p f := by
  rw [Dev.fld_narrow _ _ _ hf, Dev.fld_narrow _ _ _ hf, hoff,
    d.word_raise hp b (Page.spared_header hp (by decide) (by decide)) fun _ => by decide]

/-- After a refusal WRITE_REFUSED is set (R51). -/
theorem Dev.flag_refuse : (d.refuse p).flag p R.PAGE_STAT_WRITE_REFUSED = true := by
  unfold Dev.refuse
  dsimp only
  split
  · assumption
  · rw [Dev.flag, Dev.fld_raise_stat _ hp 30 (by decide) rfl]
    exact Dev.flag_setFlag _ p _ true (by decide) rfl

/-- A refusal leaves the other fields of PAGE_STAT. -/
theorem Dev.fld_refuse_apart {f : Fld} (hoff : f.off = 0x0C) (h : Fld.apart R.PAGE_STAT_WRITE_REFUSED f = true) :
    (d.refuse p).fld p f = d.fld p f := by
  have hf : f.hi < 32 := by
    simp only [Fld.apart, Bool.and_eq_true, decide_eq_true_eq] at h
    exact h.1.1.1.2
  unfold Dev.refuse
  dsimp only
  split
  · rfl
  · rw [Dev.fld_raise_stat _ hp 30 hf hoff, Dev.fld_setFlag_apart _ _ _ _ _ h]
    rfl

end

-- ==== orders ====

/-- An order advances the index of the Adjor page (R490) and changes no other word. -/
theorem Dev.word_issue (d : Dev) (k o sp a x c : Nat) {q : Page} {off : Nat} (hq : q.exists = true) (hk : q.kind ≠ .adj)
    (hoff : off < pageSpan) : (d.issue k o sp a x c).word q off = d.word q off := by
  have hidx : ∀ v, (d.setFld adjPg R.ADJ_ORDER_IDX_INDEX v).word q off = d.word q off := fun v =>
    d.word_setFld_elsewhere v rfl hq (by decide) hoff fun h => absurd (h ▸ rfl) hk
  unfold Dev.issue
  simp only [Dev.when]
  split
  · rw [Dev.word_adjSend, Dev.word_digestStep, hidx]
  · rw [Dev.word_digestStep, hidx]

/-- The Adjor page is not ordered (R490). -/
theorem not_adj_of_isOrdered {p : Page} (h : isOrdered p = true) : p.kind ≠ .adj := by
  intro hk
  simp [isOrdered, hk] at h

/-- Beside the effect of a write on a page, the order it becomes changes no word of that page. -/
theorem Dev.word_act (d : Dev) (a : Access) (eff : Dev → Dev) {p : Page} {o : Nat} (hp : p.exists = true)
    (ho : o < pageSpan) : (d.act a (isOrdered p) eff).word p o = (eff d).word p o := by
  unfold Dev.act
  dsimp only
  rw [Dev.word_written, Dev.when]
  split
  · rename_i h
    simp only [Bool.and_eq_true] at h
    exact Dev.word_issue _ _ _ _ _ _ _ hp (not_adj_of_isOrdered h.1.1) ho
  · rfl

/-- Nor does it change what is staged. -/
theorem Dev.staged_act (d : Dev) (a : Access) (b : Bool) (eff : Dev → Dev) : (d.act a b eff).staged = (eff d).staged := by
  unfold Dev.act
  dsimp only
  rw [Dev.staged_written, Dev.when]
  split
  · exact Dev.staged_orderOf _ _ _
  · rfl

/-- Where the unit issues no orders a write is its effect and the answer. -/
theorem Dev.act_of_not_issues {d : Dev} (a : Access) (b : Bool) (eff : Dev → Dev) (h : d.issues = false) :
    d.act a b eff = (eff d).written a := by
  simp [Dev.act, Dev.when, h]

section

variable (d : Dev) (who : Owner) {p : Page} (off v : Nat) (eff : Dev → Dev) (hp : p.exists = true)

/-- What is staged after an admitted write is what its effect left. -/
theorem Dev.staged_wrote (p : Page) : (d.wrote who p off v eff).staged = (eff d).staged := Dev.staged_act ..

include hp

/-- So is a word of the page. -/
theorem Dev.word_wrote {o : Nat} (ho : o < pageSpan) : (d.wrote who p off v eff).word p o = (eff d).word p o :=
  Dev.word_act d _ eff hp ho

/-- So is a field. -/
theorem Dev.fld_wrote {f : Fld} (hf : f.hi < 32) (ho : f.off < pageSpan) :
    (d.wrote who p off v eff).fld p f = (eff d).fld p f := by
  rw [Dev.fld_narrow _ _ _ hf, Dev.fld_narrow _ _ _ hf, Dev.word_wrote d who off v eff hp ho]

theorem Dev.flag_wrote {f : Fld} (hf : f.hi < 32) (ho : f.off < pageSpan) :
    (d.wrote who p off v eff).flag p f = (eff d).flag p f := by
  rw [Dev.flag, Dev.flag, Dev.fld_wrote d who off v eff hp hf ho]

end

end Sys2Proof.Machine
end

section
/-! SUPPORT. The locks of the page header (R49 to R56): what a request, a release and a write of TORN do, and the
statements about the commands of the header. -/

namespace Sys2Proof.Machine

-- ==== the commands ====

/-- Every page has all words of the common header. -/
theorem absent_header (p : Page) {off : Nat} (h : off < 0x40) : absent p off = false := by
  unfold absent
  split
  · simp
    omega
  · simp
    omega
  · rfl

theorem Dev.regWrite_ctrl (d : Dev) (who : Owner) (p : Page) (v : Nat) : d.regWrite who p 0x08 v = d.pageCtrl who p v := by
  rw [Dev.regWrite, absent_header p (by decide)]
  rfl

theorem Dev.regWrite_stat (d : Dev) (who : Owner) (p : Page) (v : Nat) : d.regWrite who p 0x0C v = d.pageStat who p v := by
  rw [Dev.regWrite, absent_header p (by decide)]
  rfl

/-- An admitted 32-bit write does what a write of the register does. -/
theorem exec_registerWrite_of_admits {s : State} {who : Owner} {p : Page} {off : Nat} (v : BitVec 64)
    (hadm : s.begun.admits who p off = true) :
    exec (.registerWrite who (.reg p off) 4 v) s = .next (s.ends (s.begun.wrote who p off v.toNat
      (fun d => d.regWrite who p off (v.toNat % 2 ^ 32)))) := by
  obtain ⟨hrel, hp⟩ := Dev.exists_of_admits hadm
  rw [exec_registerWrite, Dev.access_reg _ hrel (Dev.heldWrite_of_write _ rfl) (resolve_reg off hp), if_pos rfl]
  exact State.next_ends ((Dev.gate_of_admits _ (wr who p off v.toNat) _ _ _ hadm).trans (Dev.wrote_congr _ _ _ _ _ _ _ rfl))

section

variable {s : State} {who : Owner} {p : Page}

/-- LOCK_ACQUIRE is a request for the lock alone. -/
theorem exec_lockAcquire (hadm : s.begun.admits who p 0x08 = true) : exec (.lockAcquire who p) s
    = .next (s.ends (s.begun.wrote who p 0x08 0x100 (fun d => d.lockTake who p))) :=
  State.next_ends (Dev.gateW_of_admits _ _ _ _ _ _ hadm)

/-- LOCK_RELEASE is a release alone. -/
theorem exec_lockRelease (hadm : s.begun.admits who p 0x08 = true) : exec (.lockRelease who p) s
    = .next (s.ends (s.begun.wrote who p 0x08 0x200 (fun d => d.lockDrop who p))) :=
  State.next_ends (Dev.gateW_of_admits _ _ _ _ _ _ hadm)

/-- COMMIT is a commit alone. -/
theorem exec_commit (hadm : s.begun.admits who p 0x08 = true) : exec (.commit who p) s
    = .next (s.ends (s.begun.wrote who p 0x08 0x10 (fun d => d.commitPage who p))) :=
  State.next_ends (Dev.gateW_of_admits _ _ _ _ _ _ hadm)

/-- TORN_CLEAR is a write of 1 to TORN alone. -/
theorem exec_tornClear (hadm : s.begun.admits who p 0x0C = true) : exec (.tornClear who p) s
    = .next (s.ends (s.begun.wrote who p 0x0C 0x100 (fun d => d.tornClear who p))) :=
  State.next_ends (Dev.gateW_of_admits _ _ _ _ _ _ hadm)

theorem exec_lockOwnerReset (owner : Owner) (s : State) :
    exec (.lockOwnerReset owner) s = .next (s.ends (s.begun.ownerEvent owner.code)) := rfl

theorem exec_faultInject (checker : Byte) (hadm : s.begun.admits who p 0x28 = true) : exec (.faultInject who p checker) s
    = .next (s.ends (s.begun.wrote who p 0x28 (2 ^ 31 + checker.toNat) (fun d => d.fltInj p (2 ^ 31 + checker.toNat)))) :=
  State.next_ends (Dev.gateW_of_admits _ _ _ _ _ _ hadm)

end

-- ==== requests, releases and TORN ====

section

variable {d : Dev} {who : Owner} {p : Page}

theorem Owner.code_lt (who : Owner) : who.code < 16 := by
  cases who <;> simp only [Owner.code]
  all_goals omega

theorem Dev.holds_iff : d.holds p who = true ↔ d.flag p R.PAGE_LOCK_HELD = true ∧ d.lockOwner p = who.code := by
  simp [Dev.holds]

/-- A free lock is granted, and GRANT_SEQ counts (R49). -/
theorem Dev.lockTake_of_free (h : d.flag p R.PAGE_LOCK_HELD = false) : d.lockTake who p =
    (((d.setFlag p R.PAGE_LOCK_HELD true).setFld p R.PAGE_LOCK_OWNER who.code).incWrap p R.PAGE_LOCK_GRANT_SEQ).when
      (p.kind == .sch) (fun d => d.setSched p.inst { d.sched p.inst with adminWrites := 0 }) := by
  simp [Dev.lockTake, h]

/-- A request for a lock of another owner is refused (R49). -/
theorem Dev.lockTake_of_other (h : d.flag p R.PAGE_LOCK_HELD = true) (ho : d.lockOwner p ≠ who.code) :
    d.lockTake who p = d.refuse p := by
  simp [Dev.lockTake, h, ho]

/-- A request of the holder changes nothing (R49). -/
theorem Dev.lockTake_of_holds (h : d.holds p who = true) : d.lockTake who p = d := by
  obtain ⟨hheld, howner⟩ := Dev.holds_iff.1 h
  simp [Dev.lockTake, hheld, howner]

/-- A release by the holder frees the lock; what is staged and the holder's open shadow are given up (R54, R160). -/
theorem Dev.lockDrop_of_holds (h : d.holds p who = true) (hgone : (p.kind == .bur && d.bur.ownerGone) = false) :
    d.lockDrop who p =
      ((d.unstage p).when (p.kind == .bur && (d.unstage p).ownsShadow who.code) Dev.edAbandon).lockFree p := by
  simp [Dev.lockDrop, h, hgone]

/-- Any other release is refused (R54, R55). -/
theorem Dev.lockDrop_of_refused (h : d.holds p who = false ∨ p.kind = .bur ∧ d.bur.ownerGone = true) :
    d.lockDrop who p = d.refuse p := by
  rw [Dev.lockDrop, if_pos]
  rcases h with h | ⟨hk, hgone⟩
  · simp [h]
  · simp [hk, hgone]

theorem Dev.tornClear_of_holds (h : d.holds p who = true) :
    d.tornClear who p = (d.setFlag p R.PAGE_STAT_TORN false).setWord p 0x14 0 := if_pos h

theorem Dev.tornClear_of_not_holds (h : d.holds p who = false) : d.tornClear who p = d.refuse p := by
  simp [Dev.tornClear, h]

/-- A COMMIT by the holder applies what is staged (R50, R52). -/
theorem Dev.commitPage_of_holds (h : d.holds p who = true) (htorn : d.flag p R.PAGE_STAT_TORN = false)
    (hpmk : (p.kind == .pmk && d.pmkBad) = false) :
    d.commitPage who p = d.showPin (fun d => (d.applyStaged p).committed d p) := by
  simp [Dev.commitPage, h, htorn, hpmk]

/-- A GO of FLT_INJ with the index of a checker of the page arms it unless one is armed already (R143). -/
theorem Dev.fltInj_go (checker : Byte) (h : (checkers p).contains checker.toNat = true) :
    d.fltInj p (2 ^ 31 + checker.toNat) = (d.setFld p R.FLT_INJ_CHECKER checker.toNat).when
      (!(d.setFld p R.FLT_INJ_CHECKER checker.toNat).armed.any (fun x => x.1 == p.idx)) (fun d =>
        Dev.injectNow { d with armed := d.armed ++ [(p.idx, checker.toNat)] } p checker.toNat) := by
  have hlt : checker.toNat < 256 := checker.isLt
  have hchecker : (2 ^ 31 + checker.toNat) % 256 = checker.toNat := by omega
  have hgo : bitAt (2 ^ 31 + checker.toNat) 31 = true := by
    simp only [bitAt, beq_iff_eq]
    omega
  rw [Dev.fltInj, hchecker, hgo, h]
  rfl

/-- Setting a field leaves which checkers are armed. -/
theorem Dev.armed_setFld (f : Fld) (v : Nat) : (d.setFld p f v).armed = d.armed := by
  unfold Dev.setFld
  split
  · rfl
  · rfl

end

-- ==== what they leave ====

section

variable {d : Dev} {who : Owner} {p : Page}

/-- Setting a field leaves the other words of its page. -/
theorem Dev.word_setFld_off {f : Fld} {v o : Nat} (hf : f.hi < 32) (h : f.off ≠ o) :
    (d.setFld p f v).word p o = d.word p o := by
  rw [Dev.setFld_narrow _ _ _ _ hf, Dev.word_setWord_off _ _ _ _ _ h]

/-- Setting a word leaves the fields of the others. -/
theorem Dev.fld_setWord_off {f : Fld} {o v : Nat} (hf : f.hi < 32) (h : o ≠ f.off) :
    (d.setWord p o v).fld p f = d.fld p f := by
  rw [Dev.fld_narrow _ _ _ hf, Dev.fld_narrow _ _ _ hf, Dev.word_setWord_off _ _ _ _ _ h]

theorem Dev.fld_when (b : Bool) (f : Dev → Dev) (g : Fld) (h : ∀ d : Dev, (f d).fld p g = d.fld p g) :
    (d.when b f).fld p g = d.fld p g := by
  unfold Dev.when
  split
  · exact h d
  · rfl

/-- The grant names the owner (R49). -/
theorem Dev.lockTake_grants (h : d.flag p R.PAGE_LOCK_HELD = false) :
    (d.lockTake who p).flag p R.PAGE_LOCK_HELD = true ∧ (d.lockTake who p).lockOwner p = who.code
      ∧ (d.lockTake who p).fld p R.PAGE_LOCK_GRANT_SEQ = (d.fld p R.PAGE_LOCK_GRANT_SEQ + 1) % 256
      ∧ (d.lockTake who p).staged = d.staged := by
  have hfld : ∀ f : Fld, (d.lockTake who p).fld p f = (((d.setFlag p R.PAGE_LOCK_HELD true).setFld p R.PAGE_LOCK_OWNER
      who.code).incWrap p R.PAGE_LOCK_GRANT_SEQ).fld p f := fun f => by
    rw [Dev.lockTake_of_free h]
    exact Dev.fld_when _ _ f fun _ => rfl
  have howner : who.code % 16 = who.code := Nat.mod_eq_of_lt (Owner.code_lt who)
  refine ⟨?_, ?_, ?_, ?_⟩
  · rw [Dev.flag, hfld, Dev.incWrap, Dev.fld_setFld_apart _ _ _ _ _ (by decide), Dev.fld_setFld_apart _ _ _ _ _ (by decide)]
    exact Dev.flag_setFlag d p _ true (by decide) rfl
  · rw [Dev.lockOwner, hfld, Dev.incWrap, Dev.fld_setFld_apart _ _ _ _ _ (by decide),
      Dev.fld_setFld _ _ _ _ (by decide) (by decide)]
    exact howner
  · rw [hfld, Dev.incWrap, Dev.fld_setFld _ _ _ _ (by decide) (by decide), Dev.fld_setFld_apart _ _ _ _ _ (by decide),
      Dev.fld_setFlag_apart _ _ _ _ _ (by decide)]
    rfl
  · rw [Dev.lockTake_of_free h, Dev.when]
    split
    · rw [Dev.staged_setSched, Dev.staged_incWrap, Dev.staged_setFld, Dev.staged_setFlag]
    · rw [Dev.staged_incWrap, Dev.staged_setFld, Dev.staged_setFlag]

/-- An abandoned shadow leaves the words of the header but IRQ_RAW. -/
theorem Dev.word_edAbandon {o : Nat} (hp : p.exists = true) (ho : o < 0x40) (h : o ≠ 0x18) :
    d.edAbandon.word p o = d.word p o := by
  unfold Dev.edAbandon
  split
  · rw [Dev.word_raise _ rfl _ (Page.spared_header hp ho h) fun _ => h, Dev.shadowClose]
    have hspan : o < pageSpan := by unfold pageSpan; omega
    rw [Dev.word_setFld_elsewhere _ _ rfl hp (by decide) hspan fun _ => by
        show o ≠ 0xD8 ∧ o ≠ 0xDC
        omega,
      Dev.word_setWord_elsewhere _ rfl hp (by decide) hspan fun _ => by omega]
    rfl
  · rfl

theorem Dev.staged_edAbandon : d.edAbandon.staged = d.staged := by
  unfold Dev.edAbandon Dev.shadowClose
  split
  · simp
  · rfl

/-- A release by the holder leaves the words of the header but PAGE_LOCK and IRQ_RAW. -/
theorem Dev.word_lockDrop_of_holds {o : Nat} (h : d.holds p who = true) (hgone : (p.kind == .bur && d.bur.ownerGone) = false)
    (hp : p.exists = true) (ho : o < 0x40) (hlock : o ≠ 0x10) (hraw : o ≠ 0x18) :
    (d.lockDrop who p).word p o = d.word p o := by
  rw [Dev.lockDrop_of_holds h hgone, Dev.lockFree, Dev.word_setFld_off (by decide) hlock.symm, Dev.setFlag,
    Dev.word_setFld_off (by decide) hlock.symm, Dev.when]
  split
  · rw [Dev.word_edAbandon hp ho hraw, Dev.word_unstage]
  · rw [Dev.word_unstage]

/-- It empties the staging copy of the page. -/
theorem Dev.staged_lockDrop_of_holds (h : d.holds p who = true) (hgone : (p.kind == .bur && d.bur.ownerGone) = false) :
    (d.lockDrop who p).staged = d.staged.filter (fun x => x.key / pageSpan != p.idx) := by
  rw [Dev.lockDrop_of_holds h hgone, Dev.lockFree, Dev.staged_setFld, Dev.staged_setFlag, Dev.when]
  split
  · exact Dev.staged_edAbandon
  · rfl

/-- It leaves no owner of the lock. -/
theorem Dev.lockFree_frees : (d.lockFree p).flag p R.PAGE_LOCK_HELD = false ∧ (d.lockFree p).lockOwner p = 0 :=
  ⟨(Dev.flag_setFld_apart _ _ _ _ _ (by decide)).trans (Dev.flag_setFlag d p _ false (by decide) rfl),
    Dev.fld_setFld _ _ _ 0 (by decide) (by decide)⟩

end

-- ==== a write of PAGE_STAT (R56) ====

section

variable {d : Dev} {p : Page}

/-- The device after a write of PAGE_STAT has cleared what every party may clear. -/
def Dev.statCleared (d : Dev) (p : Page) (v : Nat) : Dev :=
  (d.when (bitAt v 10) (fun d => d.setFlag p R.PAGE_STAT_WRITE_REFUSED false)).when (bitAt v 9)
    (fun d => d.setFlag p R.PAGE_STAT_CONFLICT false)

/-- A write of 1 to TORN acts once the other flags are cleared. -/
theorem Dev.pageStat_of_torn (who : Owner) {v : Nat} (h : bitAt v 8 = true) :
    d.pageStat who p v = (d.statCleared p v).tornClear who p := by
  rw [Dev.pageStat, h]
  rfl

/-- Clearing them leaves every other field of the header. -/
theorem Dev.fld_statCleared (d : Dev) (p : Page) (v : Nat) {f : Fld} (hr : Fld.apart R.PAGE_STAT_WRITE_REFUSED f = true)
    (hc : Fld.apart R.PAGE_STAT_CONFLICT f = true) : (d.statCleared p v).fld p f = d.fld p f := by
  rw [Dev.statCleared, Dev.fld_when _ _ _ fun _ => Dev.fld_setFlag_apart _ _ _ _ _ hc,
    Dev.fld_when _ _ _ fun _ => Dev.fld_setFlag_apart _ _ _ _ _ hr]

theorem Dev.holds_statCleared (d : Dev) (p : Page) (v : Nat) (who : Owner) :
    (d.statCleared p v).holds p who = d.holds p who := by
  simp only [Dev.holds, Dev.flag, Dev.lockOwner]
  rw [d.fld_statCleared p v (by decide) (by decide), d.fld_statCleared p v (by decide) (by decide)]

theorem Dev.word_statCleared (d : Dev) (p : Page) (v : Nat) {o : Nat} (h : 0x0C ≠ o) :
    (d.statCleared p v).word p o = d.word p o := by
  unfold Dev.statCleared Dev.when
  split_ifs
  all_goals simp only [Dev.setFlag, Dev.word_setFld_off (p := p) (f := R.PAGE_STAT_WRITE_REFUSED) (by decide) h,
    Dev.word_setFld_off (p := p) (f := R.PAGE_STAT_CONFLICT) (by decide) h]

end

-- ==== the statements ====

/-- Settles O36: each command by the lemma that says what its operation does under the conditions named. -/
theorem headerCommandsComplete : Obligations.HeaderCommandsComplete := by
  intro s who p owner checker d
  refine ⟨?acquire, ?release, ?commit, ?torn, exec_lockOwnerReset owner s, ?arm, ?again⟩
  case acquire =>
    intro hadm hfree
    exact (exec_lockAcquire hadm).trans (State.next_wrote (Dev.lockTake_of_free hfree))
  case release =>
    intro hadm hholds hgone
    exact (exec_lockRelease hadm).trans (State.next_wrote (Dev.lockDrop_of_holds hholds hgone))
  case commit =>
    intro hadm hholds htorn hpmk
    exact (exec_commit hadm).trans (State.next_wrote (Dev.commitPage_of_holds hholds htorn hpmk))
  case torn =>
    intro hadm hholds
    exact (exec_tornClear hadm).trans (State.next_wrote (Dev.tornClear_of_holds hholds))
  case arm =>
    intro hadm hchecker hidle
    refine (exec_faultInject checker hadm).trans (State.next_wrote ((Dev.fltInj_go checker hchecker).trans ?_))
    rw [Dev.armed_setFld, hidle]
    rfl
  case again =>
    intro hadm hchecker harmed
    refine (exec_faultInject checker hadm).trans (State.next_wrote ((Dev.fltInj_go checker hchecker).trans ?_))
    rw [Dev.armed_setFld, harmed]
    rfl

/-- Settles O11: an admitted write of PAGE_CTRL runs its parts one after the other. -/
theorem pageControlOrder : Obligations.PageControlOrder := by
  intro s who p v d w hadm
  refine (exec_registerWrite_of_admits v hadm).trans (State.next_wrote ?_)
  simp only [Dev.regWrite_ctrl, Dev.pageCtrl, Dev.when, beq_iff_eq, Bool.or_eq_true]
  rfl

/-- Settles O12: beside the flags that every party clears, the holder's write clears TORN, and another's is refused. -/
theorem onlyTheHolderClearsTorn : Obligations.OnlyTheHolderClearsTorn := by
  intro s who p v d hadm htorn
  obtain ⟨_, hp⟩ := Dev.exists_of_admits hadm
  let e := d.statCleared p (v.toNat % 2 ^ 32)
  have hholds : e.holds p who = d.holds p who := d.holds_statCleared p _ who
  have heff : d.regWrite who p 0x0C (v.toNat % 2 ^ 32) = e.tornClear who p :=
    (d.regWrite_stat who p _).trans (Dev.pageStat_of_torn who htorn)
  refine ⟨fun h => ?holder, fun h => ?other⟩
  case holder =>
    refine ⟨d.wrote who p 0x0C v.toNat fun _ => (e.setFlag p R.PAGE_STAT_TORN false).setWord p 0x14 0,
      (exec_registerWrite_of_admits v hadm).trans
        (State.next_wrote (heff.trans (Dev.tornClear_of_holds (hholds.trans h)))), ?_, ?_⟩
    · rw [Dev.flag_wrote _ _ _ _ _ hp (by decide) (by decide), Dev.flag, Dev.fld_setWord_off (by decide) (by decide)]
      exact Dev.flag_setFlag e p _ false (by decide) rfl
    · rw [Dev.word_wrote _ _ _ _ _ hp (by decide), Dev.word_setWord_same, Nat.zero_mod]
  case other =>
    refine ⟨d.wrote who p 0x0C v.toNat fun _ => e.refuse p,
      (exec_registerWrite_of_admits v hadm).trans
        (State.next_wrote (heff.trans (Dev.tornClear_of_not_holds (hholds.trans h)))), ?_, ?_, ?_⟩
    · rw [Dev.flag_wrote _ _ _ _ _ hp (by decide) (by decide), Dev.flag, Dev.fld_refuse_apart e hp rfl (by decide),
        d.fld_statCleared p _ (by decide) (by decide)]
      rfl
    · rw [Dev.word_wrote _ _ _ _ _ hp (by decide),
        Dev.word_refuse e hp (Page.spared_header hp (by decide) (by decide)) fun _ => by decide,
        d.word_statCleared p _ (by decide)]
    · rw [Dev.flag_wrote _ _ _ _ _ hp (by decide) (by decide), Dev.flag_refuse e hp]

/-- A refusal leaves PAGE_LOCK and the staging copy and sets WRITE_REFUSED, whatever write met it. -/
theorem exec_refused {s : State} {c : Instr} {who : Owner} {p : Page} {off v : Nat} (hp : p.exists = true)
    (hexec : exec c s = .next (s.ends (s.begun.wrote who p off v fun d => d.refuse p))) :
    ∃ d', exec c s = .next (s.ends d') ∧ d'.word p 0x10 = s.begun.word p 0x10 ∧ d'.staged = s.begun.staged
      ∧ d'.flag p R.PAGE_STAT_WRITE_REFUSED = true := by
  refine ⟨_, hexec, ?_, ?_, ?_⟩
  · rw [Dev.word_wrote _ _ _ _ _ hp (by decide)]
    exact Dev.word_refuse _ hp (Page.spared_header hp (by decide) (by decide)) fun _ => by decide
  · rw [Dev.staged_wrote, Dev.staged_refuse]
  · rw [Dev.flag_wrote _ _ _ _ _ hp (by decide) (by decide), Dev.flag_refuse _ hp]

/-- Settles O13: each request and each release by the lemma that says what it does with the lock as it stands. -/
theorem locksPassByRequest : Obligations.LocksPassByRequest := by
  intro s who p d hadm
  obtain ⟨_, hp⟩ := Dev.exists_of_admits hadm
  have hacquire := exec_lockAcquire hadm
  have hrelease := exec_lockRelease hadm
  refine ⟨?granted, ?barred, ?kept, ?notHeld, ?burKept, ?freed⟩
  case granted =>
    intro hfree
    obtain ⟨hheld, howner, hseq, hstaged⟩ := Dev.lockTake_grants (who := who) hfree
    refine ⟨_, hacquire, ?_, ?_, ?_, ?_⟩
    · rw [Dev.flag_wrote _ _ _ _ _ hp (by decide) (by decide), hheld]
    · rw [Dev.lockOwner, Dev.fld_wrote _ _ _ _ _ hp (by decide) (by decide)]
      exact howner
    · rw [Dev.fld_wrote _ _ _ _ _ hp (by decide) (by decide), hseq]
    · rw [Dev.staged_wrote, hstaged]
  case barred =>
    intro hheld howner
    exact exec_refused hp (hacquire.trans (State.next_wrote (Dev.lockTake_of_other hheld howner)))
  case kept =>
    intro hholds
    refine ⟨_, hacquire.trans (State.next_wrote (g := id) (Dev.lockTake_of_holds hholds)), ?_, ?_, ?_⟩
    · rw [Dev.word_wrote _ _ _ _ _ hp (by decide)]
      rfl
    · rw [Dev.word_wrote _ _ _ _ _ hp (by decide)]
      rfl
    · rw [Dev.staged_wrote]
      rfl
  case notHeld =>
    intro hnot
    exact exec_refused hp (hrelease.trans (State.next_wrote (Dev.lockDrop_of_refused (.inl hnot))))
  case burKept =>
    intro hk hgone
    exact exec_refused hp (hrelease.trans (State.next_wrote (Dev.lockDrop_of_refused (.inr ⟨hk, hgone⟩))))
  case freed =>
    intro hholds hgone
    have hgone' : (p.kind == .bur && d.bur.ownerGone) = false := by
      by_cases hk : p.kind = .bur
      · rw [hgone hk, Bool.and_false]
      · rw [beq_false_of_ne hk, Bool.false_and]
    have hdrop := Dev.lockDrop_of_holds hholds hgone'
    refine ⟨_, hrelease, ?_, ?_, ?_, ?_, ?_⟩
    · rw [Dev.flag_wrote _ _ _ _ _ hp (by decide) (by decide), hdrop]
      exact Dev.lockFree_frees.1
    · rw [Dev.lockOwner, Dev.fld_wrote _ _ _ _ _ hp (by decide) (by decide), hdrop]
      exact Dev.lockFree_frees.2
    · rw [Dev.stagedOf, Dev.staged_wrote, Dev.staged_lockDrop_of_holds hholds hgone', List.filter_filter]
      simp
    · rw [Dev.flag_wrote _ _ _ _ _ hp (by decide) (by decide), Dev.flag, Dev.fld_narrow _ _ _ (by decide),
        Dev.word_lockDrop_of_holds hholds hgone' hp (by decide) (by decide) (by decide)]
      rfl
    · rw [Dev.word_wrote _ _ _ _ _ hp (by decide),
        Dev.word_lockDrop_of_holds hholds hgone' hp (by decide) (by decide) (by decide)]

end Sys2Proof.Machine
end

section
/-! SUPPORT. What a delivery and a refused write leave (R44, R51), and the frame of the header's small commands. -/

namespace Sys2Proof.Machine

-- ==== one event, one delivery (R44) ====

theorem bitAt_eq_testBit (w i : Nat) : bitAt w i = w.testBit i := by
  rw [Nat.testBit_eq_decide_div_mod_eq, bitAt]
  rfl

/-- The one index below `n` at which a number has a 1. -/
theorem onesOf_single {w n b : Nat} {m : Bool} (hb : b < n) (h : ∀ i < n, bitAt w i = (decide (i = b) && m)) :
    onesOf w n = if m then [b] else [] := by
  have hf : onesOf w n = (List.range n).filter (fun i => decide (i = b) && m) :=
    List.filter_congr fun i hi => h i (List.mem_range.1 hi)
  rw [hf]
  cases m with
  | false => simp
  | true =>
    simp only [Bool.and_true, if_true]
    rw [List.filter_eq, List.count_eq_one_of_mem List.nodup_range (List.mem_range.2 hb)]
    rfl

/-- Of a bit of IRQ_RAW that goes from 0 to 1 IRQ_STAT shows a rise where IRQ_MASK lets it through. -/
theorem rise_of_raw {raw mask b : Nat} (hraw : raw < 2 ^ 32) (hb : b < 32) (h : bitAt raw b = false) :
    onesOf ((raw ||| 2 ^ b) &&& mask &&& (0xFFFFFFFF - (raw &&& mask))) 32 = if bitAt mask b then [b] else [] := by
  refine onesOf_single hb fun i hi => ?_
  simp only [bitAt_eq_testBit] at h ⊢
  rw [Nat.testBit_and, Nat.testBit_and, Nat.testBit_or, Nat.testBit_two_pow,
    testBit_compl (Nat.lt_of_le_of_lt Nat.and_le_left hraw) hi, Nat.testBit_and]
  by_cases hbi : i = b
  · subst hbi
    simp [h]
  · simp [hbi, Ne.symm hbi]

/-- Settles O20: the rise of IRQ_STAT is the bit itself or nothing, and every bit that rises is one delivery. -/
theorem raisedOnceDeliveredOnce : Obligations.RaisedOnceDeliveredOnce := by
  intro d p b hb hraw _ d'
  rw [Dev.raise]
  split
  · rfl
  · rename_i hclear
    have hset : d.word p 0x18 ||| 2 ^ b < 2 ^ 32 := Nat.or_lt_two_pow hraw (Nat.pow_lt_pow_right (by decide) hb)
    have hstat : d'.irqStat p = (d.word p 0x18 ||| 2 ^ b) &&& d.word p 0x1C := by
      rw [Dev.irqStat, Dev.word_setWord_same, Dev.word_setWord_off _ _ _ _ _ (by decide), Nat.mod_eq_of_lt hset]
    have hrise := rise_of_raw (mask := d.word p 0x1C) hraw hb (by simpa using hclear)
    rw [Dev.irqEdge]
    show (onesOf (d'.irqStat p &&& (0xFFFFFFFF - d.irqStat p)) 32).foldl (fun d _ => d.deliver p) d' = _
    rw [hstat, Dev.irqStat, hrise]
    split
    · rfl
    · rfl

-- ==== what the gate lets through ====

/-- A write that reaches a page where nothing makes it wait: it can change nothing, or is refused, or acts. -/
theorem Dev.gate_of_clear (d : Dev) (a : Access) {p : Page} {off : Nat} (eff : Dev → Dev) (hrel : d.start.released = true)
    (hp : p.exists = true) (hreach : d.reaches a.who p = true) (hsize : sizeOk (.reg p off) true a.size off = true)
    (hready : d.domainReady p.domain = true) (hwait : d.waits p.domain = false) (hsnap : d.snapBusy.contains p.idx = false)
    (hord : isOrdered p = true → d.orderBarred = false ∧ d.noCredit = false ∧ d.waits creditTag = false) :
    d.gate a p off eff =
      if inert p off a.size then d.written a
      else if refusesPeer p && a.who == .peer then (d.refuse p).written a
      else if msixArea p off && a.who != .host then (d.refuse p).written a
      else if !openOffset p off && !a.ownJudge p off && !d.mayWrite p a.who then (d.refuse p).written a
      else d.act a (isOrdered p) eff := by
  have hbarred : (isOrdered p && d.orderBarred) = false := by
    cases ho : isOrdered p with
    | false => rfl
    | true => exact (hord ho).1
  have hcredit : (isOrdered p && (d.noCredit || d.waits creditTag)) = false := by
    cases ho : isOrdered p with
    | false => rfl
    | true => simp [(hord ho).2]
  simp only [Dev.gate, hrel, hp, hreach, hsize, hready, hwait, hsnap, hbarred, hcredit, Bool.not_true, Bool.or_self,
    Bool.false_eq_true, if_false]

/-- Settles O14: the gate refuses the write, and a refusal changes PAGE_STAT, IRQ_RAW and what its delivery changes. -/
theorem lockBarsOtherOwners : Obligations.LockBarsOtherOwners := by
  intro s who p off v d hrel hp hreach hsize hready hwait hsnap hord hheld howner hopen hinert hgo
  let a : Access := { who := who, target := .reg p off, write := true, size := 4, data := v.toNat }
  have hmay : d.mayWrite p who = false := by simp [Dev.mayWrite, hheld, howner]
  have hmsix : msixArea p off = false := by
    simp only [openOffset, Bool.or_eq_false_iff] at hopen
    exact hopen.1.2
  have hjudge : a.ownJudge p off = false := by
    simp only [Access.ownJudge, Bool.and_eq_false_iff, beq_eq_false_iff_ne]
    by_cases hk : p.kind = .bur
    · by_cases hoff : off = 0xC8
      · exact .inr (hgo hk hoff)
      · exact .inl (.inr hoff)
    · exact .inl (.inl hk)
  have hacc : d.access a = (d.refuse p).written a := by
    rw [Dev.access_reg d hrel (Dev.heldWrite_of_write d rfl) (resolve_reg off hp), if_pos rfl,
      Dev.gate_of_clear d a _ hrel hp hreach hsize hready hwait hsnap hord]
    simp [hinert, hmsix, hopen, hjudge, hmay, a]
  refine ⟨_, (exec_registerWrite who (.reg p off) 4 v s).trans (State.next_ends hacc), ?_⟩
  refine ⟨?refused, by simp, by simp, by simp, by simp, by simp, by simp, by simp, by simp,
    fun q o hq ho hk hne => ⟨?word, ?count⟩⟩
  case refused =>
    rw [← Dev.flag_refuse d hp]
    exact congrArg (· == 1) (congrArg (bits · 10 10) (Dev.word_written _ a p 0x0C))
  case word => rw [Dev.word_written, Dev.word_refuse d hp ⟨hq, ho, fun h => absurd h hk⟩ hne]
  case count => rw [Dev.count_written, Dev.count_refuse d p hq ho hk]

-- ==== snapshots (R58) ====

/-- What a snapshot of a page holds: the counters of the page as they stand, and the snapshots of the other pages. -/
def Dev.capturedSnaps (d : Dev) (p : Page) : NMap Nat :=
  (d.counts.filter (fun e => e.1 / pageSpan == p.idx)).foldl (fun m e => m.set e.1 e.2)
    (d.snaps.filter (fun e => e.1 / pageSpan != p.idx))

/-- The device with the counters of a page captured, before the time of the snapshot is noted. -/
def Dev.snapCapture (d : Dev) (p : Page) : Dev :=
  ({ d with snaps := d.capturedSnaps p, snapBusy := d.snapBusy ++ [p.idx] } : Dev).when (p.kind == .frk)
    (fun d => { d with frk := { d.frk with snaps := d.frk.cnts } })

theorem Dev.snapGo_eq (d : Dev) (p : Page) (v : Nat) : d.snapGo p v =
    if !bitAt v 0 || d.snapBusy.contains p.idx then d
    else (d.snapCapture p).setFld p R.SNAP_TIME_TIME (d.snapCapture p).time := rfl

/-- A capture changes snapshots alone. -/
theorem Dev.snapCapture_eq (d : Dev) (p : Page) :
    ∃ frk, d.snapCapture p = { d with snaps := d.capturedSnaps p, snapBusy := d.snapBusy ++ [p.idx], frk := frk } := by
  unfold Dev.snapCapture Dev.when
  split
  · exact ⟨_, rfl⟩
  · exact ⟨_, rfl⟩

-- ==== the frame of the header's commands ====

/-- Beside the first 0x50 bytes of a page, and the host bridge a delivery may reach, the two devices hold the same words,
counters and bytes, and the same accesses, frames and messages wait. -/
structure Dev.HeaderFrame (p : Page) (d d' : Dev) : Prop where
  places : ∀ (q : Page) (o : Nat), q.exists = true → o < 0x20000 → q.kind ≠ .hbr → (q = p → 0x50 ≤ o) →
    d'.word q o = d.word q o ∧ d'.count q o = d.count q o
  rest : d'.stalls = d.stalls ∧ d'.hall = d.hall ∧ d'.bur = d.bur
    ∧ d'.cans = d.cans ∧ d'.dst = d.dst ∧ d'.flash = d.flash

namespace Dev.HeaderFrame

variable {d e e' : Dev} {p : Page}

/-- An update of other kinds of state. -/
theorem of_eq (hregs : e.regs = d.regs) (hcounts : e.counts = d.counts) (hrest : e.stalls = d.stalls ∧ e.hall = d.hall
    ∧ e.bur = d.bur ∧ e.cans = d.cans ∧ e.dst = d.dst ∧ e.flash = d.flash) : HeaderFrame p d e :=
  ⟨fun q o _ _ _ _ => ⟨by simp only [Dev.word, hregs], by simp only [Dev.count, hcounts]⟩, hrest⟩

theorem refl (d : Dev) : HeaderFrame p d d := of_eq rfl rfl ⟨rfl, rfl, rfl, rfl, rfl, rfl⟩

theorem trans (h : HeaderFrame p d e) (h' : HeaderFrame p e e') : HeaderFrame p d e' := by
  obtain ⟨hs, hh, hb, hc, hd, hf⟩ := h.rest
  obtain ⟨hs', hh', hb', hc', hd', hf'⟩ := h'.rest
  refine ⟨fun q o hq ho hk hne => ?_, hs'.trans hs, hh'.trans hh, hb'.trans hb, hc'.trans hc, hd'.trans hd, hf'.trans hf⟩
  obtain ⟨hw, hn⟩ := h.places q o hq ho hk hne
  obtain ⟨hw', hn'⟩ := h'.places q o hq ho hk hne
  exact ⟨hw'.trans hw, hn'.trans hn⟩

theorem ifThen (b : Bool) {f : Dev → Dev} (h : HeaderFrame p d (f d)) : HeaderFrame p d (d.when b f) := by
  unfold Dev.when
  split
  · exact h
  · exact refl d

/-- Fields of the header. -/
theorem setFld (hp : p.exists = true) {f : Fld} (v : Nat) (hf : f.off + 4 < 0x50) : HeaderFrame p d (d.setFld p f v) :=
  ⟨fun q o hq ho _ hne => ⟨d.word_setFld_elsewhere v hp hq (by unfold pageSpan; omega) ho fun h => by
      have := hne h
      omega,
    d.count_setFld _ _ _ _ _⟩, by simp⟩

theorem setFlag (hp : p.exists = true) {f : Fld} (b : Bool) (hf : f.off + 4 < 0x50) : HeaderFrame p d (d.setFlag p f b) :=
  setFld hp _ hf

theorem incWrap (hp : p.exists = true) {f : Fld} (hf : f.off + 4 < 0x50) : HeaderFrame p d (d.incWrap p f) :=
  setFld hp _ hf

theorem setSched (n : Nat) (x : Sched) : HeaderFrame p d (d.setSched n x) := of_eq rfl rfl ⟨rfl, rfl, rfl, rfl, rfl, rfl⟩

theorem setWord (hp : p.exists = true) {off : Nat} (v : Nat) (hoff : off < 0x50) : HeaderFrame p d (d.setWord p off v) :=
  ⟨fun q o hq ho _ hne => ⟨d.word_setWord_elsewhere hp hq (by unfold pageSpan; omega) ho fun h => by
      have := hne h
      omega,
    d.count_setWord _ _ _ _ _⟩, by simp⟩

theorem refuse (hp : p.exists = true) : HeaderFrame p d (d.refuse p) :=
  ⟨fun q o hq ho hk hne => ⟨d.word_refuse hp ⟨hq, ho, fun h => absurd h hk⟩ fun h => by have := hne h; omega,
    d.count_refuse p hq ho hk⟩, by simp⟩

theorem written (a : Access) : HeaderFrame p d (d.written a) := of_eq (by simp) (by simp) (by simp)

-- ==== the effects ====

theorem lockTake (hp : p.exists = true) (who : Owner) : HeaderFrame p d (d.lockTake who p) := by
  unfold Dev.lockTake
  split_ifs
  · exact trans (trans (trans (setFlag hp _ (by decide)) (setFld hp _ (by decide))) (incWrap hp (by decide)))
      (ifThen _ (setSched _ _))
  · exact refl d
  · exact refuse hp

/-- A release on a page other than BUR's closes no shadow. -/
theorem lockDrop (hp : p.exists = true) (hk : p.kind ≠ .bur) (who : Owner) : HeaderFrame p d (d.lockDrop who p) := by
  have hbur : (p.kind == .bur) = false := beq_false_of_ne hk
  unfold Dev.lockDrop
  simp only [hbur, Bool.false_and]
  split
  · exact refuse hp
  · refine trans (e := d.unstage p) (of_eq rfl rfl ⟨rfl, rfl, rfl, rfl, rfl, rfl⟩) ?_
    exact trans (setFlag hp _ (by decide)) (setFld hp _ (by decide))

theorem tornClear (hp : p.exists = true) (who : Owner) : HeaderFrame p d (d.tornClear who p) := by
  unfold Dev.tornClear
  split
  · exact trans (setFlag hp _ (by decide)) (setWord hp _ (by decide))
  · exact refuse hp

theorem snapCapture : HeaderFrame p d (d.snapCapture p) := by
  obtain ⟨frk, hcapture⟩ := d.snapCapture_eq p
  rw [hcapture]
  exact of_eq rfl rfl ⟨rfl, rfl, rfl, rfl, rfl, rfl⟩

theorem snapGo (hp : p.exists = true) (v : Nat) : HeaderFrame p d (d.snapGo p v) := by
  rw [Dev.snapGo_eq]
  split
  · exact refl d
  · exact trans snapCapture (setFld hp _ (by decide))

/-- A checker armed on a page other than the time core's raises no fault at once. -/
theorem fltInj (hp : p.exists = true) (hk : p.kind ≠ .pmk) (v : Nat) : HeaderFrame p d (d.fltInj p v) := by
  have hpmk : (p.kind == .pmk) = false := beq_false_of_ne hk
  unfold Dev.fltInj Dev.injectNow
  simp only [hpmk, Bool.false_and]
  split
  · exact refuse hp
  · exact trans (setFld hp _ (by decide)) (ifThen _ (of_eq rfl rfl ⟨rfl, rfl, rfl, rfl, rfl, rfl⟩))

/-- A write whose effect keeps to the header keeps to it at the gate. -/
theorem gateW {who : Owner} {off : Nat} (v : Nat) {eff : Dev → Dev} (heff : HeaderFrame p d (eff d)) (halign : off % 4 = 0)
    (hrel : d.start.released = true) (hp : p.exists = true) (hreach : d.reaches who p = true)
    (hready : d.domainReady p.domain = true) (hwait : d.waits p.domain = false) (hsnap : d.snapBusy.contains p.idx = false)
    (hord : isOrdered p = true → d.orderBarred = false ∧ d.noCredit = false ∧ d.waits creditTag = false)
    (hissues : d.issues = false) : HeaderFrame p d (d.gateW who p off v eff) := by
  have hsize : sizeOk (.reg p off) true (wr who p off v).size off = true := by simp [sizeOk, wr, halign]
  rw [Dev.gateW, Dev.gate_of_clear d (wr who p off v) eff hrel hp hreach hsize hready hwait hsnap hord,
    Dev.act_of_not_issues _ _ _ hissues]
  split_ifs
  · exact written _
  · exact trans (refuse hp) (written _)
  · exact trans (refuse hp) (written _)
  · exact trans (refuse hp) (written _)
  · exact trans heff (written _)

end Dev.HeaderFrame

/-- Each of the header's small commands is a write of a word of the header whose effect keeps to the header. -/
theorem exec_header_gateW {s : State} {who : Owner} {p : Page} {checker : Byte} {c : Instr}
    (hc : c ∈ [Instr.lockAcquire who p, .lockRelease who p, .tornClear who p, .snapshot who p, .faultInject who p checker])
    (hp : p.exists = true) (hbur : p.kind ≠ .bur) (hpmk : p.kind ≠ .pmk) :
    ∃ off v eff, exec c s = .next (s.ends (s.begun.gateW who p off v eff)) ∧ off % 4 = 0
      ∧ Dev.HeaderFrame p s.begun (eff s.begun) := by
  simp only [List.mem_cons, List.not_mem_nil, or_false] at hc
  rcases hc with rfl | rfl | rfl | rfl | rfl
  · exact ⟨0x08, 0x100, fun d => d.pageCtrl who p 0x100, rfl, rfl, .lockTake hp who⟩
  · exact ⟨0x08, 0x200, fun d => d.pageCtrl who p 0x200, rfl, rfl, .lockDrop hp hbur who⟩
  · exact ⟨0x0C, 0x100, fun d => d.pageStat who p 0x100, rfl, rfl, .tornClear hp who⟩
  · exact ⟨0x40, 1, fun d => d.when (!p.kind.counterAreas.isEmpty) (fun d => d.snapGo p 1), rfl, rfl,
      .ifThen _ (.snapGo hp 1)⟩
  · exact ⟨0x28, 2 ^ 31 + checker.toNat, fun d => d.fltInj p (2 ^ 31 + checker.toNat), rfl, rfl, .fltInj hp hpmk _⟩

/-- Settles O21: each command's effect keeps to the header, and the gate adds a refusal or an answer. -/
theorem headerCommandsFrame : Obligations.HeaderCommandsFrame := by
  intro s who p checker c hc d hp hbur hpmk hissues hrel hreach hready hwait hsnap hord
  obtain ⟨off, v, eff, hexec, halign, heff⟩ := exec_header_gateW (s := s) hc hp hbur hpmk
  have hframe := Dev.HeaderFrame.gateW v heff halign hrel hp hreach hready hwait hsnap hord hissues
  exact ⟨_, hexec, hframe.places, hframe.rest⟩

end Sys2Proof.Machine
end

section
/-! SUPPORT. Snapshots (R57, R58): which counters a snapshot holds, and what a counter reads. -/

namespace Sys2Proof

variable {α : Type}

/-- A table whose keys all lie above a bound holds nothing at the bound. -/
theorem NMap.get?_of_above {m : NMap α} {k : Nat} (h : m.above k) : m.get? k = none := by
  induction m with
  | nil => rfl
  | cons e m ih =>
    rw [NMap.get?_cons, if_neg (Nat.ne_of_gt (h e (List.mem_cons_self ..)))]
    exact ih fun x hx => h x (List.mem_cons_of_mem _ hx)

/-- A rising table entered into another one: its entries stand before those of the other. -/
theorem NMap.get?_foldl_set {m : NMap α} (hm : m.rising = true) (n : NMap α) (k : Nat) :
    NMap.get? (m.foldl (fun n e => n.set e.1 e.2) n) k = (m.get? k).or (n.get? k) := by
  induction m generalizing n with
  | nil => rfl
  | cons e m ih =>
    obtain ⟨hrising, habove⟩ := (NMap.rising_cons e m).1 hm
    rw [List.foldl_cons, ih hrising, NMap.get?_set, NMap.get?_cons]
    split
    · rename_i hk
      subst hk
      rw [NMap.get?_of_above habove]
      rfl
    · rfl

end Sys2Proof

namespace Sys2Proof.Machine

/-- The page a key belongs to. -/
theorem Page.key_div (p : Page) {off : Nat} (h : off < pageSpan) : p.key off / pageSpan = p.idx := by
  unfold Page.key
  rw [Nat.mul_comm, Nat.mul_add_div (by decide), Nat.div_eq_of_lt h, Nat.add_zero]

/-- The snapshots of the page are its counts, those of other pages stay (R58). -/
theorem Dev.getD_capturedSnaps {d : Dev} (hd : d.counts.rising = true) (p : Page) {q : Page} {off : Nat}
    (h : off < pageSpan) : (d.capturedSnaps p).getD (q.key off) 0 = if q.idx = p.idx then d.count q off else d.snaps.getD (q.key off) 0 := by
  rw [Dev.capturedSnaps, NMap.getD, NMap.get?_foldl_set (NMap.rising_filter _ _ hd),
    NMap.get?_filter d.counts (fun k => k / pageSpan == p.idx), NMap.get?_filter d.snaps (fun k => k / pageSpan != p.idx),
    Page.key_div q h]
  by_cases hpq : q.idx = p.idx
  · simp [hpq, Dev.count, NMap.getD]
  · simp [hpq, NMap.getD]

/-- A sound device lists its counters by rising keys. -/
theorem State.rising_counts {s : State} (h : s.Sound) : s.begun.counts.rising = true := by
  obtain ⟨_, hcounts, _⟩ := h
  exact ((NMap.wf_iff _ _).1 hcounts).1

/-- The counters of a page begin and end at multiples of 8. -/
theorem PageKind.counterAreas_aligned (k : PageKind) : ∀ a ∈ k.counterAreas, a.1 % 8 = 0 ∧ a.2 % 8 = 0 := by
  cases k <;> decide

/-- Both words of a counter lie among the counters. -/
theorem Page.isCounter_high {p : Page} {off : Nat} (h : p.isCounter off = true) (h8 : off % 8 = 0) :
    p.isCounter (off + 4) = true := by
  simp only [Page.isCounter, List.any_eq_true, Bool.and_eq_true, decide_eq_true_eq] at h ⊢
  obtain ⟨a, ha, hlo, hhi⟩ := h
  obtain ⟨hbase, hbytes⟩ := PageKind.counterAreas_aligned p.kind a ha
  exact ⟨a, ha, by omega, by omega⟩

/-- The counters of a port page and of a CAN page lie from 0x400 on, below 0x500. -/
theorem Page.counter_bounds {p : Page} {off : Nat} (hk : p.kind = .prt ∨ p.kind = .can) (h : p.isCounter off = true) :
    0x400 ≤ off ∧ off < 0x500 := by
  rcases hk with hk | hk
  all_goals
    simp [Page.isCounter, hk, PageKind.counterAreas] at h
    omega

/-- Every page has all counters of its set. -/
theorem absent_counter {p : Page} {off : Nat} (h : p.isCounter off = true) : absent p off = false := by
  unfold absent
  split
  · have := Page.counter_bounds (.inl ‹_›) h
    simp
    omega
  · have := Page.counter_bounds (.inr ‹_›) h
    simp
    omega
  · rfl

/-- A counter reads the two halves of its snapshot (R58). -/
theorem Dev.regWord_counter (d : Dev) {p : Page} {off : Nat} (hc : p.isCounter off = true) (h8 : off % 8 = 0) :
    d.regWord p off = d.snaps.getD (p.key off) 0 % 2 ^ 32
      ∧ d.regWord p (off + 4) = d.snaps.getD (p.key off) 0 / 2 ^ 32 % 2 ^ 32 := by
  have hc' := Page.isCounter_high hc h8
  have hlow : off / 8 * 8 = off := by omega
  have hhigh : (off + 4) / 8 * 8 = off := by omega
  constructor
  · simp only [Dev.regWord, hc, absent_counter hc, hlow, half, Bool.not_false, Bool.and_self, if_true]
  · simp only [Dev.regWord, hc', absent_counter hc', hhigh, half, Bool.not_false, Bool.and_self, if_true,
      if_neg (by omega : ¬ off + 4 = off)]

/-- Setting a field changes register words alone. -/
theorem Dev.setFld_eq (d : Dev) (p : Page) (f : Fld) (v : Nat) : ∃ regs, d.setFld p f v = { d with regs := regs } := by
  unfold Dev.setFld
  split
  · exact ⟨_, rfl⟩
  · exact ⟨_, rfl⟩

/-- An admitted SNAPSHOT of a page with counters captures them, and changes register words and answers beside. -/
theorem exec_snapshot_captures {s : State} {who : Owner} {p : Page} (hadm : s.begun.admits who p 0x40 = true)
    (hissues : s.begun.issues = false) (hareas : p.kind.counterAreas ≠ []) :
    ∃ regs frk spi adj out, exec (.snapshot who p) s = .next (s.ends { s.begun with
      regs := regs, snaps := s.begun.capturedSnaps p, snapBusy := s.begun.snapBusy ++ [p.idx], frk := frk, spi := spi,
      adj := adj, out := out }) := by
  have hidle : s.begun.snapBusy.contains p.idx = false := by
    simp only [Dev.admits, Bool.and_eq_true, Bool.not_eq_true'] at hadm
    tauto
  obtain ⟨frk, hcapture⟩ := s.begun.snapCapture_eq p
  obtain ⟨regs, hfld⟩ := (s.begun.snapCapture p).setFld_eq p R.SNAP_TIME_TIME (s.begun.snapCapture p).time
  obtain ⟨spi, adj, out, hans⟩ := Dev.written_eq
    ((s.begun.snapCapture p).setFld p R.SNAP_TIME_TIME (s.begun.snapCapture p).time)
    (wr who p 0x40 1)
  refine ⟨regs, frk, spi, adj, out, ?_⟩
  rw [exec_snapshot, Dev.gateW_of_admits _ _ _ _ _ _ hadm, Dev.wrote, Dev.act_of_not_issues _ _ _ hissues, Dev.when,
    if_pos (by simpa using hareas), Dev.snapGo_eq, hidle]
  exact State.next_ends (hans.trans (by rw [hfld, hcapture]))

/-- Settles O19: the snapshot is the capture, which no later count changes and which the counters read. -/
theorem snapshotsFreezeTheCounters : Obligations.SnapshotsFreezeTheCounters := by
  intro s who p hsound d hadm hissues hareas
  obtain ⟨_, hp⟩ := Dev.exists_of_admits hadm
  have hcounts := State.rising_counts hsound
  obtain ⟨regs, frk, spi, adj, out, hexec⟩ := exec_snapshot_captures hadm hissues hareas
  have hmine : ∀ off < pageSpan, (d.capturedSnaps p).getD (p.key off) 0 = d.count p off := fun off ho => by
    rw [Dev.getD_capturedSnaps hcounts p ho, if_pos rfl]
  refine ⟨_, hexec, rfl, rfl, fun q off hq ho => ?_, fun q o n off => ⟨rfl, ?_⟩, fun off hc _ h8 ho => ?_⟩
  · rw [Dev.getD_capturedSnaps hcounts p ho]
    split
    · rename_i hidx
      rw [Page.eq_of_idx hq hp hidx]
    · rfl
  · rw [Dev.count_addCount, if_pos rfl]
  · rw [← hmine off ho]
    exact Dev.regWord_counter _ hc h8

end Sys2Proof.Machine
end

section
/-! SUPPORT. The state after reset (R43, R68, R88, R469). -/

namespace Sys2Proof.Machine

/-- After reset a register word holds its reset value. -/
theorem State.word_reset (p : Page) (off : Nat) : State.reset.dev.word p off = p.resetNat off := rfl

/-- The state words of the common header, PAGE_STAT, PAGE_LOCK, IRQ_RAW and IRQ_MASK, hold 0 after reset (R43). -/
theorem Page.resetNat_header (p : Page) {off : Nat} (h : off ∈ [0x0C, 0x10, 0x18, 0x1C]) : p.resetNat off = 0 := by
  obtain ⟨k, n⟩ := p
  simp only [List.mem_cons, List.not_mem_nil, or_false] at h
  rcases h with rfl | rfl | rfl | rfl
  all_goals cases k <;> rfl

/-- Every listed page exists. -/
theorem exists_of_mem_allPages {p : Page} (h : p ∈ allPages) : p.exists = true := by
  simp only [allPages, List.mem_flatMap, List.mem_map, List.mem_range] at h
  obtain ⟨k, _, n, hn, rfl⟩ := h
  exact decide_eq_true hn

/-- A field of a word that holds 0. -/
theorem Dev.fld_of_zero {d : Dev} {p : Page} {f : Fld} (hf : f.hi < 32) (h : d.word p f.off = 0) : d.fld p f = 0 := by
  rw [Dev.fld_narrow _ _ _ hf, h, bits, Nat.zero_div, Nat.zero_mod]

/-- Settles O35: nothing is listed, so that every word holds its reset value. -/
theorem resetValues : Obligations.ResetValues := by
  have hheader : ∀ (p : Page) (f : Fld), f.hi < 32 → f.off ∈ [0x0C, 0x10, 0x18, 0x1C] → State.reset.dev.fld p f = 0 :=
    fun p f hf hoff => Dev.fld_of_zero hf (Page.resetNat_header p hoff)
  refine ⟨by decide, by decide, fun p hp => ⟨exists_of_mem_allPages hp, ?_, ?_, ?_, ?_, ?_⟩, fun _ _ => rfl, by decide⟩
  · exact hheader p R.PAGE_STAT_STATE (by decide) (by decide)
  · rw [Dev.flag, hheader p R.PAGE_LOCK_HELD (by decide) (by decide)]
    rfl
  · exact hheader p R.PAGE_STAT_PENDING (by decide) (by decide)
  · exact Page.resetNat_header p (by decide)
  · exact Page.resetNat_header p (by decide)

end Sys2Proof.Machine
end

section
/-! SUPPORT. The start sequence and chain addressing (R73 to R83): what the end of a step does at each step the statement
names, and the statement about the commands of the start. -/

namespace Sys2Proof.Machine

-- ==== the commands ====

theorem exec_bootRetryTop (who : Owner) (s : State) :
    exec (.bootRetryTop who) s = .next (s.ends (s.begun.gateW who bootPg 0x8C 1 (fun d =>
      d.setFlag bootPg R.BOOT_RETRY_TOP true))) := rfl

/-- The end of a step is handled while a step runs (R73). -/
theorem exec_startStepDone {s : State} (e : StepEnd) (hrel : s.begun.start.released = true) (hstep : s.begun.start.step ≠ 0) :
    exec (.startStepDone e) s = .next (s.ends (s.begun.stepEnd e)) :=
  (State.run_at rfl).trans (State.next_ends (if_neg (by simp [hrel, hstep])))

/-- The step watchdog acts while a step runs (R74). -/
theorem exec_startStepTimeout {s : State} (hrel : s.begun.start.released = true) (hstep : s.begun.start.step ≠ 0) :
    exec .startStepTimeout s = .next (s.ends
      (((s.begun.stepWrite 4 0).stepFrom (s.begun.start.variant + 1)).deviceReset R.SYS_RESET_CAUSE_STEP_WDOG)) :=
  (State.run_at rfl).trans (State.next_ends (if_neg (by simp [hrel, hstep])))

/-- A boot loader fault ends a start that runs outside Hold, whatever is staged (R55, R72; assumption 133). -/
theorem exec_bootLoaderFault {s : State} (hrel : s.begun.start.released = true) (hstep : s.begun.start.step ≠ 0)
    (hhold : s.begun.flag bootPg R.BOOT_STATUS_HOLD = false) :
    exec .bootLoaderFault s = .next (s.ends ((s.begun.ownerEvent 8).enterHold 0)) :=
  (State.run_at rfl).trans (State.next_ends (if_neg (by simp [hrel, hstep, hhold])))

/-- A complete train of one pulse or more is counted (R81). -/
theorem exec_chainTrainRx_train {s : State} {n : Fin 16} (hrel : s.begun.start.released = true) (hn : n.val ≠ 0) :
    exec (.chainTrainRx (.train n)) s = .next (s.ends (s.begun.chainTrain n)) :=
  (State.run_at rfl).trans (State.next_ends ((if_neg (by simp [hrel])).trans (if_neg hn)))

/-- CHAIN_IN held low makes the unit the head; before step 0x0A it takes no address yet (R81, R82). -/
theorem exec_chainTrainRx_low {s : State} (hrel : s.begun.start.released = true) (hchained : s.begun.start.chained = false)
    (hstep : s.begun.start.step ≠ 0xA) :
    exec (.chainTrainRx .low) s = .next (s.ends (s.begun.withStart (fun x => { x with head := true }))) :=
  (State.run_at rfl).trans (State.next_ends
    ((if_neg (by simp [hrel])).trans ((if_neg (by simp [hchained])).trans (if_neg hstep))))

/-- A unit that has an address sends its train (R81). -/
theorem exec_chainTrainTx {s : State} (hrel : s.begun.start.released = true) (hchained : s.begun.start.chained = true)
    (haddr : s.begun.addr ≠ 0) : exec .chainTrainTx s = .next (s.ends (s.begun.emit (.pin 0x23 s.begun.addr))) :=
  (State.run_at rfl).trans (State.next_ends (if_pos (by simp [hrel, hchained, haddr])))

/-- Step 0x0A ends without a train at address 0 (R82). -/
theorem exec_chainWaitTimeout {s : State} (hrel : s.begun.start.released = true) (hstep : s.begun.start.step = 0xA)
    (hchained : s.begun.start.chained = false) :
    exec .chainWaitTimeout s = .next (s.ends ((s.begun.chainTake 0 0 false false).stepSkip 0 true)) :=
  (State.run_at rfl).trans (State.next_ends (if_pos (by simp [hrel, hstep, hchained])))

-- ==== the end of a step ====

/-- Of steps 0x01, 0x02, 0x07 and 0x0E the model knows the success and the failure alone (R73). -/
theorem Dev.stepEnd_of_plain {d : Dev} {e : StepEnd} (hstep : d.start.step ∈ [1, 2, 7, 0xE])
    (hvar : d.start.variant < stepVariants d.start.step) (hgood : e.good = true) : d.stepEnd e = d.stepOk 0 := by
  simp only [List.mem_cons, List.not_mem_nil, or_false] at hstep
  rcases hstep with h | h | h | h
  all_goals
    rw [h] at hvar
    simp [Dev.stepEnd, h, Nat.not_le.2 hvar, hgood]

/-- Step 0x0B decodes the BARs (R70). -/
theorem Dev.stepEnd_of_bars {d : Dev} {e : StepEnd} (hstep : d.start.step = 0xB) (hvar : d.start.variant < 4)
    (hgood : e.good = true) :
    d.stepEnd e = d.stepOk 0 (fun d => d.withStart (fun x => { x with barsDecoded := true })) := by
  have hleft : ¬ stepVariants 0xB ≤ d.start.variant := Nat.not_le.2 hvar
  simp [Dev.stepEnd, hstep, hleft, hgood]

/-- Step 0x09 loads committed configuration (R66, R71). -/
theorem Dev.stepEnd_of_config {d : Dev} {e : StepEnd} (hstep : d.start.step = 9) (hvar : d.start.variant < 3)
    (hgood : e.good = true) : d.stepEnd e = d.stepOk 0 (fun d => d.cfgLoad e.linear) := by
  have hleft : ¬ stepVariants 9 ≤ d.start.variant := Nat.not_le.2 hvar
  simp [Dev.stepEnd, hstep, hleft, hgood]

/-- Settles O39: each command by the lemma that says what it does in the step named. -/
theorem startCommandsComplete : Obligations.StartCommandsComplete := by
  intro s who e n d
  refine ⟨?plain, ?bars, ?config, ?timeout, ?fault, ?retryTop, ?train, ?low, ?send, ?noTrain⟩
  case plain =>
    intro hrel hstep hvar hgood
    have hruns : d.start.step ≠ 0 := fun h => by simp [h] at hstep
    exact (exec_startStepDone e hrel hruns).trans (State.next_ends (Dev.stepEnd_of_plain hstep hvar hgood))
  case bars =>
    intro hrel hstep hvar hgood
    rw [exec_startStepDone e hrel (hstep.trans_ne (by decide)), Dev.stepEnd_of_bars hstep hvar hgood]
  case config =>
    intro hrel hstep hvar hgood
    rw [exec_startStepDone e hrel (hstep.trans_ne (by decide)), Dev.stepEnd_of_config hstep hvar hgood]
  case timeout => exact exec_startStepTimeout
  case fault => exact exec_bootLoaderFault
  case retryTop =>
    intro hadm
    rw [exec_bootRetryTop, Dev.gateW_of_admits _ _ _ _ _ _ hadm]
  case train => exact exec_chainTrainRx_train
  case low => exact exec_chainTrainRx_low
  case send => exact exec_chainTrainTx
  case noTrain => exact exec_chainWaitTimeout

end Sys2Proof.Machine
end

section
/-! SUPPORT. Resets and the loss and return of supplies (R67 to R69, R370, R383, R482): what each command does, and the
statement about them. -/

namespace Sys2Proof.Machine

-- ==== supplies ====

theorem exec_vstbyPowerOn (dbg : Bool) (s : State) :
    exec (.vstbyPowerOn dbg) s = .next (s.ends ((s.begun.standbyLost.dbg dbg).supplyFrom 3)) := rfl

theorem exec_vstbyLoss (s : State) : exec .vstbyLoss s = .next (s.ends s.begun.standbyLost) := rfl

theorem exec_mainPowerOn (dbg : Bool) (s : State) :
    exec (.mainPowerOn dbg) s = .next (s.ends (Dev.deviceReset
      { s.begun.dbg dbg with supply := { enabled := 0xF, wait := none } } R.SYS_RESET_CAUSE_MAIN_POR
      s.begun.start.released)) := rfl

/-- The loss of the main supplies takes what the main domains hold (R482). -/
theorem exec_mainSupplyLoss {s : State} (hrel : s.begun.start.released = true) :
    exec .mainSupplyLoss s = .next (s.ends ((s.begun.rootTorn.docketTorn.pinsDown.mainClear true).withStart (fun x =>
      { x with released := false, step := 0, spiUp := false, barsDecoded := false, cfgLoaded := false,
               chained := false, train := none, firstTrain := none, head := false }))) :=
  (State.run_at rfl).trans (State.next_ends (if_neg (by simp [hrel])))

-- ==== resets ====

/-- A pulse of 1 µs or more on RESET_N resets a device that is out of reset (R67): nothing is drawn. -/
theorem exec_resetPin_of_long {s : State} {ns : Nat} (dbg : Bool) (hns : 1000 ≤ ns) (hrel : s.begun.start.released = true) :
    exec (.resetPin ns dbg) s = .next (s.ends ((s.begun.dbg dbg).deviceReset R.SYS_RESET_CAUSE_PIN)) := by
  have hlong : ¬ ns < 100 := by omega
  have hsure : ¬ ns < 1000 := by omega
  have hout : (s.begun.dbg dbg).start.released = true := hrel
  refine (State.run_at rfl).trans (State.next_ends ?_)
  simp [hlong, hsure, hout]

theorem exec_deviceResetRequest (who : Owner) (key : BitVec 16) (s : State) :
    exec (.deviceResetRequest who key) s = .next (s.ends
      (s.begun.gateW who sysPg 0x204 (key.toNat * 2 ^ 16 + 1) (fun d => d.resetCtrl (key.toNat * 2 ^ 16 + 1)))) := rfl

/-- DEVICE with its KEY resets the device (R69). -/
theorem Dev.resetCtrl_of_key (d : Dev) : d.resetCtrl (0x5A17 * 2 ^ 16 + 1) = d.deviceReset R.SYS_RESET_CAUSE_SOFTWARE := rfl

theorem exec_pcieReset (flr : Bool) (s : State) : exec (.pcieReset flr) s = .next (s.ends (s.begun.pcieReset (!flr))) := rfl

/-- A reset of the management port is a reset event of its owner, 2 (R45, R373). -/
theorem exec_spiPortReset {s : State} (hdeep : s.begun.spiDeep = false) (hrel : s.begun.start.released = true)
    (hup : s.begun.start.spiUp = true) :
    exec .spiPortReset s = .next (s.ends (Dev.ownerEvent { s.begun with spi := {} } 2)) :=
  (State.run_at rfl).trans (State.next_ends ((if_neg (by simp [hdeep])).trans (if_neg (by simp [hrel, hup]))))

-- ==== the PCI Express link ====

/-- Once the BARs are decoded, D3hot requests OFF of every DMA queue (R70, R370). -/
theorem exec_d3hotEntry {s : State} (hmain : s.begun.mainRun = true) (hbars : s.begun.start.barsDecoded = true) :
    exec .d3hotEntry s = .next (s.ends
      ((List.range 128).foldl Dev.qStop { s.begun with pcie := { s.begun.pcie with d3hot := true } })) :=
  (State.runMain_at rfl hmain).trans (State.next_ends (if_neg (by simp [hbars])))

/-- Once the BARs are decoded, a configuration write sets Bus Master Enable and may return to D0 (R70, R370). -/
theorem exec_pcieConfigWrite {s : State} (toD0 busMaster : Bool) (hmain : s.begun.mainRun = true)
    (hbars : s.begun.start.barsDecoded = true) :
    exec (.pcieConfigWrite toD0 busMaster) s = .next (s.ends (
      let d : Dev := { s.begun with
        pcie := { s.begun.pcie with d3hot := s.begun.pcie.d3hot && !toD0, busMaster := busMaster } }
      d.when (!d.pcie.d3hot && busMaster && d.pcie.linkUp) Dev.releaseMsix)) :=
  (State.runMain_at rfl hmain).trans (State.next_ends (if_neg (by simp [hbars])))

/-- Settles O40: each command by the lemma that says what it does under the conditions named. -/
theorem resetCommandsComplete : Obligations.ResetCommandsComplete := by
  intro s who ns dbg flr up width speed d
  refine ⟨exec_vstbyPowerOn dbg s, exec_vstbyLoss s, exec_mainPowerOn dbg s, exec_mainSupplyLoss,
    exec_resetPin_of_long dbg, ?request, exec_pcieReset flr s, exec_spiPortReset, ?linkChange, exec_d3hotEntry,
    exec_pcieConfigWrite up dbg⟩
  case request =>
    intro hadm
    rw [exec_deviceResetRequest, Dev.gateW_of_admits _ _ _ _ _ _ hadm]
    exact State.next_wrote (Dev.resetCtrl_of_key d)
  case linkChange => exact State.runMain_of s _

end Sys2Proof.Machine
end

section
/-! SUPPORT. The commands of the Ethernet ports (R95 to R105): what an MDIO command carries, what a write of the TC10
control register does, and the statement about the port commands. -/

namespace Sys2Proof.Machine

-- ==== commands of the main domains ====

/-- What a command leaves that the main domains run, by what its function leaves of the device it finds. -/
theorem State.runMain_next {s : State} {f : Dev → Dev} {d : Dev} (hmain : s.begun.mainRun = true) (h : f s.begun = d) :
    s.runMain f = .next (s.ends d) :=
  (State.runMain_of s f hmain).trans (State.next_ends h)

-- ==== commands that write a register ====

section

variable {s : State} {who : Owner}

/-- MDIO_WRITE is a write of GO with OP write. -/
theorem exec_mdioWrite {m : Fin 4} {c45 : Bool} {phyad devad : Fin 32} {reg : BitVec 16}
    (hadm : s.begun.admits who (prtPg 0) (0x804 + 0x40 * m) = true) : exec (.mdioWrite who m c45 phyad devad reg) s
    = .next (s.ends (s.begun.wrote who (prtPg 0) (0x804 + 0x40 * m) (mdioCmd 0 c45 phyad devad reg)
        (fun d => d.mdioGo m (mdioCmd 0 c45 phyad devad reg)))) :=
  State.next_ends (Dev.gateW_of_admits _ _ _ _ _ _ hadm)

/-- MDIO_READ is a write of GO with OP read. -/
theorem exec_mdioRead {m : Fin 4} {c45 : Bool} {phyad devad : Fin 32} {reg : BitVec 16}
    (hadm : s.begun.admits who (prtPg 0) (0x804 + 0x40 * m) = true) : exec (.mdioRead who m c45 phyad devad reg) s
    = .next (s.ends (s.begun.wrote who (prtPg 0) (0x804 + 0x40 * m) (mdioCmd 1 c45 phyad devad reg)
        (fun d => d.mdioGo m (mdioCmd 1 c45 phyad devad reg)))) :=
  State.next_ends (Dev.gateW_of_admits _ _ _ _ _ _ hadm)

/-- TC10_SLEEP_CMD is a write of CMD sleep beside ACCEPT_REMOTE. -/
theorem exec_tc10SleepCmd {p : Fin 40} (acc : Bool) (hadm : s.begun.admits who (prtPg p) 0xE0 = true) :
    exec (.tc10SleepCmd who p acc) s = .next (s.ends (s.begun.wrote who (prtPg p) 0xE0 (b2n acc * 2 ^ 8 + 1)
      (fun d => d.tc10Ctrl p (b2n acc * 2 ^ 8 + 1)))) :=
  State.next_ends (Dev.gateW_of_admits _ _ _ _ _ _ hadm)

/-- TC10_WAKE_CMD is a write of CMD wake beside ACCEPT_REMOTE. -/
theorem exec_tc10WakeCmd {p : Fin 40} (acc : Bool) (hadm : s.begun.admits who (prtPg p) 0xE0 = true) :
    exec (.tc10WakeCmd who p acc) s = .next (s.ends (s.begun.wrote who (prtPg p) 0xE0 (b2n acc * 2 ^ 8 + 2)
      (fun d => d.tc10Ctrl p (b2n acc * 2 ^ 8 + 2)))) :=
  State.next_ends (Dev.gateW_of_admits _ _ _ _ _ _ hadm)

end

-- ==== MDIO (R104) ====

/-- A bit of a word is at most 1. -/
theorem b2n_le_one (b : Bool) : b2n b ≤ 1 := by
  cases b <;> decide

section

variable (op : Nat) (c45 : Bool) (phyad devad : Fin 32) (reg : BitVec 16)

/-- The operation of an MDIO command lies above its other fields. -/
theorem mdioCmd_op (hop : op < 4) : bits (mdioCmd op c45 phyad devad reg) 29 28 = op := by
  have := b2n_le_one c45
  unfold bits mdioCmd
  omega

theorem mdioCmd_c45 : bitAt (mdioCmd op c45 phyad devad reg) 27 = c45 := by
  have hbit : mdioCmd op c45 phyad devad reg / 2 ^ 27 % 2 = b2n c45 := by
    have := b2n_le_one c45
    unfold mdioCmd
    omega
  rw [bitAt, hbit]
  cases c45 <;> rfl

theorem mdioCmd_phyad : bits (mdioCmd op c45 phyad devad reg) 26 22 = phyad := by
  unfold bits mdioCmd
  omega

theorem mdioCmd_devad : bits (mdioCmd op c45 phyad devad reg) 21 17 = devad := by
  unfold bits mdioCmd
  omega

theorem mdioCmd_reg : bits (mdioCmd op c45 phyad devad reg) 15 0 = reg.toNat := by
  unfold bits mdioCmd
  omega

end

/-- An idle master starts a command that is a write or a read: GO clears, BUSY is set, and the frame is sent (R104). -/
theorem Dev.mdioGo_of_idle {d : Dev} {m op : Nat} {c45 : Bool} {phyad devad : Fin 32} {reg : BitVec 16}
    (hidle : d.flag (prtPg 0) (R.PRT_MDIO_STAT_BUSY.at m) = false) (hop : op < 2) :
    d.mdioGo m (mdioCmd op c45 phyad devad reg) =
      (let d := d.setWord (prtPg 0) (0x804 + 0x40 * m)
         (mdioCmd op c45 phyad devad reg % 2 ^ 30 &&& (0xFFFFFFFF - 0x10000))
       let run : MdioRun := { write := op == 0, c45 := c45, phyad := phyad, devad := devad, reg := reg.toNat,
                              data := d.fld (prtPg 0) (R.PRT_MDIO_DATA_DATA.at m) }
       let d := { d with mdio := d.mdio.set m run }
       (d.setFlag (prtPg 0) (R.PRT_MDIO_STAT_BUSY.at m) true).emit
         (.mdio m run.write c45 phyad devad reg.toNat (if run.write then run.data else 0))) := by
  have hop' : bits (mdioCmd op c45 phyad devad reg) 29 28 = op := mdioCmd_op op c45 phyad devad reg (by omega)
  have hrun : ¬ (d.flag (prtPg 0) (R.PRT_MDIO_STAT_BUSY.at m) || decide (2 ≤ op)) = true := by simp [hidle, hop]
  simp only [Dev.mdioGo, hop', mdioCmd_c45, mdioCmd_phyad, mdioCmd_devad, mdioCmd_reg, if_neg hrun]

/-- A command that runs on a master ends: a read leaves the answer, BUSY clears, and DONE is set and raised (R104). -/
theorem Dev.mdioEnd_of_run {d : Dev} {m answer : Nat} {run : MdioRun} (hrun : d.mdio.get? m = some run) :
    d.mdioEnd m answer =
      (let d := { d with mdio := d.mdio.erase m }
       let d := d.when (!run.write) (fun d => d.setFld (prtPg 0) (R.PRT_MDIO_DATA_DATA.at m) answer)
       ((d.setFlag (prtPg 0) (R.PRT_MDIO_STAT_BUSY.at m) false).setFlag (prtPg 0) (R.PRT_MDIO_STAT_DONE.at m) true).raise
         (prtPg 0) 8) := by
  simp only [Dev.mdioEnd, hrun]

-- ==== TC10 (R105) ====

section

variable {d : Dev} {n : Nat}

/-- ACCEPT_REMOTE lies apart from STATE of the page. -/
theorem Dev.isOn_setAcceptRemote (d : Dev) (p : Page) (acc : Bool) :
    (d.setFlag p R.PRT_TC10_CTRL_ACCEPT_REMOTE acc).isOn p = d.isOn p := by
  rw [Dev.isOn, Dev.isOn, Dev.state, Dev.state, Dev.fld_setFlag_apart _ _ _ _ _ (by decide)]

/-- ACCEPT_REMOTE lies apart from the TC10 state. -/
theorem Dev.tc10_setAcceptRemote (d : Dev) (n : Nat) (acc : Bool) :
    (d.setFlag (prtPg n) R.PRT_TC10_CTRL_ACCEPT_REMOTE acc).tc10 n = d.tc10 n :=
  Dev.fld_setFlag_apart _ _ _ _ _ (by decide)

/-- A port that is awake begins its drain toward sleep. -/
theorem Dev.tc10Sleep_of_awake (hon : d.isOn (prtPg n) = true) (hawake : d.tc10 n = 0) :
    d.tc10Sleep n = (d.setTc10 n 1).setPort n { d.port n with closed := true, tc10Drain := true } :=
  if_pos (Bool.and_eq_true_iff.2 ⟨hon, beq_iff_eq.2 hawake⟩)

/-- A port that is asleep is woken. -/
theorem Dev.tc10Wake_of_asleep (hon : d.isOn (prtPg n) = true) (hasleep : d.tc10 n = 2) :
    d.tc10Wake n = (d.setTc10 n 3).tc10Write n (d.fld (prtPg n) R.PRT_TC10_VAL_WAKE_VALUE) :=
  if_pos (Bool.and_eq_true_iff.2 ⟨hon, beq_iff_eq.2 hasleep⟩)

/-- On a port that is ON a write of PRT_TC10_CTRL sets ACCEPT_REMOTE and runs its command. -/
theorem Dev.tc10Ctrl_of_on (acc : Bool) {cmd : Nat} (hcmd : cmd < 4) (hon : d.isOn (prtPg n) = true) :
    d.tc10Ctrl n (b2n acc * 2 ^ 8 + cmd) =
      (let d := d.setFlag (prtPg n) R.PRT_TC10_CTRL_ACCEPT_REMOTE acc
       if cmd = 1 then d.tc10Sleep n else if cmd = 2 then d.tc10Wake n else d) := by
  have hle := b2n_le_one acc
  have hlow : bits (b2n acc * 2 ^ 8 + cmd) 1 0 = cmd := by
    unfold bits
    omega
  have hacc : bits (b2n acc * 2 ^ 8 + cmd) 8 8 = b2n acc := by
    unfold bits
    omega
  simp only [Dev.tc10Ctrl, Dev.setFlag, hlow, hacc, hon, Bool.not_true, Bool.and_false, Bool.false_eq_true, if_false]

/-- CMD sleep on a port that is awake begins its drain. -/
theorem Dev.tc10Ctrl_sleep (acc : Bool) (hon : d.isOn (prtPg n) = true) (hawake : d.tc10 n = 0) :
    d.tc10Ctrl n (b2n acc * 2 ^ 8 + 1) =
      (let d := d.setFlag (prtPg n) R.PRT_TC10_CTRL_ACCEPT_REMOTE acc
       (d.setTc10 n 1).setPort n { d.port n with closed := true, tc10Drain := true }) :=
  (Dev.tc10Ctrl_of_on acc (by decide) hon).trans
    (Dev.tc10Sleep_of_awake ((d.isOn_setAcceptRemote _ acc).trans hon) ((d.tc10_setAcceptRemote n acc).trans hawake))

/-- CMD wake on a port that is asleep writes WAKE_VALUE to its PHY. -/
theorem Dev.tc10Ctrl_wake (acc : Bool) (hon : d.isOn (prtPg n) = true) (hasleep : d.tc10 n = 2) :
    d.tc10Ctrl n (b2n acc * 2 ^ 8 + 2) =
      (let d := d.setFlag (prtPg n) R.PRT_TC10_CTRL_ACCEPT_REMOTE acc
       (d.setTc10 n 3).tc10Write n (d.fld (prtPg n) R.PRT_TC10_VAL_WAKE_VALUE)) :=
  (Dev.tc10Ctrl_of_on acc (by decide) hon).trans
    (Dev.tc10Wake_of_asleep ((d.isOn_setAcceptRemote _ acc).trans hon) ((d.tc10_setAcceptRemote n acc).trans hasleep))

end

/-- Settles O44: each command by its test, or by the lemma that says what its operation does under the conditions named. -/
theorem portCommandsComplete : Obligations.PortCommandsComplete := by
  intro s who p v k m lock lf rf c45 acc speed reads phyad devad reg answer run d g
  refine ⟨?drain, ?pcsLock, ?linkFault, ?anDone, ?linkUp, ?poll, ?mdioGo, ?mdioDone, ?verifyTx, ?verifyResponse,
    ?beaconTx, ?beaconRx, ?beaconLost, ?sleep, ?wake, ?drained, ?sleepTimeout, ?wakeTimeout⟩
  case drain => exact fun hmain hstopping => State.runMain_next hmain (if_pos hstopping)
  case pcsLock => exact fun hmain hst => State.runMain_next hmain (if_neg hst)
  case linkFault =>
    intro hmain hst hif
    exact State.runMain_next hmain (if_pos (Bool.and_eq_true_iff.2 ⟨decide_eq_true hst, hif⟩))
  case anDone =>
    intro hmain hst han
    exact State.runMain_next hmain (if_pos (Bool.and_eq_true_iff.2 ⟨decide_eq_true hst, han⟩))
  case linkUp =>
    intro hmain hon hgood hdown
    exact State.runMain_next hmain (if_pos
      (Bool.and_eq_true_iff.2 ⟨Bool.and_eq_true_iff.2 ⟨hon, hgood⟩, (Bool.not_eq_true' _).mpr hdown⟩))
  case poll => exact fun hmain hms => State.runMain_next hmain (if_neg hms)
  case mdioGo =>
    intro hadm hidle go
    exact ⟨(exec_mdioWrite hadm).trans (State.next_wrote (Dev.mdioGo_of_idle hidle (by decide))),
      (exec_mdioRead hadm).trans (State.next_wrote (Dev.mdioGo_of_idle hidle (by decide)))⟩
  case mdioDone => exact fun hmain hrun => State.runMain_next hmain (Dev.mdioEnd_of_run hrun)
  case verifyTx =>
    intro hmain hup hverify htries
    have hruns : ¬ (!d.flag (prtPg v) R.PRT_LINK_STAT_UP
        || !(d.fld (prtPg v) R.PRT_MM_STAT_VERIFY == 1 || d.fld (prtPg v) R.PRT_MM_STAT_VERIFY == 2)) = true := by
      simp [hup, hverify]
    exact State.runMain_next hmain ((if_neg hruns).trans (if_pos htries))
  case verifyResponse => exact fun hmain hverify => State.runMain_next hmain (if_pos hverify)
  case beaconTx =>
    intro hmain hon hnode
    exact State.runMain_next hmain (if_pos (Bool.and_eq_true_iff.2 ⟨hon, beq_iff_eq.2 hnode⟩))
  case beaconRx =>
    intro hmain hon hnode
    exact State.runMain_next hmain (if_pos (Bool.and_eq_true_iff.2 ⟨hon, bne_iff_ne.2 hnode⟩))
  case beaconLost =>
    intro hmain hon hnode _
    exact State.runMain_next hmain (if_pos (Bool.and_eq_true_iff.2 ⟨hon, bne_iff_ne.2 hnode⟩))
  case sleep =>
    intro hadm hon hawake
    exact (exec_tc10SleepCmd acc hadm).trans (State.next_wrote (Dev.tc10Ctrl_sleep acc hon hawake))
  case wake =>
    intro hadm hon hasleep
    exact (exec_tc10WakeCmd acc hadm).trans (State.next_wrote (Dev.tc10Ctrl_wake acc hon hasleep))
  case drained => exact fun hmain hdrain => State.runMain_next hmain (if_pos hdrain)
  case sleepTimeout => exact fun hmain hpending => State.runMain_next hmain (if_pos hpending)
  case wakeTimeout => exact fun hmain hwaking => State.runMain_next hmain (if_pos hwaking)

end Sys2Proof.Machine
end

section
/-! SUPPORT. The lookups of the Burin (R119, R128, R140): the valid TCAM entries in rising order, what a search of them
finds, and the copy that lane B searches. -/

namespace Sys2Proof

variable {α : Type}

/-- The keys of a rising table rise along its list. -/
theorem NMap.pairwise_of_rising {m : NMap α} (h : m.rising = true) : m.Pairwise (fun e f => e.1 < f.1) := by
  induction m with
  | nil => exact .nil
  | cons e m ih =>
    obtain ⟨hm, habove⟩ := (NMap.rising_cons e m).1 h
    exact .cons habove (ih hm)

/-- A rising table holds exactly its entries. -/
theorem NMap.get?_eq_some_iff {m : NMap α} (h : m.rising = true) (k : Nat) (v : α) : m.get? k = some v ↔ (k, v) ∈ m := by
  induction m with
  | nil => simp
  | cons e m ih =>
    obtain ⟨hm, habove⟩ := (NMap.rising_cons e m).1 h
    rw [NMap.get?_cons, List.mem_cons]
    split
    case isTrue heq =>
      subst heq
      have hnot : (e.1, v) ∉ m := fun hin => Nat.lt_irrefl e.1 (habove (e.1, v) hin)
      simp [hnot, Prod.ext_iff, eq_comm]
    case isFalse hne =>
      have hother : (k, v) ≠ e := fun he => hne (he ▸ rfl)
      simp [hother, ih hm]

end Sys2Proof

namespace Sys2Proof.Machine

-- ==== TCAM entries in rising order (R119) ====

section

variable {t : Tables}

/-- The one address that `tcamIdx` takes for the word CTRL of a TCAM entry. -/
theorem tcamWin_ctrl {a i : Nat} :
    (tcamWin.has a && a % 0x100 == 0xA0) = true ∧ a / 0x100 = i ↔ i < 8192 ∧ a = 0x100 * i + 0xA0 := by
  simp only [TabWin.has, Bool.and_eq_true, decide_eq_true_eq, beq_iff_eq]
  omega

/-- A table whose words stand in order lists the TCAM entries with VALID = 1. -/
theorem mem_tcamIdx (ht : t.words.rising = true) {i : Nat} :
    i ∈ tcamIdx t ↔ i < 8192 ∧ bitAt (t.ent tcamWin i 40) 31 = true := by
  have hword : t.ent tcamWin i 40 = (t.words.get? (0x100 * i + 0xA0)).getD 0 := by
    simp only [Tables.ent, Tables.at, NMap.getD]
    congr 2
    omega
  have hlisted : i ∈ tcamIdx t ↔ ∃ v, (0x100 * i + 0xA0, v) ∈ t.words ∧ i < 8192 ∧ bitAt v 31 = true := by
    simp only [tcamIdx, List.mem_filterMap, Option.ite_none_right_eq_some, Option.some.injEq, Bool.and_eq_true (_ && _)]
    constructor
    · rintro ⟨⟨a, v⟩, hmem, ⟨hctrl, hvalid⟩, hi⟩
      obtain ⟨hlt, rfl⟩ := tcamWin_ctrl.1 ⟨hctrl, hi⟩
      exact ⟨v, hmem, hlt, hvalid⟩
    · rintro ⟨v, hmem, hlt, hvalid⟩
      obtain ⟨hctrl, hi⟩ := tcamWin_ctrl.2 ⟨hlt, rfl⟩
      exact ⟨_, hmem, ⟨hctrl, hvalid⟩, hi⟩
  simp only [hlisted, ← NMap.get?_eq_some_iff ht]
  rw [hword]
  cases t.words.get? (0x100 * i + 0xA0) with
  | none => simp [bitAt]
  | some v => simp

/-- It lists them in rising order. -/
theorem tcamIdx_rising (ht : t.words.rising = true) : (tcamIdx t).Pairwise (· < ·) := by
  refine (NMap.pairwise_of_rising ht).filterMap _ fun e f hlt i hi j hj => ?_
  simp only [Option.ite_none_right_eq_some, Option.some.injEq, Bool.and_eq_true (_ && _)] at hi hj
  obtain ⟨-, he⟩ := tcamWin_ctrl.1 ⟨hi.1.1, hi.2⟩
  obtain ⟨-, hf⟩ := tcamWin_ctrl.1 ⟨hj.1.1, hj.2⟩
  omega

end

/-- The first element of a rising list that satisfies a test is the lowest that does. -/
theorem eq_false_of_lt_find? {l : List Nat} (hl : l.Pairwise (· < ·)) {p : Nat → Bool} {i j : Nat} (hi : l.find? p = some i)
    (hj : j ∈ l) (hlt : j < i) : p j = false := by
  obtain ⟨-, before, after, rfl, hbefore⟩ := List.find?_eq_some_iff_append.1 hi
  have hjb : j ∈ before := by
    rcases List.mem_append.1 hj with h | h
    · exact h
    · have hle : i ≤ j := by
        rcases List.mem_cons.1 h with rfl | h
        · exact Nat.le_refl _
        · exact Nat.le_of_lt ((List.pairwise_cons.1 (List.pairwise_append.1 hl).2.1).1 _ h)
      omega
  simpa using hbefore j hjb

/-- Settles O30: the search takes the first hit of the list of valid entries, and that list rises. -/
theorem lowestTcamEntryWins : Obligations.LowestTcamEntryWins := by
  intro t key i ht hfind
  obtain ⟨hlt, hvalid⟩ := (mem_tcamIdx ht).1 (List.mem_of_find?_eq_some hfind)
  refine ⟨List.find?_some hfind, hlt, hvalid, fun j hj hvalidj => ?_⟩
  exact eq_false_of_lt_find? (tcamIdx_rising ht) hfind ((mem_tcamIdx ht).2 ⟨hj.trans hlt, hvalidj⟩) hj

-- ==== the copy of lane B (R140) ====

section

variable (t : Tables) {i w : Nat} (hw : w < 20)

include hw

/-- Lane B keeps a TCAM mask word as it is written. -/
theorem Tables.laneB_mask (hi : i < 8192) :
    t.laneB (tcamWin.base + i * tcamWin.stride + 4 * (20 + w)) = t.ent tcamWin i (20 + w) := by
  have hmask : (tcamWin.has (tcamWin.base + i * tcamWin.stride + 4 * (20 + w))
      && decide (80 ≤ (tcamWin.base + i * tcamWin.stride + 4 * (20 + w)) % 0x100)) = true := by
    simp only [TabWin.has, Bool.and_eq_true, decide_eq_true_eq]
    omega
  rw [Tables.laneB, if_pos hmask, Tables.ent]

/-- Lane B keeps a TCAM key word inverted. -/
theorem Tables.laneB_key :
    t.laneB (tcamWin.base + i * tcamWin.stride + 4 * w) = t.ent tcamWin i w ^^^ 0xFFFFFFFF := by
  have hkey : ¬ (tcamWin.has (tcamWin.base + i * tcamWin.stride + 4 * w)
      && decide (80 ≤ (tcamWin.base + i * tcamWin.stride + 4 * w) % 0x100)) = true := by
    simp only [Bool.and_eq_true, decide_eq_true_eq]
    omega
  rw [Tables.laneB, if_neg hkey, Tables.ent]

end

/-- Two words agree under a mask exactly where their inverses do. -/
theorem xor_and_beq (a b c m : Nat) : ((a ^^^ c) &&& m == (b ^^^ c) &&& m) = (a &&& m == b &&& m) := by
  rw [Bool.eq_iff_iff, beq_iff_eq, beq_iff_eq, Nat.and_xor_distrib_right, Nat.and_xor_distrib_right, Nat.xor_left_inj]

/-- Settles O31: in each of the twenty words the inverted key and the inverted copy agree under the mask where the key
and the entry do. -/
theorem lanesSearchAlike : Obligations.LanesSearchAlike := by
  intro t key i hi
  rw [Bool.eq_iff_iff, tcamHitsB, tcamHits, List.all_eq_true, List.all_eq_true]
  refine forall₂_congr fun w hw => ?_
  have hw := List.mem_range.1 hw
  rw [t.laneB_mask hw hi, t.laneB_key hw, xor_and_beq]

-- ==== which action applies (R128) ====

section

variable (d : Dev) (m : Made) {key port i : Nat} {e : EmEntry}

/-- What the exact-match table holds for a key at a port (R123): nothing where the port does not search it. -/
def Dev.emFound (key port : Nat) : Option EmEntry :=
  let prof := d.fld burPg (R.BUR_PORT_CFG0_EM_PROF.at port)
  if d.fld burPg (R.BUR_PORT_CFG0_EM_EN.at port) = 1 then d.bur.cur.emFind prof (d.emKey prof key) else none

/-- With both hits EM_FIRST of the TCAM entry decides. -/
theorem Dev.lookup_of_both (htc : tcamFind d.bur.cur key = some i) (hem : d.emFound key port = some e) :
    (d.lookup m key port).2 = if bitAt (d.bur.cur.ent tcamWin i 40) 30 then e.action else i := by
  simp only [Dev.emFound] at hem
  simp only [Dev.lookup, htc, hem]
  split
  · rfl
  · rfl

theorem Dev.lookup_of_tcam (htc : tcamFind d.bur.cur key = some i) (hem : d.emFound key port = none) :
    (d.lookup m key port).2 = i := by
  simp only [Dev.emFound] at hem
  simp only [Dev.lookup, htc, hem]

theorem Dev.lookup_of_em (htc : tcamFind d.bur.cur key = none) (hem : d.emFound key port = some e) :
    (d.lookup m key port).2 = e.action := by
  simp only [Dev.emFound] at hem
  simp only [Dev.lookup, htc, hem]

end

/-- Settles O29: with both hits by EM_FIRST, with one hit by that one. -/
theorem exactMatchOrTcam : Obligations.ExactMatchOrTcam := by
  intro d m key port t tc prof em
  exact ⟨fun i e htc hem hfirst => (d.lookup_of_both m htc hem).trans (if_pos hfirst),
    fun i e htc hem hfirst => (d.lookup_of_both m htc hem).trans (if_neg (Bool.eq_false_iff.1 hfirst)),
    fun i htc hem => d.lookup_of_tcam m htc hem, fun e htc hem => d.lookup_of_em m htc hem⟩

end Sys2Proof.Machine
end

section
/-! SUPPORT. The commands of the Burin, of editions and of the firewall (R108 to R197): what a write of their command
registers does and what ends a command, the order results are handed over in, and the statements about both. -/

namespace Sys2Proof.Machine

-- ==== results in stored order (R111) ====

section

variable {d : Dev} {fl x : Flight} {before after : List Flight}

/-- A frame finds its own flight: those before it belong to other frames. -/
theorem find?_flight (hphase : fl.phase = 2) (hid : ∀ y ∈ before, y.frm.id ≠ fl.frm.id) :
    (before ++ fl :: after).find? (fun y => y.frm.id == fl.frm.id && y.phase == 2) = some fl :=
  List.find?_eq_some_iff_append.2
    ⟨by simp [hphase], before, after, rfl, fun y hy => by simp [hid y hy]⟩

/-- A result waits where a flight before its own came in at the same port. -/
theorem Dev.resultWaits_of_earlier (hflights : d.bur.flights = before ++ fl :: after)
    (hid : ∀ y ∈ before, y.frm.id ≠ fl.frm.id) (hx : x ∈ before) (hport : x.frm.inPort = fl.frm.inPort) :
    d.resultWaits fl = true := by
  obtain ⟨y, hy⟩ : ∃ y, before.find? (fun y => y.frm.inPort == fl.frm.inPort) = some y :=
    Option.isSome_iff_exists.1 (List.find?_isSome.2 ⟨x, hx, beq_iff_eq.2 hport⟩)
  have hfirst : d.bur.flights.find? (fun y => y.frm.inPort == fl.frm.inPort) = some y := by
    rw [hflights, List.find?_append, hy, Option.some_or]
  simpa [Dev.resultWaits, hfirst] using hid y (List.mem_of_find?_eq_some hy)

/-- The hand-over of a result that waits changes nothing. -/
theorem Dev.handOff_of_waits {id : Nat} (hfind : d.bur.flights.find? (fun y => y.frm.id == id && y.phase == 2) = some fl)
    (hwaits : d.resultWaits fl = true) : d.handOff id = d := by
  simp only [Dev.handOff, hfind, hwaits, Bool.true_or, if_true]

end

/-- Settles O32: the flight of the earlier frame stands before that of the result. -/
theorem resultsKeepStoredOrder : Obligations.ResultsKeepStoredOrder := by
  intro s before after fl x d hmain hflights hphase hid hx hport
  have hfind : d.bur.flights.find? (fun y => y.frm.id == fl.frm.id && y.phase == 2) = some fl := by
    rw [hflights]
    exact find?_flight hphase hid
  exact State.runMain_next hmain (Dev.handOff_of_waits hfind (Dev.resultWaits_of_earlier hflights hid hx hport))

-- ==== classification (R112, R183) ====

section

variable {s : State} {frame : Nat} {fl : Flight} (u : Upset) (hmain : s.begun.mainRun = true)

include hmain

/-- A stored frame whose turn it is gets its slot unless the pipelines are paused. -/
theorem exec_classifyFrame_of_turn
    (hfind : s.begun.bur.flights.find? (fun x => x.frm.id == frame && x.phase == 0) = some fl)
    (hrun : s.begun.bur.paused = false) (hturn : s.begun.slotWaits fl = false) :
    exec (.classifyFrame frame u) s = .next (s.ends (s.begun.classify fl u)) :=
  State.runMain_next hmain (by simp only [hfind, hrun, hturn, Bool.or_self, Bool.false_eq_true, if_false])

/-- The connection read of the first frame of a bucket returns. -/
theorem exec_connectionLookupDone_of_turn
    (hfind : s.begun.bur.flights.find? (fun x => x.frm.id == frame && x.phase == 1) = some fl)
    (hturn : s.begun.ctBehind fl = false) :
    exec (.connectionLookupDone frame u) s = .next (s.ends (s.begun.ctDone fl u)) :=
  State.runMain_next hmain (by simp only [hfind, hturn, Bool.false_eq_true, if_false])

end

-- ==== exact-match commands (R124) ====

section

variable {d : Dev} {who : Owner}

/-- GO of an exact-match command takes the eight words of the entry and the party that wrote it. -/
def Dev.emStart (d : Dev) (who : Owner) (op : Nat) : Dev :=
  let d := (d.setFld burPg R.BUR_EM_CMD_OP op).setFlag burPg R.BUR_EM_STAT_BUSY true
  let ws := (List.range 8).map (fun k => d.fld burPg (R.BUR_EM_ENTRY_WORD.at k))
  d.withBur (fun b => { b with emRun := some (op, who.code, ws) })

/-- GO by the holder starts its command where neither an exact-match nor an edition command runs. -/
theorem Dev.emGo_of_idle {v op : Nat} (hgo : bitAt v 31 = true) (hlow : bits v 1 0 = op) (hop : op ≠ 3)
    (hholds : d.holds burPg who = true) (hidle : d.flag burPg R.BUR_EM_STAT_BUSY = false)
    (hed : d.flag burPg R.BUR_EDITION_STAT_BUSY = false) : d.emGo who v = d.emStart who op := by
  have hop3 : (op == 3) = false := beq_eq_false_iff_ne.2 hop
  simp only [Dev.emGo, Dev.emStart, hlow, hgo, hholds, hidle, hed, hop3, Bool.not_true, Bool.or_self, Bool.false_eq_true,
    if_false]

/-- The running command ends: its operation gives RESULT, BUSY clears, and DONE is set and raised. -/
theorem Dev.emFinish_of_run {run : Nat × Nat × List Nat} (hrun : d.bur.emRun = some run) :
    d.emFinish =
      (let r := d.emRunOp run.1 run.2.1 run.2.2
       let d' := r.2.withBur (fun b => { b with emRun := none })
       ((((d'.setFlag burPg R.BUR_EM_STAT_BUSY false).setFlag burPg R.BUR_EM_STAT_DONE true).setFld
         burPg R.BUR_EM_STAT_RESULT r.1).raise burPg 1).digestResult 2 r.1) := by
  simp only [Dev.emFinish, hrun]

end

/-- A command that is an admitted write of BUR_EM_CMD. -/
theorem Dev.emWrite_of_admits {d : Dev} {who : Owner} (v : Nat) (hadm : d.admits who burPg 0x120 = true) :
    d.emWrite who v = d.wrote who burPg 0x120 v (fun d => d.emGo who v) :=
  Dev.gateW_of_admits _ _ _ _ _ _ hadm

-- ==== table windows (R149, R150) ====

/-- A write of the tables that every check admits follows the rule of its window. -/
theorem Dev.gateTab_of_clear {d : Dev} {a : Access} {off : Nat} (hrel : d.start.released = true)
    (hmapped : bar4Mapped off = true) (hreach : d.reaches a.who (bar4Page off) = true) (hsize : a.size = 8)
    (halign : off % 8 = 0) (hready : d.domainReady (bar4Page off).domain = true) (hbarred : d.orderBarred = false)
    (hwait : d.waits (bar4Page off).domain = false) (hcredit : d.noCredit = false) (hqueue : d.waits creditTag = false) :
    d.gateTab a off = d.act a true (fun d => d.bar4Write a.who.code off a.data) := by
  simp [Dev.gateTab, hrel, hmapped, hreach, hsize, halign, hready, hbarred, hwait, hcredit, hqueue]

section

variable {d : Dev} {code a v : Nat} {x : TabWin} {t t' : Tables} (howner : d.ownsShadow code = true)
  (hfrozen : d.frozen = false) (hem : emWin.has a = false) (hload : inLoad a = false) (hwin : findTab a = some x)
  (hshadow : d.bur.shadow = some t)

include howner hfrozen hem hload hwin hshadow

/-- The owner of the shadow writes a table entry into it and the change is counted. -/
theorem Dev.bar4Write_of_taken (htaken : t.write64 x a v = some t') :
    d.bar4Write code a v = (d.withBur (fun b => { b with shadow := some t' })).shadowCount 1 := by
  simp only [Dev.bar4Write, howner, hfrozen, hem, hload, hwin, hshadow, htaken, Bool.not_true, Bool.or_self,
    Bool.false_eq_true, if_false]

/-- A value that the rule of the table refuses is not written. -/
theorem Dev.bar4Write_of_bad (hbad : t.write64 x a v = none) : d.bar4Write code a v = d.refuse burPg := by
  simp only [Dev.bar4Write, howner, hfrozen, hem, hload, hwin, hshadow, hbad, Bool.not_true, Bool.or_self,
    Bool.false_eq_true, if_false]

end

-- ==== edition commands (R152, R153) ====

section

variable {d : Dev} {who : Owner}

/-- GO of OPEN, ABANDON or LOAD keeps what the checks find as it is written (the model's choice: assumption 61). -/
def Dev.edStart (d : Dev) (who : Owner) (op : Nat) : Dev :=
  let d := d.edAccept (2 ^ 31 + op)
  d.withBur (fun b => { b with edRun := some (op, who.code, d.edCheck who op) })

/-- OPEN, ABANDON and LOAD start where no edition command runs. -/
theorem Dev.edGo_of_idle {op : Nat} (hop : op = 1 ∨ op = 3 ∨ op = 4)
    (hidle : d.flag burPg R.BUR_EDITION_STAT_BUSY = false) : d.edGo who (2 ^ 31 + op) true = d.edStart who op := by
  have hlow : bits (2 ^ 31 + op) 3 0 = op := by
    unfold bits
    omega
  have hgo : bitAt (2 ^ 31 + op) 31 = true := by
    rw [bitAt, beq_iff_eq]
    omega
  have hnone : ¬ (d.flag burPg R.BUR_EDITION_STAT_BUSY || decide (op = 0) || decide (4 < op)) = true := by
    simp only [hidle, Bool.false_or, Bool.or_eq_true, decide_eq_true_eq]
    omega
  simp only [Dev.edGo, Dev.edStart, hlow, hgo, Bool.not_true, Bool.false_eq_true, if_false]
  rw [if_neg hnone, if_neg (by omega)]

/-- COMMIT runs its Checks and Prepare steps where no edition command runs. -/
theorem Dev.edGo_commit (revoke selfTest : Bool) (hidle : d.flag burPg R.BUR_EDITION_STAT_BUSY = false) :
    d.edGo who (2 ^ 31 + b2n revoke * 2 ^ 8 + 2) selfTest =
      (d.edAccept (2 ^ 31 + b2n revoke * 2 ^ 8 + 2)).edCommit who revoke selfTest := by
  have hle := b2n_le_one revoke
  have hlow : bits (2 ^ 31 + b2n revoke * 2 ^ 8 + 2) 3 0 = 2 := by
    unfold bits
    omega
  have hgo : bitAt (2 ^ 31 + b2n revoke * 2 ^ 8 + 2) 31 = true := by
    rw [bitAt, beq_iff_eq]
    omega
  have hrev : bitAt (2 ^ 31 + b2n revoke * 2 ^ 8 + 2) 8 = revoke := by
    cases revoke <;> decide
  simp only [Dev.edGo, hlow, hgo, hrev, hidle]
  rfl

/-- A command that its checks refused ends with their reason. -/
theorem Dev.edDone_of_refused {run : Nat × Nat × Nat} (hrun : d.bur.edRun = some run) (hbad : run.2.2 ≠ 0) :
    d.edDone = d.edFinish run.2.2 0 := by
  simp only [Dev.edDone, hrun, if_pos hbad]

/-- An OPEN that passed its checks makes the shadow. -/
theorem Dev.edDone_open {run : Nat × Nat × Nat} (hrun : d.bur.edRun = some run) (hop : run.1 = 1) (hgood : run.2.2 = 0) :
    d.edDone = (d.edOpen run.2.1).edFinish 0 0 := by
  simp only [Dev.edDone, hrun, hop, hgood, ne_eq, not_true_eq_false, if_false, if_true]

/-- GO of an edition command is taken from any party whose write of the Burin's registers is not made to wait (R153). -/
theorem Dev.edWrite_of_clear {v : Nat} (selfTest : Bool) (hgo : bitAt v 31 = true) (hrel : d.start.released = true)
    (hreach : d.reaches who burPg = true) (hready : d.domainReady burPg.domain = true)
    (hwait : d.waits burPg.domain = false) (hsnap : d.snapBusy.contains burPg.idx = false) (hbarred : d.orderBarred = false)
    (hcredit : d.noCredit = false) (hqueue : d.waits creditTag = false) :
    d.edWrite who v selfTest = d.wrote who burPg 0xC8 v (fun d => d.edGo who v selfTest) := by
  have hjudge : (wr who burPg 0xC8 v).ownJudge burPg 0xC8 = true := hgo
  have hinert : inert burPg 0xC8 (wr who burPg 0xC8 v).size = false := by
    change inert burPg 0xC8 4 = false
    decide
  have hmsix : msixArea burPg 0xC8 = false := by decide
  have hsize : sizeOk (.reg burPg 0xC8) true 4 0xC8 = true := by decide
  refine (Dev.gate_of_clear d (wr who burPg 0xC8 v) _ hrel (by decide) hreach hsize hready hwait hsnap
    (fun _ => ⟨hbarred, hcredit, hqueue⟩)).trans ?_
  rw [if_neg (Bool.eq_false_iff.1 hinert), if_neg (by simp [refusesPeer]), if_neg (by simp [hmsix]),
    if_neg (by simp [hjudge])]
  rfl

end

-- ==== diagnostic gates (R194) ====

/-- OPEN_REQ with SECONDS opens the gate for them. -/
theorem Dev.gateWrite_open (d : Dev) (i : Nat) {sec : Nat} (hlt : sec < 2 ^ 16) (hsec : sec ≠ 0) :
    d.gateWrite i (2 ^ 30 + sec) = d.gateOpen i sec := by
  have hlow : bits (2 ^ 30 + sec) 15 0 = sec := by
    unfold bits
    omega
  have hopen : bitAt (2 ^ 30 + sec) 30 = true := by
    rw [bitAt, beq_iff_eq]
    omega
  have hclose : bitAt (2 ^ 30 + sec) 29 = false := by
    rw [bitAt, beq_eq_false_iff_ne]
    omega
  have hsome : (sec == 0) = false := beq_eq_false_iff_ne.2 hsec
  simp only [Dev.gateWrite, hlow, hopen, hclose, hsome, Bool.or_self, Bool.and_false, Bool.false_eq_true, if_false, if_true]

/-- CLOSE_REQ closes the gate. -/
theorem Dev.gateWrite_close (d : Dev) (i : Nat) : d.gateWrite i (2 ^ 29) = d.gateClose i := rfl

/-- Settles O45: each command by its test, or by the lemma that says what its operation does under the conditions named. -/
theorem classifierCommandsComplete : Obligations.ClassifierCommandsComplete := by
  intro s who off data frame bucket fl u revoke selfTest bad k seconds run t table load d busy
  refine ⟨?emGo, ?emDone, ?fragExpire, ?tableWrite, ?classify, ?lookupDone, ?edGo, ?edDone, ?flip, ?sweep, ?credit,
    ?gateOpen, ?gateClose⟩
  case emGo =>
    intro hadm hholds hidle hed
    have hstart {v op : Nat} (hgo : bitAt v 31 = true) (hlow : bits v 1 0 = op) (hop : op ≠ 3) :
        (.next (s.ends (d.emWrite who v)) : Answer) = .next (s.ends (d.wrote who burPg 0x120 v (busy op))) :=
      (State.next_ends (Dev.emWrite_of_admits v hadm)).trans
        (State.next_wrote (Dev.emGo_of_idle hgo hlow hop hholds hidle hed))
    exact ⟨hstart (by decide) (by decide) (by decide), hstart (by decide) (by decide) (by decide),
      hstart (by decide) (by decide) (by decide)⟩
  case emDone => exact fun hmain hrun => State.runMain_next hmain (Dev.emFinish_of_run hrun)
  case fragExpire => exact State.runMain_of s _
  case tableWrite =>
    intro p a hrel hmapped hreach halign hready hbarred hwait hcredit hqueue
    refine ⟨State.next_ends (Dev.gateTab_of_clear hrel hmapped hreach rfl halign hready hbarred hwait hcredit hqueue),
      fun howner hfrozen hem hload hwin hshadow => ?_⟩
    split
    next htaken => exact Dev.bar4Write_of_taken howner hfrozen hem hload hwin hshadow htaken
    next hbad => exact Dev.bar4Write_of_bad howner hfrozen hem hload hwin hshadow hbad
  case classify => exact exec_classifyFrame_of_turn u
  case lookupDone => exact exec_connectionLookupDone_of_turn u
  case edGo =>
    intro hrel hreach hready hwait hsnap hbarred hcredit hqueue hidle starts v
    have hwrite {v : Nat} (st : Bool) (hgo : bitAt v 31 = true) :
        (.next (s.ends (d.edWrite who v st)) : Answer) = .next (s.ends (d.wrote who burPg 0xC8 v (fun d => d.edGo who v st))) :=
      State.next_ends (Dev.edWrite_of_clear st hgo hrel hreach hready hwait hsnap hbarred hcredit hqueue)
    have hstart {op : Nat} (hop : op = 1 ∨ op = 3 ∨ op = 4) (hgo : bitAt (2 ^ 31 + op) 31 = true) :
        (.next (s.ends (d.edWrite who (2 ^ 31 + op))) : Answer)
          = .next (s.ends (d.wrote who burPg 0xC8 (2 ^ 31 + op) (starts op))) :=
      (hwrite true hgo).trans (State.next_wrote (Dev.edGo_of_idle hop hidle))
    have hcommit : bitAt v 31 = true := by
      cases revoke <;> decide
    exact ⟨hstart (by decide) (by decide), hstart (by decide) (by decide), hstart (by decide) (by decide),
      (hwrite selfTest hcommit).trans (State.next_wrote (Dev.edGo_commit revoke selfTest hidle))⟩
  case edDone =>
    intro hmain hrun
    exact ⟨fun hbad => State.runMain_next hmain (Dev.edDone_of_refused hrun hbad),
      fun hop hgood => State.runMain_next hmain (Dev.edDone_open hrun hop hgood)⟩
  case flip =>
    intro hmain hpaused hflipped hempty
    exact State.runMain_next hmain (if_pos (Bool.and_eq_true_iff.2
      ⟨Bool.and_eq_true_iff.2 ⟨hpaused, (Bool.not_eq_true' _).mpr hflipped⟩, hempty⟩))
  case sweep => exact State.runMain_of s _
  case credit => exact State.runMain_of s _
  case gateOpen =>
    intro hadm hsec
    exact (State.next_ends (Dev.gateW_of_admits _ _ _ _ _ _ hadm)).trans
      (State.next_wrote (d.gateWrite_open k seconds.isLt hsec))
  case gateClose =>
    intro close
    exact ⟨fun hadm => (State.next_ends (Dev.gateW_of_admits _ _ _ _ _ _ hadm)).trans
      (State.next_wrote (d.gateWrite_close k)), State.runMain_of s _⟩

end Sys2Proof.Machine
end

section
/-! SUPPORT. Firmware and configuration update (R154, R507 to R518): the commands that a mailbox runs to their end, what
their operations do under the tests they make, and the statement about the commands. -/

namespace Sys2Proof.Machine

-- ==== the commands ====

section

variable {s : State} {d d' : Dev} (hd : s.begun = d)

include hd

/-- What a command of the main domains leaves, for a name of the device it finds. -/
theorem State.runMain_next_at {f : Dev → Dev} (hmain : d.mainRun = true) (h : f d = d') :
    s.runMain f = .next (s.ends d') :=
  (State.runMain_at hd hmain).trans (State.next_ends h)

variable {m : Fin 4} {code : Nat} {r : MbRun} (hrun : d.mainRun = true ∧ d.mbRun m code = some r)

include hrun

/-- A mailbox's command runs to its end, and its response is written (R396). -/
theorem State.runMain_mbServe {f : Dev → MbRun → List Nat × Dev} {ws : List Nat} (h : f d r = (ws, d')) :
    s.runMain (fun d => d.mbServe m code f) = .next (s.ends (d'.mbEnd r 0 ws)) :=
  State.runMain_next_at hd hrun.1 (by simp only [Dev.mbServe, hrun.2, h])

/-- The same, where the response is a STATUS alone. -/
theorem State.runMain_mbStatus (f : Dev → List Nat → Nat × Dev) {st : Nat} (h : f d r.body = (st, d')) :
    s.runMain (fun d => d.mbServe m code (fun d r => ([(f d r.body).1], (f d r.body).2))) =
      .next (s.ends (d'.mbEnd r 0 [st])) :=
  State.runMain_mbServe hd hrun (by rw [h])

end

section

variable {s : State} {d : Dev} {m : Fin 4} {r : MbRun} (hd : s.begun = d)

include hd

/-- UPD_FINISH writes its response, and a REASON from 1 to 3 is a SECURITY fault (R514). -/
theorem exec_updFinish_of_run (hrun : d.mainRun = true ∧ d.mbRun m 0x0F03 = some r) {ws : List Nat} {bad : Bool} {d' : Dev}
    (h : d.updFinish (r.body.getD 0 0 % 2) = (ws, bad, d')) :
    exec (.updFinish m) s = .next (s.ends ((d'.mbEnd r 0 ws).when bad (fun d => d.fault { cls := 9, page := updPg }))) :=
  State.runMain_next_at hd hrun.1 (by simp only [hrun.2, h])

/-- UPD_ACTIVATE writes its response, and an accepted activation begins after it (R515). -/
theorem exec_updActivate_of_accepted (hrun : d.mainRun = true ∧ d.mbRun m 0x0F04 = some r)
    (h : (d.actStatus (bits (r.body.getD 0 0) 4 4) (r.body.getD 0 0 % 4) (r.wide 1)).1 = 0) :
    exec (.updActivate m) s = .next (s.ends
      (((d.actStatus (bits (r.body.getD 0 0) 4 4) (r.body.getD 0 0 % 4) (r.wide 1)).2.mbEnd r 0 [0]).actBegin
        (bits (r.body.getD 0 0) 4 4) (r.body.getD 0 0 % 4) (r.wide 1))) :=
  State.runMain_next_at hd hrun.1 (by simp only [hrun.2, h, Dev.when, beq_self_eq_true, if_true])

end

section

variable {d : Dev}

-- ==== transfer (R514) ====

/-- An inline block that passes every test is programmed and counted. -/
theorem Dev.updBlock_of_inline {body : List Nat} {n off size : Nat} {data : List Byte} (host : List Byte)
    (hn : body.getD 0 0 % 2 = n) (hoff : body.getD 1 0 = off) (hsize : body.getD 2 0 % 2 ^ 17 = size)
    (hdata : ((body.drop 4).flatMap (leBytes 4)).take size = data) (hinline : bitAt (body.getD 0 0) 1 = true)
    (hoff4 : off % 4 = 0) (hsize4 : size % 4 = 0) (hmin : 4 ≤ size) (hmax : size ≤ 232)
    (hlen : off + size ≤ d.fld updPg (R.UPD_SLOT_LEN_LENGTH.at n)) (hblock : off / 65536 = (off + size - 1) / 65536)
    (hstate : d.slotState n = 2) (hall : data.length = size) (hcrc : crc32c data = body.getD 3 0)
    (hfree : d.overlaps (slotBase n + off) data = false) :
    d.updBlock body host true =
      (0, ((d.withFlash (fun f => f.program (slotBase n + off) data)).cnt updPg 0).cnt updPg 1 size) := by
  simp only [Dev.updBlock, hn, hoff, hsize, hdata, hinline, if_true]
  rw [if_neg (by simp; omega), if_neg (not_not.2 hstate), if_neg (not_not.2 hall), if_neg (not_not.2 hcrc),
    if_neg (Bool.eq_false_iff.1 hfree), if_neg (by decide)]

/-- UPD_CANCEL of a slot under way, with no activation scheduled. -/
theorem Dev.updCancel_of_writing {n : Nat} (hphase : d.actPhase ≠ 4) (hstate : d.slotState n = 2) :
    d.updCancel n = (0, (d.withUpd (fun u => { u with known := u.known.filter (· != n) })).setSlot n 4 8) := by
  have hunscheduled : (d.actPhase == 4) = false := beq_eq_false_iff_ne.2 hphase
  simp [Dev.updCancel, Dev.when, hunscheduled, hstate]

/-- An effect of a number that lies between two bounds. -/
theorem Dev.when_between (f : Dev → Dev) (a b c : Nat) :
    d.when (decide (a ≤ b) && decide (b ≤ c)) f = if a ≤ b ∧ b ≤ c then f d else d := by
  simp only [Dev.when, Bool.and_eq_true, decide_eq_true_eq]

-- ==== activation (R516) ====

/-- The last step of the renewal of a pair: it takes its duties back, and the next pair's renewal begins. -/
theorem Dev.hitlessStep_of_loaded (hphase : d.actPhase = 3) :
    d.hitlessStep .done =
      (let p := d.fld updPg R.UPD_ACT_PAIR
       let d' := (d.pairBack p).setFld updPg R.UPD_ACT_DONE_MASK (d.fld updPg R.UPD_ACT_DONE_MASK ||| 2 ^ p)
       (d'.withUpd (fun u => { u with todo := u.todo.drop 1 })).renewNext) := by
  simp [Dev.hitlessStep, hphase]

-- ==== the configuration store (R508) ====

section

variable {k : Nat} (pages : Nat) (hcopy : d.cfg.compact = some k) (hflash : d.flashHeld d.cfg.since = false)

include hcopy hflash

/-- After the first copy the compaction of the other begins. -/
theorem Dev.compacted_first (hfirst : d.cfg.second = false) :
    d.compacted pages = d.withCfg (fun c => (c.copied k pages).compactFrom (1 - k) true d.now) := by
  simp [Dev.compacted, Dev.when, hcopy, hflash, hfirst]

/-- After the second the compaction is done, counted and raised. -/
theorem Dev.compacted_second (hsecond : d.cfg.second = true) :
    d.compacted pages =
      ((d.withCfg (fun c => { c.copied k pages with compact := none, second := false, meanwhile := 0 })).cnt updPg 4).raise
        updPg 3 := by
  simp [Dev.compacted, Dev.when, hcopy, hflash, hsecond]

end

end

/-- Settles O55: each command by its test, or by the lemma that says what its operation does under the conditions named. -/
theorem updateCommandsComplete : Obligations.UpdateCommandsComplete := by
  intro s m r host slot pages k ok d runs w answers n
  have hd : s.begun = d := rfl
  clear_value d
  refine ⟨?begin, ?eraseDone, ?block, ?finish, ?cancel, ?confirm, ?activate, ?hitless, ?scheduled, ?save, ?compaction,
    ?editionSave, ?editionResume⟩
  case begin =>
    intro hrun hactive hphase hmin hmax halign
    have hfree : ¬ (d.flag updPg (R.UPD_SLOT_STAT_ACTIVE.at n) || decide (d.actPhase ≠ 0)) = true := by
      simp [hactive, hphase]
    have hlen : ¬ (decide (w 1 < 8192) || decide (slotSize < w 1) || decide (w 1 % 4096 ≠ 0)) = true := by
      simp only [Bool.or_eq_true, decide_eq_true_eq]
      omega
    exact State.runMain_mbStatus hd hrun Dev.updBegin ((if_neg hfree).trans (if_neg hlen))
  case eraseDone =>
    intro hmain hstate hflash
    exact State.runMain_next_at hd hmain (if_neg (by simp [hstate, hflash]))
  case block =>
    intro size data hrun hinline hoff hsize hmin hmax hlen hblock hstate hall hcrc hfree
    exact State.runMain_mbStatus hd hrun (fun d body => d.updBlock body host true)
      (Dev.updBlock_of_inline host rfl rfl rfl rfl hinline hoff hsize hmin hmax hlen hblock hstate hall hcrc hfree)
  case finish =>
    intro hrun hstate
    exact (exec_updFinish_of_run hd hrun (if_neg (not_not.2 hstate))).trans (State.next_ends (Dev.when_between _ _ _ _))
  case cancel =>
    intro hrun hphase hstate
    exact State.runMain_mbStatus hd hrun (fun d body => d.updCancel (body.getD 0 0 % 2))
      (Dev.updCancel_of_writing hphase hstate)
  case confirm =>
    intro hrun hactive hphase hdone
    have hallowed : ¬ (!d.flag updPg (R.UPD_SLOT_STAT_ACTIVE.at n) || decide (d.actPhase ≠ 0)
        || !(d.fld updPg R.UPD_ACT_DONE_MASK == 0xF || d.upd.byReset)) = true := by simp [hactive, hphase, hdone]
    exact State.runMain_mbStatus hd hrun (fun d body => d.updConfirm (body.getD 0 0 % 2))
      (if_neg hallowed)
  case activate => exact fun hrun hstatus => exec_updActivate_of_accepted hd hrun hstatus
  case hitless => exact fun hmain hphase => State.runMain_next_at hd hmain (Dev.hitlessStep_of_loaded hphase)
  case scheduled =>
    intro hmain hphase hfeature htime
    exact State.runMain_next_at hd hmain (if_pos (by simp [hphase, hfeature, htime]))
  case save =>
    intro hrun hclean hfits
    exact State.runMain_mbServe hd hrun ((if_neg (Bool.eq_false_iff.1 hclean)).trans (if_neg (by simp [hfits])))
  case compaction =>
    intro hmain hcopy hflash y c
    exact ⟨fun hfirst => State.runMain_next_at hd hmain (Dev.compacted_first pages hcopy hflash hfirst),
      fun hsecond => State.runMain_next_at hd hmain (Dev.compacted_second pages hcopy hflash hsecond)⟩
  case editionSave =>
    intro hmain hcommitting hpaused hflash
    exact State.runMain_next_at hd hmain (if_neg (by simp [hcommitting, hpaused, hflash]))
  case editionResume =>
    intro hmain hpaused hflipped
    exact State.runMain_next_at hd hmain (if_pos (Bool.and_eq_true_iff.2 ⟨hpaused, hflipped⟩))

end Sys2Proof.Machine
end

section
/-! SUPPORT. The Letterbox commands of the firewall's connections, schedules, captures, MKA and the event archive (R200,
R258, R399, R415, R437, R466, R478): what each does under the tests it makes, and the statement about them. -/

namespace Sys2Proof.Machine

-- ==== the commands of the connection table (R200) ====

section

variable {s : State} {d : Dev} {m : Fin 4} {r : MbRun} (hd : s.begun = d) (hserves : d.ctServes = true)

include hd hserves

/-- CT_QUERY of a key that the table can hold answers what the search finds. -/
theorem exec_ctQuery_of_key (hrun : d.mainRun = true ∧ d.mbRun m 0x0710 = some r)
    (hproto : bits (r.body.getD 0 0) 15 8 ∈ [1, 6, 17, 58]) (hlow : bits (r.body.getD 0 0) 7 6 ≠ 0)
    (hhigh : bits (r.body.getD 0 0) 7 6 ≠ 3) :
    exec (.ctQuery m) s = .next (s.ends (d.ctCmd.mbEnd r 0 (match d.ctQuery r.body with
      | some c => 0 :: (c.recordA ++ c.counters)
      | none => [1]))) := by
  have hgood : ¬ (!([1, 6, 17, 58].contains (bits (r.body.getD 0 0) 15 8)) || bits (r.body.getD 0 0) 7 6 == 0
      || bits (r.body.getD 0 0) 7 6 == 3) = true := by
    rw [List.contains_iff_mem.2 hproto, beq_eq_false_iff_ne.2 hlow, beq_eq_false_iff_ne.2 hhigh]
    decide
  exact State.runMain_mbServe hd hrun
    (Prod.ext ((if_neg (by simp [hserves])).trans (if_neg hgood)) rfl)

/-- CT_FLUSH of a table in service frees what its filter matches. -/
theorem exec_ctFlush_of_serves (hrun : d.mainRun = true ∧ d.mbRun m 0x0711 = some r) {hit : List Conn}
    (hhit : d.ctAll.filter (ctMatches (r.body.getD 0 0)) = hit) :
    exec (.ctFlush m) s = .next (s.ends ((hit.foldl Dev.ctFree d).ctCmd.mbEnd r 0 [0, hit.length])) := by
  subst hhit
  exact State.runMain_mbServe hd hrun (if_neg (by simp [hserves]))

/-- CT_DUMP of a table in service writes what its filter matches to a good host address. -/
theorem exec_ctDump_of_serves (hrun : d.mainRun = true ∧ d.mbRun m 0x0712 = some r) (hiova : iovaBad (r.wide 0) = false)
    {hit out : List Conn} (hhit : d.ctAll.filter (ctMatches (r.body.getD 3 0)) = hit)
    (hout : hit.take (r.body.getD 2 0 / 128) = out) :
    exec (.ctDump m) s = .next (s.ends
      ((d.when (!out.isEmpty) (fun d => d.emit (.hostWrite (r.wide 0) (out.flatMap dumpBytes)))).ctCmd.mbEnd r 0
        [if out.length < hit.length then 4 else 0, out.length])) := by
  subst hhit hout
  exact State.runMain_mbServe hd hrun ((if_neg (by simp [hserves])).trans (if_neg (by simp [hiova])))

end

-- ==== SCHED_LOAD (R258) ====

/-- An image whose header, sections and entries are good is written where none of its pages is locked or copied. -/
theorem Dev.schedLoad_of_good {d : Dev} {iova len : Nat} {img : List Byte} {secs : List SchedSec} {pages : List Page}
    (hiova : iovaBad iova = false) (hheader : schedHeader img len = 0)
    (hsections : schedSections img (imgW img 0x0C % 2 ^ 16) 0 64 [] = .ok secs)
    (hentries : (enum secs).find? (fun e => (List.range e.2.count).any (fun k => e.2.bad img k)) = none)
    (hpages : (secs.map SchedSec.page).eraseDups = pages)
    (hfree : pages.any (fun p => d.flag p R.PAGE_LOCK_HELD || (p.kind == .sch && d.flag p R.SCH_GCL_STAT_COPYING)) = false) :
    d.schedLoad iova len img = ([0], secs.foldl (fun d x => d.schedWrite img x)
      (pages.foldl (fun d p => d.incWrap p R.PAGE_LOCK_GRANT_SEQ) d)) := by
  subst hpages
  rw [Dev.schedLoad, if_neg (Bool.eq_false_iff.1 hiova)]
  simp only [hheader, hsections, hentries, ne_eq, not_true_eq_false, if_false]
  exact if_neg (Bool.eq_false_iff.1 hfree)

-- ==== commands that write to the host (R415, R478) ====

section

variable {s : State} {d : Dev} {m : Fin 4} {r : MbRun} (hd : s.begun = d)

include hd

/-- CAP_READ within a capture region that the host holds writes its bytes to the host. -/
theorem exec_capRead_of_held (hrun : d.mainRun = true ∧ d.mbRun m 0x0C01 = some r) {region first n : Nat}
    (hregion : r.body.getD 0 0 % 16 = region) (hfirst : r.body.getD 1 0 = first) (hsize : r.body.getD 4 0 = n)
    (hheld : bitAt (d.claim (0x20 + region)) 31 = true)
    (hfeature : d.fld sysPg (R.SYS_CLAIM_FEATURE.at (0x20 + region)) = 5) (hsome : n ≠ 0) (hmax : n ≤ 2 ^ 24)
    (hend : first * 64 + n ≤ d.capUnits region * 64) (hiova : iovaBad (r.wide 2) = false) :
    exec (.capRead m true) s = .next (s.ends
      ((d.emit (.hostWrite (r.wide 2) (d.memRead (d.capBase region + 64 * first) n))).mbEnd r 0 [0, n])) := by
  subst hregion hfirst hsize
  refine State.runMain_mbServe hd hrun ((if_neg ?_).trans (if_neg (by decide)))
  simp only [hheld, hfeature, hiova, Bool.not_true, beq_self_eq_true, Bool.and_self, Bool.or_eq_true, decide_eq_true_eq,
    Bool.false_eq_true, false_or, or_false]
  omega

/-- EVENT_READ to a good host address writes the archived records asked for, and answers the number that follows. -/
theorem exec_eventRead_of_iova (hrun : d.mainRun = true ∧ d.mbRun m 0x1001 = some r) (hiova : iovaBad (r.wide 0) = false)
    {out : List (Nat × List Nat)}
    (hout : (d.flt.archive.filter (fun e => decide ((e.1 + 2 ^ 32 - r.body.getD 3 0) % 2 ^ 32 < 2 ^ 31))).take
      (r.body.getD 2 0 / 36) = out) :
    exec (.eventRead m true) s = .next (s.ends
      ((d.when (!out.isEmpty) (fun d => d.emit (.hostWrite (r.wide 0) (out.flatMap archiveBytes)))).mbEnd r 0
        [0, out.length, match out.getLast? with
          | some e => (e.1 + 1) % 2 ^ 32
          | none => r.body.getD 3 0])) := by
  subst hout
  exact State.runMain_mbServe hd hrun ((if_neg (Bool.eq_false_iff.1 hiova)).trans (if_neg (by decide)))

end

/-- Settles O54: each command by its test, or by the lemma that says what its operation does under the conditions named. -/
theorem mailboxCommandsComplete : Obligations.MailboxCommandsComplete := by
  intro s m r image port step ok secs d runs w answers
  have hd : s.begun = d := rfl
  clear_value d
  refine ⟨?echo, ?info, ?ctQuery, ?ctFlush, ?ctDump, ?schedLoad, ?capRead, ?restartHistory, ?mkaSet, ?mkaStatus, ?mkaTimer,
    ?archiveCopy, ?archiveNow, ?eventRead⟩
  case echo => exact fun hrun => State.runMain_mbServe hd hrun rfl
  case info => exact fun hrun => State.runMain_mbServe hd hrun rfl
  case ctQuery => exact fun hrun hserves => exec_ctQuery_of_key hd hserves hrun
  case ctFlush => exact fun hrun hserves => exec_ctFlush_of_serves hd hserves hrun rfl
  case ctDump => exact fun hrun hserves hiova => exec_ctDump_of_serves hd hserves hrun hiova rfl rfl
  case schedLoad =>
    intro hrun hiova hheader hsections hentries pages hfree
    exact State.runMain_mbServe hd hrun (Dev.schedLoad_of_good hiova hheader hsections hentries rfl hfree)
  case capRead => exact fun hrun => exec_capRead_of_held hd hrun rfl rfl rfl
  case restartHistory => exact fun hrun => State.runMain_mbServe hd hrun rfl
  case mkaSet => exact fun hrun => State.runMain_mbServe hd hrun rfl
  case mkaStatus =>
    intro hrun hport x
    exact State.runMain_mbServe hd hrun (Prod.ext (if_neg (Nat.not_lt.2 hport)) rfl)
  case mkaTimer =>
    intro hmain hduty hen
    exact State.runMain_next_at hd hmain (if_neg (by simp [hduty, hen]))
  case archiveCopy =>
    intro hmain hruns hstaged
    exact State.runMain_next_at hd hmain (if_pos (by simp [hruns, hstaged]))
  case archiveNow => exact fun hrun => State.runMain_mbServe hd hrun (if_pos rfl)
  case eventRead => exact fun hrun hiova => exec_eventRead_of_iova hd hrun hiova rfl

end Sys2Proof.Machine
end

section
/-! SUPPORT. The commands of the switch hall (R92, R111, R201 to R229): what reception, hand-over, spill and refill, release,
transmission and the auditor do under the tests they make, and the statement about the commands. -/

namespace Sys2Proof.Machine

-- ==== reception and storing (R92, R201, R204) ====

section

variable {d d' : Dev}

/-- A delimiter at a MAC that receives opens a reception with both stamps. -/
theorem Dev.rxSof_of_receives {p : Nat} (hmac : d.macReceives p = true) :
    d.rxSof p = d.setPort p { d.port p with
      rx := some { stamp0 := d.rxStamp p 0, stamp1 := d.rxStamp p 1, at0 := d.rxPoint p,
                   deep := d.flag (prtPg p) R.PRT_CTRL_CLASS_MODE, maxLen := d.fld (prtPg p) R.PRT_FRAME_MAX_LEN,
                   stopped := d.state (prtPg p) == 3 } } :=
  if_neg (by rw [hmac]; decide)

/-- A frame that passes every check of R92 at a port without MACsec is taken by the hall, unless gPTP takes it. -/
theorem Dev.rxEnd_of_good {p : Nat} {e : RxEnd} {r : RxCur} (hrx : (d.port p).rx = some r)
    (hclosed : d.setPort p { d.port p with rx := none } = d') (hmac : d'.macReceives p = true) (hopen : r.stopped = false)
    (hassembled : e.assemblyErr = false) (hgood : rxFails e r.maxLen = none) (hplain : 24 ≤ p)
    (hgptp : ((d'.rxSymbols p e).flag pmkPg R.PMK_GPTP_CFG_EN && isGptp e.data) = false) :
    d.rxEnd p e = (d'.rxSymbols p e).rxTake p r e.data := by
  subst hclosed
  simp only [Dev.rxEnd, hrx, hmac, hopen, hassembled, hgood, Nat.not_lt.2 hplain, hgptp, Bool.not_true,
    Bool.false_eq_true, if_false]

/-- A stored frame is counted, and its header joins the flights of a Burin that is ON. -/
theorem Dev.frameStored_of_on {id : Nat} {f : Frm} (hget : d.hall.stored.get? id = some f)
    (hfree : f.inPort < 40 → d.isoPort f.inPort = false) (hport : d.stalled (portIsland f.inPort) 0 = false)
    (hburin : d.stalled 0 1 = false)
    (hcounted : ((d.withHall (fun h => { h with stored := h.stored.erase id })).prtCnt f.inPort 0).prtCnt f.inPort 1 f.len = d')
    (hshl : d'.isOn shlPg = true) (hbur : d'.isOn burPg = true) :
    d.frameStored id = d'.withBur (fun b => { b with flights := b.flights ++
      [{ frm := { f with storedAt := d'.now, rxMirror := d'.rxMirrorOf f.inPort, mirrors := d'.mirrorsNow },
         pipe := d'.pipeFor, at0 := d'.now, portCfg := d'.burPortCfg f.inPort }] }) := by
  subst hcounted
  have hpasses : ¬ (decide (f.inPort < 40) &&
      (d.withHall (fun h => { h with stored := h.stored.erase id })).isoPort f.inPort) = true := by
    rw [Bool.and_eq_true, decide_eq_true_eq]
    exact fun ⟨hlow, hiso⟩ => Bool.false_ne_true ((hfree hlow).symm.trans hiso)
  simp only [Dev.frameStored, hget, hport, hburin, if_neg hpasses, hshl, hbur, Bool.or_self, Bool.not_true,
    Bool.false_eq_true, if_false]

end

-- ==== the hand-over of a result (R111, R206) ====

section

variable {d d' : Dev} {id : Nat} {fl : Flight}
  (hfind : d.bur.flights.find? (fun x => x.frm.id == id && x.phase == 2) = some fl) (hturn : d.resultWaits fl = false)
  (hcredit : d.stalled 1 0 = false)
  (hgone : d.withBur (fun b => { b with flights := b.flights.filter (fun x => x.frm.id != id) }) = d')

include hfind hturn hcredit hgone

/-- A result that DROP gave leaves the Burin unmetered and asks for no copies. -/
theorem Dev.handOff_of_drop (hdrop : fl.frm.res.destType = 0) : d.handOff id = d'.admitAll fl.frm fl.frm.sessions [] := by
  subst hgone
  simp only [Dev.handOff, hfind, hturn, hcredit, hdrop, Bool.or_self, Bool.false_eq_true, if_false, if_true]

/-- Any other result that its meters let through asks for its copies. -/
theorem Dev.handOff_of_metered {m : Metered} {dm : Dev} (hdest : fl.frm.res.destType ≠ 0)
    (hmeter : d'.meter fl.frm = (some m, dm)) :
    d.handOff id = (dm.copiesOf fl.frm m).2.admitAll fl.frm fl.frm.sessions (dm.copiesOf fl.frm m).1 := by
  subst hgone
  simp only [Dev.handOff, hfind, hturn, hcredit, hdest, hmeter, Bool.or_self, Bool.false_eq_true, if_false]

end

-- ==== spill and refill (R213, R214) ====

section

variable {d d' : Dev} {i : Nat} {c : Copy}

/-- The oldest spill write, withdrawn where its copy is revoked or aged, gives up the frame's cells. -/
theorem Dev.spillWritten_of_cons {w : Nat × Nat} {ws : List (Nat × Nat)} (hwriting : d.hall.writing = w :: ws)
    (hcredit : d.stalled 0 0x0E = false) {gone : Bool}
    (hgone : (d.queue w.1).spill.any (fun c => c.frm.id == w.2 && (d.revoked c.frm.res || d.aged w.1 c)) = gone)
    (hrest : d.withHall (fun h => { h with writing := ws }) = d') :
    d.spillWritten = (if gone then d'.dsWithdraw 0 w.2 else d'.dsFinish 0 w.2).endCopy w.2 := by
  subst hgone hrest
  simp only [Dev.spillWritten, hwriting, hcredit, Bool.false_eq_true, if_false]

/-- The head of a spilled queue is asked for where the queue is low enough, and cells and read budget are left. -/
theorem Dev.refillRead_of_due {rest : List Copy} (hspill : (d.queue i).spill = c :: rest)
    (hidle : (d.queue i).refill = none) (hwritten : d.hall.writing.contains (i, c.frm.id) = false)
    (hcredit : d.stalled 0x0E 0 = false) (hlow : d.depth i < (d.fld shlPg (R.SHL_Q_SPILL_ON_ON.at i) + 1) / 2)
    (hcells : c.cells ≤ d.sharedFree) (hbudget : 0 < d.hall.readBudget)
    (hasked : (d.setQueue i { d.queue i with spill := rest, refill := some c }).withHall (fun h => { h with
      readBudget := h.readBudget - 2048 * c.blocks }) = d') :
    d.refillRead i = (((List.range c.blocks).foldl (fun d _ => d.dsAsk { who := 1, at0 := 0, tag := c.frm.id }) d').shlCnt
      8).lowWater := by
  subst hasked
  simp only [Dev.refillRead, hspill, hidle, hwritten, hcredit, Nat.not_le.2 hlow, Nat.not_lt.2 hcells,
    Int.not_le.2 hbudget, decide_false, Bool.or_self, Bool.false_eq_true, if_false]

/-- A copy read back whole and not aged stands on chip again, in cells of its own. -/
theorem Dev.refillDone_of_whole (hrefill : (d.queue i).refill = some c)
    (htaken : (d.dsTake 1 c.frm.id).2.setQueue i { d.queue i with refill := none } = d')
    (hwhole : (d.dsTake 1 c.frm.id).1 = false) (hyoung : d'.aged i c = false) {k : Nat} {d2 d3 : Dev}
    (hframe : d'.newFrame = (k, d2))
    (hheld : d2.withHall (fun h => { h with held := h.held.set k { inPort := c.frm.inPort, cells := c.cells, copies := 1 } })
      = d3) :
    d.refillDone i false = (d3.setQueue i { d3.queue i with chip := (d3.queue i).chip ++
      [{ c with blocks := 0, hold := some k }] }).lowWater := by
  subst htaken hheld
  simp only [Dev.refillDone, hrefill, hwhole, hyoung, hframe, Bool.or_self, Bool.false_eq_true, if_false]

end

-- ==== release and transmission (R88, R207, R215, R242) ====

section

variable {d d' : Dev} {n : Nat}

/-- A port that may release sends the copy its selection picks, where no armed checker meets it. -/
theorem Dev.release_of_picked {q : Nat} {c : Copy} (corrected uncorr : Bool) (host : HostSide)
    (hon : n < 40 → d.state (prtPg n) ≠ 0) (hmay : d.mayRelease n = true)
    (hpick : d.pick n (d.queued n + 1) = (some (q, c), d')) {d2 : Dev} (hcounted : d'.released n q c c.read.2 = d2)
    (hinject : d2.shlInject c = none) :
    d.release n corrected uncorr host = (((d2.when corrected (fun d => d.shlCnt 16)).when uncorr (fun d =>
      ((d.shlCnt 15).raise shlPg 3).fault { cls := 0, page := shlPg, checker := 0x10 })).toPort n q c c.read.1 uncorr
        host).lowWater := by
  subst hcounted
  have hstands : ¬ (decide (n < 40) && d.state (prtPg n) == 0) = true := by
    rw [Bool.and_eq_true, decide_eq_true_eq, beq_iff_eq]
    exact fun ⟨hlow, hoff⟩ => hon hlow hoff
  simp only [Dev.release, if_neg hstands, hmay, hpick, hinject, Bool.not_true, Bool.false_eq_true, if_false]

/-- Pre-emption reorders the released copies of its port and changes nothing else (R240, R242). -/
theorem Dev.merge_eq_self_or_setTx (d : Dev) (n : Nat) : d.merge n = d ∨ ∃ l, d.merge n = d.setTx n l := by
  unfold Dev.merge
  split
  next => exact .inl rfl
  next t ts =>
    dsimp only
    split
    next hcut =>
      split
      next => exact .inr ⟨_, rfl⟩
      next => exact .inr ⟨_, rfl⟩
    next =>
      split
      next => exact .inr ⟨_, rfl⟩
      next => exact .inl rfl

/-- No register changes as pre-emption reorders the released copies. -/
@[simp] theorem Dev.regs_merge (d : Dev) (n : Nat) : (d.merge n).regs = d.regs := by
  obtain h | ⟨l, h⟩ := d.merge_eq_self_or_setTx n
  · rw [h]
  · rw [h, Dev.regs_setTx]

/-- Whether a port is looped back is told by its registers alone. -/
theorem Dev.looped_congr (n : Nat) (h : d'.regs = d.regs) : d'.looped n = d.looped n := by
  simp only [Dev.looped, Dev.fld, Dev.wide, Dev.word, h]

section

variable (t : TxCopy)

@[simp] theorem Dev.copy_txSof : (d.txSof n t).copy = t.copy := by
  unfold Dev.txSof
  split <;> rfl

@[simp] theorem Dev.bytes_txSof : (d.txSof n t).bytes = t.bytes := by
  unfold Dev.txSof
  split <;> rfl

@[simp] theorem Dev.bad_txSof : (d.txSof n t).bad = t.bad := by
  unfold Dev.txSof
  split <;> rfl

end

/-- A frame whose end is met on the wire of a port that is not looped back leaves, is counted and is time stamped. -/
theorem Dev.txDone_of_sent {t : TxCopy} {ts : List TxCopy} {x : TxSof} (frags colls : Nat) (htx : d.txOf n = t :: ts)
    (hup : d.portUp n = true) (hdriven : d.forcedIdle n = false) (hwhole : t.cut = false) (hloop : d.looped n = false)
    (hsof : (d.txSof n t).sof = some x)
    (hleft : ((d.setTx n (d.txNext n ts)).merge n).emit (.frame n t.bytes t.bad) = d') {d2 : Dev}
    (hcounted : (if t.bad then d' else (d'.prtCnt n 8).prtCnt n 9 (t.bytes.length + 4)) = d2) :
    d.txDone n frags colls = ((((d2.when (d.txSof n t).pre (fun d => d.prtCnt n 17 frags)).when (decide (32 ≤ n))
      (fun d => d.prtCnt n 23 colls)).txSettle t.copy.frm.id 0 (some (x.stamp0.toNat, n))).gptpStamped n x
        t.copy.frm.id).endOf t.copy := by
  subst hleft hcounted
  have hwire : ((d.setTx n (d.txNext n ts)).merge n).looped n = false :=
    (Dev.looped_congr n ((Dev.regs_merge _ n).trans (Dev.regs_setTx d n _))).trans hloop
  have hunlooped : d.when (t.sof.isNone && d.looped n) (fun d => d.rxSof n) = d := by
    rw [hloop, Bool.and_false]
    rfl
  simp only [Dev.txDone, htx, hup, hdriven, hwhole, hunlooped, hwire, hsof, Dev.copy_txSof, Dev.bytes_txSof,
    Dev.bad_txSof, Bool.not_true, Bool.or_self, Bool.false_eq_true, if_false]

end

-- ==== the auditor (R225, R226) ====

section

variable {d d' : Dev}

/-- A check that no fault is injected into holds the accounts against the total and what was found before. -/
theorem Dev.audit_of_unarmed {k : Nat} (island account : Nat) {diff expected found : Int} {checked : Dev}
    (hunarmed : d.isArmed shlPg k = false) (hdisarmed : d.disarm shlPg k = d')
    (hexpected : d.auditTotal k + d.hall.drift.getD k 0 = expected) (hfound : d'.auditSum k + diff = found)
    (hchecked : (d'.setFld shlPg (R.SHL_AUDIT_SUM_SUM.at k) (wrapTo 32 (found + 0))).incWrap shlPg
      (R.SHL_AUDIT_CHECKS_COUNT.at k) = checked) :
    d.audit k island account diff = (if found = expected then checked
      else checked.auditDiff k k island account (wrapTo 32 expected) (found - expected) false) := by
  subst hdisarmed hexpected hfound hchecked
  simp only [Dev.audit, Dev.check, hunarmed, Bool.false_eq_true, if_false]

/-- A census that no fault is injected into reports the difference it finds. -/
theorem Dev.census_of_unarmed (diff : Int) (hunarmed : d.isArmed shlPg 5 = false) (hdisarmed : d.disarm shlPg 5 = d') :
    d.census diff = (if diff = 0 then d'
      else d'.auditDiff 0 5 0 0xFFFF (wrapTo 32 (98304 + d'.hall.drift.getD 0 0)) diff false) := by
  subst hdisarmed
  simp only [Dev.census, Dev.check, hunarmed, Bool.false_eq_true, if_false]

end

/-- Settles O43: each command by its test, or by the lemma that says what its operation does under the conditions named. -/
theorem hallCommandsComplete : Obligations.HallCommandsComplete := by
  intro s who p n q e r frame f fl c rest kind island account diff corrected uncorr host frags colls w ws t ts x m dm d i
  have hd : s.begun = d := rfl
  clear_value d
  refine ⟨?rxSof, ?rxEnd, ?loopback, ?stored, ?drop, ?metered, ?spillWritten, ?refillRead, ?refillDone, ?credit, ?ageScan,
    ?release, ?txDone, ?audit, ?lowWater⟩
  case rxSof =>
    exact fun hmain hloop hmac =>
      State.runMain_next_at hd hmain ((if_neg (Bool.eq_false_iff.1 hloop)).trans (Dev.rxSof_of_receives hmac))
  case rxEnd =>
    intro hmain hloop hrx d' hmac hopen hassembled hgood hplain hgptp
    exact State.runMain_next_at hd hmain ((if_neg (Bool.eq_false_iff.1 hloop)).trans
      (Dev.rxEnd_of_good hrx rfl hmac hopen hassembled hgood hplain hgptp))
  case loopback =>
    exact fun hmain hloop => ⟨State.runMain_next_at hd hmain (if_pos hloop), State.runMain_next_at hd hmain (if_pos hloop)⟩
  case stored =>
    intro hmain hget hfree hport hburin d' d'' hshl hbur
    exact State.runMain_next_at hd hmain (Dev.frameStored_of_on hget hfree hport hburin rfl hshl hbur)
  case drop =>
    exact fun hmain hfind hturn hcredit hdrop =>
      State.runMain_next_at hd hmain (Dev.handOff_of_drop hfind hturn hcredit rfl hdrop)
  case metered =>
    exact fun hmain hfind hturn hcredit hdest hmeter =>
      State.runMain_next_at hd hmain (Dev.handOff_of_metered hfind hturn hcredit rfl hdest hmeter)
  case spillWritten =>
    exact fun hmain hwriting hcredit => State.runMain_next_at hd hmain (Dev.spillWritten_of_cons hwriting hcredit rfl rfl)
  case refillRead =>
    exact fun hmain hspill hidle hwritten hcredit hlow hcells hbudget => State.runMain_next_at hd hmain
      (Dev.refillRead_of_due hspill hidle hwritten hcredit hlow hcells hbudget rfl)
  case refillDone =>
    exact fun hmain hrefill hwhole hyoung =>
      State.runMain_next_at hd hmain (Dev.refillDone_of_whole hrefill rfl hwhole hyoung rfl rfl)
  case credit => exact fun hmain hon => State.runMain_next_at hd hmain (if_pos hon)
  case ageScan => exact fun hmain => State.runMain_at hd hmain
  case release =>
    intro hmain hon hmay d' qc hpick d2 hinject
    exact State.runMain_next_at hd hmain (Dev.release_of_picked corrected uncorr host hon hmay (Prod.ext hpick rfl) rfl hinject)
  case txDone =>
    exact fun hmain htx hup hdriven hwhole hloop hsof => State.runMain_next_at hd hmain
      (Dev.txDone_of_sent frags colls htx hup hdriven hwhole hloop hsof rfl rfl)
  case audit =>
    intro hmain hkind hcensus d1 expected found checked
    exact ⟨State.runMain_next_at hd hmain (Dev.audit_of_unarmed island.toNat account.toNat hkind rfl rfl rfl rfl),
      State.runMain_next_at hd hmain (Dev.census_of_unarmed diff hcensus rfl)⟩
  case lowWater =>
    intro hadm
    have hrestart : d.lowWaterWrite (2 ^ 31) = d.setFld shlPg R.SHL_LOW_WATER_LOW d.sharedFree := if_pos (by decide)
    subst hd
    exact (State.next_ends (Dev.gateW_of_admits _ _ _ _ _ _ hadm)).trans (State.next_wrote hrestart)

end Sys2Proof.Machine
end

section
/-! SUPPORT. The policers' buckets (R252): what setting and moving them leaves, what a refill tick does, and the statement
about it. -/

namespace Sys2Proof.Machine

/-- A word held with 0 left out reads as it was written. -/
theorem NMap.getD_put0 (m : NMap Nat) (k k' v : Nat) : (put0 m k v).getD k' 0 = if k' = k then v else m.getD k' 0 := by
  unfold put0
  split
  next hzero =>
    rw [NMap.getD, NMap.get?_erase]
    split
    · exact hzero.symm
    · rfl
  next hstored =>
    split
    next hkey => rw [hkey, NMap.getD_set_same]
    next hkey => exact NMap.getD_set_other m v 0 (Ne.symm hkey)

-- ==== moving the buckets ====

section

variable (d : Dev) (i j gainC gainE lossC lossE tc te : Nat)

/-- Only the committed bucket of the policer named is set. -/
theorem Dev.tcOf_moveBuckets : (d.moveBuckets i gainC gainE lossC lossE tc te).tcOf j = if j = i then tc else d.tcOf j := by
  split
  next hself => exact hself ▸ NMap.getD_set_same d.frk.tc j tc _
  next hother => exact NMap.getD_set_other d.frk.tc tc _ (Ne.symm hother)

/-- Only the excess bucket of the policer named is set. -/
theorem Dev.teOf_moveBuckets : (d.moveBuckets i gainC gainE lossC lossE tc te).teOf j = if j = i then te else d.teOf j :=
  NMap.getD_put0 d.frk.te i j te

/-- The tables stay as their buckets move. -/
theorem Dev.frkWords_moveBuckets : (d.moveBuckets i gainC gainE lossC lossE tc te).frk.words = d.frk.words := rfl

end

-- ==== a refill tick ====

section

variable {d : Dev} {i : Nat}

/-- A policer whose entry is not valid gains nothing. -/
theorem Dev.policerTick_of_invalid (h : bitAt (d.frkWord 1 i 0) 31 = false) : d.policerTick i = d :=
  if_pos ((Bool.not_eq_true' _).mpr h)

/-- A valid one moves its buckets by CIR and EIR, in millionths of a byte, and what TC cannot take goes to TE with CF. -/
theorem Dev.policerTick_of_valid (h : bitAt (d.frkWord 1 i 0) 31 = true) {cir eir tc spill : Nat}
    (hcir : 8 * bits (d.frkWord 1 i 1) 24 0 = cir) (heir : 8 * bits (d.frkWord 1 i 2) 24 0 = eir) (htc : d.tcOf i + cir = tc)
    (hspill : (if bitAt (d.frkWord 1 i 0) 29 then tc - (d.bucketSizes i).1 else 0) = spill) :
    d.policerTick i = d.moveBuckets i (cir - spill) (eir + spill) 0 0 (min tc (d.bucketSizes i).1)
      (min (d.teOf i + spill + eir) (d.bucketSizes i).2) := by
  subst hcir heir htc hspill
  rw [Nat.mul_comm 8, Nat.mul_comm 8]
  exact if_neg (by rw [h]; decide)

end

/-- Settles O26: by whether the policer's entry is valid. -/
theorem policerBucketsRefill : Obligations.PolicerBucketsRefill := by
  intro d i htcFits hteFits d' tc spill
  cases hvalid : bitAt (d.frkWord 1 i 0) 31 with
  | false =>
    have htick : d' = d := Dev.policerTick_of_invalid hvalid
    rw [htick]
    exact ⟨htcFits, hteFits, fun j _ => ⟨rfl, rfl⟩, rfl, fun h => absurd h Bool.false_ne_true⟩
  | true =>
    have htick : d' = _ := Dev.policerTick_of_valid hvalid rfl rfl rfl rfl
    have htc : d'.tcOf i = min tc (d.bucketSizes i).1 := by rw [htick, Dev.tcOf_moveBuckets, if_pos rfl]
    have hte : d'.teOf i = min (d.teOf i + spill + 8 * bits (d.frkWord 1 i 2) 24 0) (d.bucketSizes i).2 := by
      rw [htick, Dev.teOf_moveBuckets, if_pos rfl]
    refine ⟨htc ▸ min_le_right _ _, hte ▸ min_le_right _ _, fun j hj => ?others, ?tables, fun _ => ⟨htc, hte⟩⟩
    case others => rw [htick, Dev.tcOf_moveBuckets, Dev.teOf_moveBuckets, if_neg hj, if_neg hj]; exact ⟨rfl, rfl⟩
    case tables => rw [htick, Dev.frkWords_moveBuckets]

end Sys2Proof.Machine
end

section
/-! SUPPORT. The commands of the schedulers and of Franking (R230 to R261): what a change, a copy, a swap, a list write and a
table command do under the tests they make, and the statement about the commands. -/

namespace Sys2Proof.Machine

-- ==== gate control lists (R234 to R238) ====

/-- The pending swap of a port is less than 1 µs away, or it is past and the old entry is being extended (R238;
assumption 145). -/
def Dev.swapNear (d : Dev) (n : Nat) : Bool :=
  match (d.sched n).pend with
  | some o => d.flag (schPg n) R.SCH_GCL_STAT_EXTENDING || decide (o.swap < d.anchorNs o.clock + 1000)
  | none => false

/-- What is done unless a test holds. -/
theorem Dev.when_not (d : Dev) (b : Bool) (f : Dev → Dev) : d.when (!b) f = if b then d else f d := by
  cases b <;> rfl

section

variable {d d' : Dev} {n : Nat}

/-- The entry of this time begins at a port that runs its list, with no checker armed and no error standing (R235). -/
theorem Dev.gateEvent_of_unarmed (hport : n < 40) (hon : d.isOn (schPg n) = true)
    (hext : d.flag (schPg n) R.SCH_GCL_STAT_EXTENDING = false) (hunarmed : d.isArmed (schPg n) 0 = false)
    (hopen : (d.sched n).shut = false) (hdisarmed : d.disarm (schPg n) 0 = d') :
    d.gateEvent n false = (d'.setSched n { d'.sched n with shut := false }).gclEnter n (d'.gclNow n) := by
  subst hdisarmed
  have hshut : ((d.disarm (schPg n) 0).sched n).shut = false := hopen
  simp only [Dev.gateEvent, Dev.check, hon, hext, hunarmed, hshut, Nat.not_lt.2 (Nat.le_of_lt_succ hport), decide_false,
    Bool.not_true, Bool.or_self, Bool.false_and, Bool.false_eq_true, if_false]

/-- A good CHANGE by the holder starts the copy; a change that pends gives way to it unless its own swap is near (R236,
R238; what is done while EXTENDING is assumption 145). -/
theorem Dev.gclCmd_change {who : Owner} (hport : n < 40) (hholds : d.holds (schPg n) who = true)
    (hcopying : d.flag (schPg n) R.SCH_GCL_STAT_COPYING = false) (htorn : d.flag (schPg n) R.PAGE_STAT_TORN = false)
    (hgood : d.changeBad n = false) {near : Bool} (hnear : d.swapNear n = near)
    (hcopied : (d.setSched n { d.sched n with copying := some (d.adminCfg n), nearSwap := near, next := none
                                              pend := if near then (d.sched n).pend else none }).setFlag (schPg n)
      R.SCH_GCL_STAT_COPYING true = d') :
    d.gclCmd who n (2 ^ 31) = if near then d' else d'.setFlag (schPg n) R.SCH_GCL_STAT_PENDING false := by
  subst hcopied hnear
  have hchange : bitAt (2 ^ 31) 31 = true := by decide
  have hcancel : bitAt (2 ^ 31) 30 = false := by decide
  simp only [Dev.gclCmd, hchange, hcancel, hholds, hcopying, htorn, hgood, Nat.not_lt.2 (Nat.le_of_lt_succ hport),
    decide_false, Bool.not_true, Bool.and_false, Bool.false_and, Bool.or_self, Bool.false_eq_true, if_false]
  exact Dev.when_not _ (d.swapNear n) _

/-- CANCEL by the holder drops what pends, and ends an extension (R238; the extension is assumption 145). -/
theorem Dev.gclCmd_cancel {who : Owner} (hholds : d.holds (schPg n) who = true)
    (hdropped : (d.setSched n { d.sched n with pend := none, next := none }).setFlag (schPg n) R.SCH_GCL_STAT_PENDING false = d') :
    d.gclCmd who n (2 ^ 30) = if d'.flag (schPg n) R.SCH_GCL_STAT_EXTENDING then (d'.extStop n).gclEnter n (d'.gclNow n)
      else d' := by
  subst hdropped
  have hchange : bitAt (2 ^ 30) 31 = false := by decide
  have hcancel : bitAt (2 ^ 30) 30 = true := by decide
  simp only [Dev.gclCmd, Dev.when, hchange, hcancel, hholds, Bool.not_true, Bool.not_false, Bool.and_false,
    Bool.false_and, Bool.false_eq_true, if_false, if_true]

/-- A valid entry that its holder writes whole goes to INDEX, which steps (R234). -/
theorem Dev.gclWrite_of_valid {who : Owner} {v : Nat} (hport : n < 40) (hholds : d.holds (schPg n) who = true)
    (hcopying : d.flag (schPg n) R.SCH_GCL_STAT_COPYING = false) (hadmin : d.flag (schPg n) R.SCH_GCL_INDEX_LIST = false)
    (hgood : gclBad v = false) {i : Nat} (hi : d.fld (schPg n) R.SCH_GCL_INDEX_INDEX = i) :
    d.gclWrite who n v true =
      (d.setSched n { d.sched n with admin := put0 (d.sched n).admin i (bits v 43 0)
                                     adminWrites := (d.sched n).adminWrites + 1 }).setFld (schPg n)
        R.SCH_GCL_INDEX_INDEX ((i + 1) % 1024) := by
  subst hi
  simp only [Dev.gclWrite, hholds, hcopying, hadmin, hgood, Nat.not_lt.2 (Nat.le_of_lt_succ hport), decide_false,
    Bool.not_true, Bool.or_self, Bool.false_eq_true, if_false, if_true]

end

-- ==== copies and swaps (R236 to R238) ====

section

variable {d : Dev} {n : Nat} {g : Gcl}

section

variable {st : Nat} {late : Bool} (hcopying : (d.sched n).copying = some g)
  (hswap : g.swapAt (d.anchorNs g.clock + 1000) = (st, late))

include hcopying hswap

/-- A copy that ends with no near forerunner left pends until its swap time. -/
theorem Dev.gclCopied_of_free (hfree : (d.sched n).nearSwap = false ∨ (d.sched n).pend = none) :
    d.gclCopied n = ((((d.setFlag (schPg n) R.SCH_GCL_STAT_COPYING false).setSched n
        { d.sched n with copying := none, pend := some { g with swap := st } }).setFlag (schPg n) R.SCH_GCL_STAT_PENDING
          true).setFld (schPg n) R.SCH_GCL_PEND_TIME_S st).when late
      (fun d => (d.addCount (schPg n) 0x308 1).raise (schPg n) 1) := by
  have hnow : ((d.sched n).nearSwap && (d.sched n).pend.isSome) = false := by
    rcases hfree with h | h <;> simp [h]
  simp only [Dev.gclCopied, hcopying, hswap, hnow, Bool.false_eq_true, if_false]

/-- One that ends with its forerunner still pending waits behind it. -/
theorem Dev.gclCopied_of_near (hnear : (d.sched n).nearSwap = true) (hpend : (d.sched n).pend.isSome = true) :
    d.gclCopied n = ((d.setFlag (schPg n) R.SCH_GCL_STAT_COPYING false).setSched n
        { d.sched n with copying := none, next := some { g with swap := st } }).when late
      (fun d => (d.addCount (schPg n) 0x308 1).raise (schPg n) 1) := by
  simp only [Dev.gclCopied, hcopying, hswap, hnear, hpend, Bool.and_self, if_true]

end

section

variable (hpend : (d.sched n).pend = some g)

include hpend

/-- At S the pending list takes over, unless the running entry is extended. -/
theorem Dev.gclSwap_of_pend : d.gclSwap n =
    if d.extension n g = 0 then d.gclTake n g.swap g
    else (d.setSched n { d.sched n with extEnd := g.swap + d.extension n g }).setFlag (schPg n)
      R.SCH_GCL_STAT_EXTENDING true := by
  simp only [Dev.gclSwap, hpend]

/-- An extension that ends gives way to the pending list. -/
theorem Dev.gclExtended_of_pend (hext : d.flag (schPg n) R.SCH_GCL_STAT_EXTENDING = true) :
    d.gclExtended n = d.gclTake n (d.sched n).extEnd g := by
  simp only [Dev.gclExtended, hpend, hext, if_true]

end

end

-- ==== table commands (R248, R249) ====

section

variable {d : Dev}

/-- GO while no table command runs takes the eight words, the entry selected and OP. -/
theorem Dev.frkGo_of_idle {v op : Nat} (hgo : bitAt v 31 = true) (hop : bits v 0 0 = op)
    (hidle : d.flag frkPg R.FRK_TBL_STAT_BUSY = false) {d' : Dev}
    (hbusy : (d.setFld frkPg R.FRK_TBL_CMD_OP op).setFlag frkPg R.FRK_TBL_STAT_BUSY true = d') :
    d.frkGo v = d'.withFrk (fun f => { f with run := some (op, d'.fld frkPg R.FRK_TBL_SEL_TABLE,
      d'.fld frkPg R.FRK_TBL_SEL_INDEX, (List.range 8).map (fun k => d'.fld frkPg (R.FRK_TBL_W_WORD.at k))) }) := by
  subst hop hbusy
  simp only [Dev.frkGo, hgo, hidle, Bool.not_true, Bool.false_eq_true, if_false]

/-- A table command that runs ends with its result, which the pair's digest takes. -/
theorem Dev.frkDone_of_run {run : Nat × Nat × Nat × List Nat} (hrun : d.frk.run = some run) {r : Nat} {d' : Dev}
    (hended : d.frkRun run.1 run.2.1 run.2.2.1 run.2.2.2 = (r, d')) :
    d.frkDone = (((((d'.withFrk (fun f => { f with run := none })).setFlag frkPg R.FRK_TBL_STAT_BUSY false).setFlag frkPg
      R.FRK_TBL_STAT_DONE true).setFld frkPg R.FRK_TBL_STAT_RESULT r).raise frkPg 0).digestResult 3 r := by
  simp only [Dev.frkDone, hrun, hended]

end

-- ==== the commands ====

section

variable {s : State} {d : Dev} (hd : s.begun = d)

include hd

/-- A command that happens on a scheduler page of its own runs where the page is ON. -/
theorem State.runSch_next_at {n : Nat} {f : Dev → Dev} {d' : Dev} (hmain : d.mainRun = true) (hon : d.isOn (schPg n) = true)
    (h : f d = d') : s.runSch n f = .next (s.ends d') :=
  State.runMain_next_at hd hmain ((if_pos hon).trans h)

/-- What a command that is an admitted 32-bit write leaves, for a name of the device it finds. -/
theorem State.run_gateW_next_at {who : Owner} {p : Page} {off v : Nat} {f g : Dev → Dev}
    (hadm : d.admits who p off = true) (h : f d = g d) :
    s.run (fun d => d.gateW who p off v f) = .next (s.ends (d.wrote who p off v g)) :=
  (State.run_at hd).trans ((State.next_ends (Dev.gateW_of_admits _ _ _ _ _ _ hadm)).trans (State.next_wrote h))

end

/-- Settles O46: each command by its test, or by the lemma that says what its operation does under the conditions named. -/
theorem scheduleCommandsComplete : Obligations.ScheduleCommandsComplete := by
  intro s who k n m g value run bad d p pm a
  have hd : s.begun = d := rfl
  clear_value d
  refine ⟨?refill, ?frerReset, ?gateEvent, ?change, ?cancel, ?copied, ?copiedBehind, ?swap, ?extensionEnd, ?entryWrite,
    ?histSample, ?maxRestart, ?tblGo, ?tblDone⟩
  case refill => exact fun hmain => State.runMain_at hd hmain
  case frerReset =>
    exact fun hmain hon hrecov => State.runMain_next_at hd hmain ((if_pos hon).trans (if_pos hrecov))
  case gateEvent =>
    exact fun hport hmain hon hext hunarmed hopen =>
      State.runMain_next_at hd hmain (Dev.gateEvent_of_unarmed hport hon hext hunarmed hopen rfl)
  case change =>
    exact fun hport hadm hholds hcopying htorn hgood =>
      State.run_gateW_next_at hd hadm (Dev.gclCmd_change hport hholds hcopying htorn hgood rfl rfl)
  case cancel =>
    exact fun hadm hholds => State.run_gateW_next_at hd hadm (Dev.gclCmd_cancel hholds rfl)
  case copied =>
    exact fun hmain hcopying hfree => State.runMain_next_at hd hmain (Dev.gclCopied_of_free hcopying rfl hfree)
  case copiedBehind =>
    exact fun hmain hcopying hnear hpend => State.runMain_next_at hd hmain (Dev.gclCopied_of_near hcopying rfl hnear hpend)
  case swap =>
    exact fun hmain hon hext hpend =>
      State.runSch_next_at hd hmain hon ((if_neg (Bool.eq_false_iff.1 hext)).trans (Dev.gclSwap_of_pend hpend))
  case extensionEnd =>
    exact fun hmain hon hext hpend => State.runSch_next_at hd hmain hon (Dev.gclExtended_of_pend hpend hext)
  case entryWrite =>
    exact fun hport hadm hholds hcopying hadmin hgood => (State.run_at hd).trans (State.next_ends
      ((Dev.gate_of_admits d a p 0xE0 _ hadm).trans
        (Dev.act_congr d a true _ _ (Dev.gclWrite_of_valid hport hholds hcopying hadmin hgood rfl))))
  case histSample => exact fun hmain hon => State.runMain_next_at hd hmain (if_neg (by simp [hon]))
  case maxRestart => exact fun hadm => State.run_gateW_next_at hd hadm rfl
  case tblGo =>
    exact fun hadm hidle =>
      ⟨State.run_gateW_next_at hd hadm (Dev.frkGo_of_idle (by decide) (by decide) hidle rfl),
        State.run_gateW_next_at hd hadm (Dev.frkGo_of_idle (by decide) (by decide) hidle rfl)⟩
  case tblDone => exact fun hmain hrun => State.runMain_next_at hd hmain (Dev.frkDone_of_run hrun rfl)

end Sys2Proof.Machine
end

section
/-! SUPPORT. The commands of the Postmark (R262 to R290): what the gPTP engine, the anchors, the working clocks and the
event outputs do under the tests they make, and the statement about the commands. -/

namespace Sys2Proof.Machine

-- ==== the gPTP engine (R266 to R270) ====

/-- A Sync of the domain an anchor tracks, on the domain's SLAVE port, is taken for that anchor (R267, R269). -/
theorem Dev.gptpRx_of_sync {d d' : Dev} {m : GptpMsg} {rest : List GptpMsg} {n : Nat} (hon : d.gptpOn = true)
    (hrx : d.gptpStamps.pmk.rx = m :: rest) (hsync : beNat (slice (gptpBody m.data) 0 1) % 16 = 0)
    (htaken : d.gptpStamps.withPmk (fun x => { x with rx := rest }) = d')
    (hfollowed : [0, 1].find? (fun n => d'.flag pmkPg (R.PMK_ANCHOR_CFG_TRACK.at n)
      && d'.domainOf n == beNat (slice (gptpBody m.data) 4 1)) = some n)
    (hslave : d'.role n m.port = 2) : d.gptpRx = d'.syncRx n m (gptpBody m.data) := by
  subst htaken
  simp [Dev.gptpRx, hon, hrx, hsync, hfollowed, hslave]

-- ==== anchors (R271 to R275) ====

section

variable {d d' : Dev} {n : Nat}

/-- The other anchor decides where a LOCKED anchor goes at a timeout: FOLLOW in a hot standby where that one is LOCKED,
HOLDOVER elsewhere (R273). -/
theorem Dev.ancTimeout_of_locked (hon : d.isOn pmkPg = true) (hlocked : d.ancState n = 2)
    (hcounted : d.bump pmkPg 0x2000 8 = d') :
    d.ancTimeout n = if d'.flag pmkPg R.PMK_HS_CFG_EN && d'.ancState (1 - n) == 2 then
      ((d'.setAnchor n { d'.anchor n with delta := ((d'.anchor n).sub : Int) - (d'.anchor (1 - n)).sub }).bump
        pmkPg 0x2000 13).setAncState n 4
    else d'.setAncState n 3 := by
  subst hcounted
  exact if_neg (by simp [hon, hlocked])

/-- SET takes an anchor in FREE to the time written (R273). -/
theorem Dev.ancCmd_set (hfree : d.ancState n = 0) :
    d.ancCmd n (2 ^ 30) = d.ancStep n (d.fld pmkPg (R.PMK_ANCHOR_SET_NS.at n) * subPerNs) := by
  have hresync : bitAt (2 ^ 30) 31 = false := by decide
  have hset : bitAt (2 ^ 30) 30 = true := by decide
  simp only [Dev.ancCmd, hresync, hset, hfree, bne_self_eq_false, Bool.false_and, Bool.and_false, Bool.or_self,
    Bool.false_eq_true, if_false, if_true]

/-- RESYNC in SPLIT steps an anchor by its last offset and ends the split (R273). -/
theorem Dev.ancCmd_resync (hsplit : d.flag pmkPg (R.PMK_ANCHOR_STAT_SPLIT.at n) = true) :
    d.ancCmd n (2 ^ 31) = ((d.ancBack n (d.anchor n).offset).setAncState n 1).setFlag pmkPg
      (R.PMK_ANCHOR_STAT_SPLIT.at n) false := by
  have hresync : bitAt (2 ^ 31) 31 = true := by decide
  have hset : bitAt (2 ^ 31) 30 = false := by decide
  simp only [Dev.ancCmd, hresync, hset, hsplit, Bool.not_true, Bool.false_and, Bool.and_false, Bool.or_self,
    Bool.false_eq_true, if_false, if_true]

end

-- ==== working clocks (R276 to R278) ====

section

variable {d : Dev} {c : Nat}

/-- A legal configuration that enables a clock sets it to its source's time and rate, and ends its slew (R276, R277). -/
theorem Dev.wcWrite_enable {v : Nat} (hsource : bits v 30 28 ≤ 1) (htau : bits v 27 24 ≤ 10) (hslew : 0 < bits v 23 0)
    (hmax : bits v 23 0 ≤ 1000000) (hen : bitAt v 31 = true) (hoff : d.wcOn c = false) {d' : Dev}
    (hwritten : d.setWord pmkPg (0x200 + 0x20 * (c - 2)) v = d') :
    d.wcWrite c v = (d'.setWc c { sub := (d'.anchor (bits v 30 28)).sub, rate := d'.ancRate (bits v 30 28) }).wcSettle c := by
  subst hwritten
  have hlegal : ¬ ((1 < bits v 30 28 || 10 < bits v 27 24 || bits v 23 0 = 0 || 1000000 < bits v 23 0
      || (d.wcOn c && bits v 30 28 != d.wcSource c) || (d.wcOn c && !bitAt v 31 && d.claimHeld (0x30 + c))) = true) := by
    simp [hoff, Nat.not_lt.2 hsource, Nat.not_lt.2 htau, Nat.not_lt.2 hmax, Nat.ne_of_gt hslew]
  exact (if_neg hlegal).trans (if_pos (by simp [hoff, hen]))

/-- RESTEP of a clock that runs and that no feature has claimed steps it to its source (R276, R278). -/
theorem Dev.wcRestep_of_on (hclaim : d.claimHeld (0x30 + c) = false) (hon : d.wcOn c = true) :
    d.wcRestep c (2 ^ 31) = d.setWc c { d.wclock c with sub := (d.anchor (d.wcSource c)).sub } :=
  (if_neg (by decide)).trans ((if_neg (Bool.eq_false_iff.1 hclaim)).trans (if_pos hon))

end

-- ==== event outputs (R282, R283) ====

/-- A run of pulses is over: a one-shot, or COUNT pulses have come (R282). -/
def Dev.evoLast (d : Dev) (n : Nat) : Bool :=
  d.fld (evoPg n) R.PMK_EVO_PERIOD_NS = 0
    || (d.fld (evoPg n) R.PMK_EVO_COUNT_PULSES != 0 && decide (d.fld (evoPg n) R.PMK_EVO_COUNT_PULSES ≤ (d.evo n).emitted))

/-- An armed output that is neither forced nor muted pulses; the last pulse ends the run, another one sets the time of the
next (R282, R283). -/
theorem Dev.evoLead_of_armed {d d1 d2 d3 : Dev} {n : Nat} (hon : d.isOn (evoPg n) = true)
    (harmed : d.flag (evoPg n) R.PMK_EVO_STAT_ARMED = true) (hfree : d.evoForced n = false)
    (hemitted : d.setEvo n { d.evo n with emitted := (d.evo n).emitted + 1 } = d1)
    (hloud : d1.flag (evoPg n) R.PMK_EVO_FLAGS_MUTE = false)
    (hdriven : (d1.evoDrive n true).when (!d1.evoShared n) (fun d => d.evoCnt n 0) = d2)
    (hpulsed : d2.when (d2.flag (evoPg n) R.PMK_EVO_CFG_IRQ_EACH) (fun d => d.raise (evoPg n) 0) = d3) :
    d.evoLead n =
      if d3.evoLast n then
        if (d3.evo n).high then (d3.setEvo n { d3.evo n with last := true }).setFlag (evoPg n) R.PMK_EVO_STAT_ARMED false
        else d3.evoEnd n true
      else d3.setFld (evoPg n) R.PMK_EVO_NEXT_NS
        (d3.fld (evoPg n) R.PMK_EVO_NEXT_NS + d3.fld (evoPg n) R.PMK_EVO_PERIOD_NS) := by
  subst hemitted hdriven hpulsed
  simp only [Dev.evoLead, Dev.evoLast, hon, harmed, hfree, hloud, Bool.not_true, Bool.not_false, Bool.or_self, Bool.and_true,
    Bool.false_eq_true, if_false]

/-- Settles O47: each command by its test, or by the lemma that says what its operation does under the conditions named. A
LATCH while one runs latches again (assumption 75), and the time is carried every 31.25 ms (R287). -/
theorem postmarkCommandsComplete : Obligations.PostmarkCommandsComplete := by
  intro s who m rest n c value o k rising d cmd src
  have hd : s.begun = d := rfl
  clear_value d
  refine ⟨?gptpRx, ?transmit, ?timeout, ?anchorSet, ?anchorResync, ?wcEnable, ?wcRestep, ?wcUpdate, ?latch, ?latchDone,
    ?leading, ?trailing, ?capture, ?carry⟩
  case gptpRx =>
    intro hmain hon hrx hsync d' hfollowed hslave
    exact State.runMain_next_at hd hmain (Dev.gptpRx_of_sync hon hrx hsync rfl hfollowed hslave)
  case transmit =>
    intro hmain hon
    exact ⟨fun hgrand => State.runMain_next_at hd hmain (if_neg (by simp only [hon, hgrand]; decide)),
      State.runMain_next_at hd hmain (if_neg (by simp only [hon]; decide))⟩
  case timeout =>
    intro hmain hon hlocked d'
    have htimeout := Dev.ancTimeout_of_locked hon hlocked (d' := d') rfl
    exact ⟨fun halone => State.runMain_next_at hd hmain (htimeout.trans (if_neg (by simp [halone]))),
      fun hstandby hother => State.runMain_next_at hd hmain (htimeout.trans (if_pos (by simp [hstandby, hother])))⟩
  case anchorSet => exact fun hadm hfree => State.run_gateW_next_at hd hadm (Dev.ancCmd_set hfree)
  case anchorResync => exact fun hadm hsplit => State.run_gateW_next_at hd hadm (Dev.ancCmd_resync hsplit)
  case wcEnable =>
    exact fun hadm hsource htau hslew hmax hen hoff =>
      State.run_gateW_next_at hd hadm (Dev.wcWrite_enable hsource htau hslew hmax hen hoff rfl)
  case wcRestep =>
    intro hadm hclaim hon
    have hentry : 0x32 + c.val = 0x30 + (c.val + 2) := by omega
    exact State.run_gateW_next_at hd hadm (Dev.wcRestep_of_on (hentry ▸ hclaim) hon)
  case wcUpdate => exact fun hmain hon => State.runMain_next_at hd hmain (if_pos hon)
  case latch => exact fun hadm hon => State.run_gateW_next_at hd hadm (if_neg (by rw [hon]; decide))
  case latchDone => exact fun hmain hlatching => State.runMain_next_at hd hmain (if_pos hlatching)
  case leading =>
    intro hmain hon harmed hfree d' hloud
    exact State.runMain_next_at hd hmain (Dev.evoLead_of_armed hon harmed hfree rfl hloud rfl rfl)
  case trailing => exact fun hmain hhigh => State.runMain_next_at hd hmain (if_pos hhigh)
  case capture =>
    intro hmain hon hasked hfirst
    exact State.runMain_next_at hd hmain ((if_neg (by simp [hon, hasked])).trans (if_neg (by simp [hfirst])))
  case carry =>
    exact fun hon => (State.run_at hd).trans (State.next_ends (if_neg (by simp [hon])))

end Sys2Proof.Machine
end

section
/-! SUPPORT. What the lapse of time and the end of every command leave (R28), the canonical form of the sparse maps, and the
statements about them. -/

namespace Sys2Proof.Machine

/-- Updates that each leave what `g` reads leave it together. -/
theorem Dev.foldl_keeps {α β : Type} (g : Dev → β) {f : Dev → α → Dev} (h : ∀ d x, g (f d x) = g d) (l : List α) (d : Dev) :
    g (l.foldl f d) = g d := by
  induction l generalizing d with
  | nil => rfl
  | cons x l ih => rw [List.foldl_cons, ih, h]

-- ==== reset values ====

/-- Every reset value in the register maps is one word. -/
theorem reset_lt_of_mem (k : PageKind) : (headerRegs ++ snapRegs ++ k.regs).all (fun r => decide (r.reset < 2 ^ 32)) = true := by
  cases k <;> decide

/-- The number of a page within its kind is less than 128. -/
theorem Page.instance_lt {p : Page} (hp : p.exists = true) : p.instance_ < 128 := by
  obtain ⟨k, n⟩ := p
  have hn : n < k.count := of_decide_eq_true hp
  cases k <;> simp only [Page.instance_, PageKind.count] at hn ⊢ <;> omega

/-- A page's type is a byte. -/
theorem PageKind.type_lt (k : PageKind) : k.type < 256 := by
  cases k <;> decide

/-- The reset values of the fault classes are one word each. -/
theorem clsReset_lt (c : Nat) : clsCfgReset c < 2 ^ 32 ∧ clsFloor c < 4 := by
  have hbelow : ∀ c < 12, clsCfgReset c < 2 ^ 32 ∧ clsFloor c < 4 := by decide
  by_cases hc : c < 12
  · exact hbelow c hc
  · obtain ⟨k, rfl⟩ := Nat.exists_eq_add_of_le (Nat.not_lt.1 hc)
    simp [Nat.add_comm 12 k, clsCfgReset, clsFloor]

/-- A reset value that depends on the page's number is one word. -/
theorem Page.resetSpecial_lt {p : Page} (hp : p.exists = true) {off v : Nat} (h : p.resetSpecial off = some v) : v < 2 ^ 32 := by
  have hinst := Page.instance_lt hp
  have htype := PageKind.type_lt p.kind
  have hcls := clsReset_lt ((off - 0x100) / 16)
  have hport : prtModeReset p.inst < 2 ^ 32 := by
    unfold prtModeReset
    split_ifs <;> decide
  unfold Page.resetSpecial at h
  split at h
  · obtain rfl := Option.some.inj h
    omega
  · split at h
    case h_9 => nomatch h
    all_goals
      split_ifs at h
      all_goals
        obtain rfl := Option.some.inj h
        omega

/-- A register's reset value is one word. -/
theorem Page.resetNat_lt {p : Page} (hp : p.exists = true) (off : Nat) : p.resetNat off < 2 ^ 32 := by
  unfold Page.resetNat
  split
  next v hspecial => exact Page.resetSpecial_lt hp hspecial
  next =>
    split
    next r hreg =>
      have hrows := List.all_eq_true.1 (reset_lt_of_mem p.kind) r (by simpa [or_assoc] using Page.reg_mem hreg)
      exact of_decide_eq_true hrows
    next => decide

/-- What an unlisted key reads as is the reset value of its page's word. -/
theorem toNat_resetWord {p : Page} (hp : p.exists = true) {off : Nat} (hoff : off < pageSpan) :
    (resetWord (p.key off)).toNat = p.resetNat off := by
  have hpage : p.key off / pageSpan = p.idx := Page.key_div p hoff
  have hrest : p.key off % pageSpan = off := by
    rw [Page.key, Nat.mul_comm, Nat.mul_add_mod, Nat.mod_eq_of_lt hoff]
  have hnamed : Page.ofIdx p.idx = p := Page.ofIdx_idx p.kind p.inst (of_decide_eq_true hp)
  rw [resetWord, hpage, hrest, hnamed, BitVec.toNat_ofNat, Nat.mod_eq_of_lt (Page.resetNat_lt hp off)]

-- ==== the canonical form ====

/-- A register word is the listed one, or else the word an unlisted key reads as. -/
theorem Dev.word_eq_getD (d : Dev) {p : Page} (hp : p.exists = true) {off : Nat} (hoff : off < pageSpan) :
    d.word p off = (d.regs.getD (p.key off) (resetWord (p.key off))).toNat := by
  rw [Dev.word, NMap.getD]
  cases d.regs.get? (p.key off) with
  | some w => rfl
  | none => exact (toNat_resetWord hp hoff).symm

/-- Settles O8: a table brought into canonical form reads as before, and every reading is one of a table. -/
theorem canonicalFormReadsTheSame : Obligations.CanonicalFormReadsTheSame := by
  intro d p off a hp hoff
  refine ⟨?word, ?count, ?snap, ?mem, ?flash⟩
  case word =>
    rw [Dev.word_eq_getD _ hp hoff, Dev.word_eq_getD d hp hoff]
    exact congrArg BitVec.toNat (NMap.getD_canon resetWord d.regs (p.key off))
  case count => exact NMap.getD_canon (fun _ => 0) d.counts (p.key off)
  case snap => exact NMap.getD_canon (fun _ => 0) d.snaps (p.key off)
  case mem => exact NMap.getD_canon (fun _ => 0) d.dst.mem a
  case flash => exact NMap.getD_canon (fun _ => 0xFF) d.flash.mem a

/-- Settles O5: nothing is listed, and no command waits. -/
theorem resetIsSound : Obligations.ResetIsSound := ⟨⟨rfl, rfl, rfl, rfl, rfl⟩, rfl⟩

-- ==== the lapse of time ====

/-- What the begin of a transmission leaves: of the Sorting Hall all but the copies released to the wire. -/
def Dev.offWire (d : Dev) :=
  (d.now, d.regs, d.counts, d.snaps, d.dst, d.flash, d.stalls, { d.hall with tx := [] }, d.bur, d.cans)

/-- A new list of the copies released to a port's wire is no other change. -/
@[simp] theorem Dev.offWire_setTx (d : Dev) (n : Nat) (l : List TxCopy) : (d.setTx n l).offWire = d.offWire := rfl

/-- Pre-emption reorders the copies on the wire. -/
@[simp] theorem Dev.offWire_merge (d : Dev) (n : Nat) : (d.merge n).offWire = d.offWire := by
  obtain h | ⟨l, h⟩ := d.merge_eq_self_or_setTx n
  · rw [h]
  · rw [h, Dev.offWire_setTx]

/-- A frame that begins at a port changes what the port receives. -/
@[simp] theorem Dev.offWire_rxSof (d : Dev) (n : Nat) : (d.rxSof n).offWire = d.offWire := by
  unfold Dev.rxSof
  split
  · rfl
  · rfl

/-- A transmission begins by a change of the copies on the wire, which a looped port receives. -/
theorem Dev.offWire_txStart (d : Dev) (n : Nat) : (d.txStart n).offWire = d.offWire := by
  unfold Dev.txStart
  split
  next t ts _ =>
    split
    · rfl
    · rw [Dev.offWire_merge, Dev.when]
      split
      · rw [Dev.offWire_rxSof, Dev.offWire_setTx]
      · rw [Dev.offWire_setTx]
  next => rfl

/-- The clocks advance with the device's time, and nothing else does. -/
theorem Dev.clocks_eq (d : Dev) : ∃ pmk, d.clocks = { d with now := d.now + 1, pmk := pmk } := by
  unfold Dev.clocks
  dsimp only
  split
  · exact ⟨_, rfl⟩
  · exact ⟨_, rfl⟩

/-- A tick is 250 ps long, and changes nothing else but the clocks and what a transmission's begin changes. -/
theorem Dev.offWire_tick (d : Dev) : d.tick.offWire = { d with now := d.now + 1 }.offWire := by
  obtain ⟨pmk, hclocks⟩ := d.clocks_eq
  rw [Dev.tick, Dev.foldl_keeps Dev.offWire Dev.offWire_txStart, hclocks]
  rfl

/-- Settles O2: a step on an empty queue is a tick. -/
theorem emptyQueuePassesTime : Obligations.EmptyQueuePassesTime := by
  intro s hempty
  have hkept := s.dev.offWire_tick
  simp only [Dev.offWire, Prod.mk.injEq] at hkept
  obtain ⟨hnow, hregs, hcounts, hsnaps, hdst, hflash, hstalls, hhall, hbur, hcans⟩ := hkept
  have hstep : step s = .next { s with dev := { s.dev.tick with out := [], refusals := 0 } } := by
    unfold step
    rw [hempty]
  have htx : s.dev.tick.hall = { s.dev.hall with tx := s.dev.tick.hall.tx } := by
    simpa using congrArg (fun h : Hall => { h with tx := s.dev.tick.hall.tx }) hhall
  exact ⟨_, hstep, hempty, hnow, rfl, hregs, hcounts, hsnaps, hdst, hflash, hstalls, ⟨_, htx⟩, hbur, hcans⟩

/-- Settles O6: the step on an empty queue changes no sparse map, and what a command leaves is canonical. -/
theorem stepKeepsSound : Obligations.StepKeepsSound := by
  intro s t hsound hstep
  cases hqueue : s.pending with
  | nil =>
    obtain ⟨u, hnext, -, -, -, hregs, hcounts, hsnaps, hdst, hflash, -⟩ := emptyQueuePassesTime s hqueue
    obtain rfl : u = t := by
      rw [hnext] at hstep
      exact Host.Outcome.next.inj hstep
    unfold State.Sound Dev.Canonical at *
    rwa [hregs, hcounts, hsnaps, hdst, hflash]
  | cons c rest =>
    obtain ⟨u, hnext, -, hsafe⟩ := step_of_waiting hqueue
    obtain rfl : u = t := by
      rw [hnext] at hstep
      exact Host.Outcome.next.inj hstep
    exact hsafe

-- ==== commands of the main domains ====

/-- Every command is a function that runs on the device, and a command of a unit on the main domains is run while they
are. -/
theorem exec_eq_cond (c : Instr) (s : State) : ∃ f : Dev → Dev, exec c s = cond c.onMain (s.runMain f) (s.run f) := by
  cases c <;> exact ⟨_, rfl⟩

/-- A command that needs the main domains leaves the device as it found it where they do not run. -/
theorem State.runMain_of_rest (s : State) (f : Dev → Dev) (h : s.begun.mainRun = false) :
    s.runMain f = .next (s.ends s.begun) := by
  simp [State.runMain, State.run, State.on, h]

/-- Settles O4: a command of a unit on the main domains makes the test that they run (assumption 124 says which do). -/
theorem mainCommandsRestWithoutMains : Obligations.MainCommandsRestWithoutMains := by
  intro c s hon hrest
  obtain ⟨f, hf⟩ := exec_eq_cond c s
  rw [hf, hon, cond_true, State.runMain_of_rest s f hrest]

-- ==== the end of a command ====

/-- What the writebacks and the bus messages at the end of a command leave. -/
def Dev.lasting (d : Dev) := (d.staged, d.stalls, d.hall, d.bur, d.dst, d.flash, d.snaps)

@[simp] theorem Dev.lasting_setDmaQ (d : Dev) (i : Nat) (q : DmaQ) : (d.setDmaQ i q).lasting = d.lasting := rfl

@[simp] theorem Dev.lasting_setFld (d : Dev) (p : Page) (f : Fld) (v : Nat) : (d.setFld p f v).lasting = d.lasting := by
  simp [Dev.lasting]

@[simp] theorem Dev.lasting_raise (d : Dev) (p : Page) (b : Nat) : (d.raise p b).lasting = d.lasting := by
  simp [Dev.lasting]

@[simp] theorem Dev.lasting_emit (d : Dev) (o : Output) : (d.emit o).lasting = d.lasting := rfl

@[simp] theorem Dev.lasting_sendMsix (d : Dev) (v : Nat) : (d.sendMsix v).lasting = d.lasting := by
  simp [Dev.lasting]

@[simp] theorem Dev.lasting_pwEntry (d : Dev) (src req cause unit addr data : Nat) (wide : Bool) :
    (d.pwEntry src req cause unit addr data wide).lasting = d.lasting := by
  simp [Dev.lasting]

@[simp] theorem Dev.lasting_setQState (d : Dev) (i st : Nat) : (d.setQState i st).lasting = d.lasting := by
  unfold Dev.setQState
  split <;> simp

@[simp] theorem Dev.lasting_qStop (d : Dev) (i : Nat) : (d.qStop i).lasting = d.lasting := by
  unfold Dev.qStop
  split
  · simp
  · split <;> simp

@[simp] theorem Dev.lasting_qFail (d : Dev) (i err addr : Nat) (logged : Option Nat) :
    (d.qFail i err addr logged).lasting = d.lasting := by
  cases logged with
  | none => simp [Dev.qFail]
  | some cause => simp [Dev.qFail]

@[simp] theorem Dev.lasting_qAdvance (d : Dev) (i k : Nat) : (d.qAdvance i k).lasting = d.lasting := by simp [Dev.qAdvance]

@[simp] theorem Dev.lasting_qAnnounce (d : Dev) (i : Nat) : (d.qAnnounce i).lasting = d.lasting := by
  unfold Dev.qAnnounce
  dsimp only
  split <;> simp

/-- Writebacks change their ring, what is sent out and what a failed host write is recorded in. -/
@[simp] theorem Dev.lasting_txFlush (i fuel : Nat) : ∀ d : Dev, (d.txFlush i fuel).lasting = d.lasting := by
  induction fuel with
  | zero => exact fun d => rfl
  | succ fuel ih =>
    intro d
    unfold Dev.txFlush
    dsimp only
    split
    next => rfl
    next w ws _ =>
      split
      next => rfl
      next =>
        split
        next => simp [ih]
        next => simp [ih]

/-- So do the writebacks of frames that have lost every copy. -/
@[simp] theorem Dev.lasting_dmaSettle (d : Dev) : d.dmaSettle.lasting = d.lasting := by
  unfold Dev.dmaSettle
  refine Dev.foldl_keeps Dev.lasting (fun d id => ?_) _ d
  exact Dev.foldl_keeps Dev.lasting (fun d e => by simp) _ d

/-- A message that starts on the bus changes its controller and what is sent out. -/
@[simp] theorem Dev.lasting_busSettle (d : Dev) : d.busSettle.lasting = d.lasting := by
  refine Dev.foldl_keeps Dev.lasting (fun d n => ?_) _ d
  unfold Dev.canStart
  dsimp only
  split
  next => rfl
  next =>
    split
    next => rfl
    next => exact Dev.lasting_setFld _ _ _ _

/-- Settles O22: the end of a command settles writebacks and buses, which leave all that lasts, and its canonical form reads
the same. -/
theorem endOfCommandFrame : Obligations.EndOfCommandFrame := by
  intro s d t
  have hkept : d.dmaSettle.busSettle.lasting = d.lasting := by rw [Dev.lasting_busSettle, Dev.lasting_dmaSettle]
  simp only [Dev.lasting, Prod.mk.injEq] at hkept
  obtain ⟨hstaged, hstalls, hhall, hbur, hdst, hflash, hsnaps⟩ := hkept
  refine ⟨rfl, hstaged, hstalls, hhall, hbur, fun a => ?mem, fun a => ?flash, fun k => ?snaps⟩
  case mem => exact (NMap.getD_canon (fun _ => 0) _ a).trans (by rw [hdst]; rfl)
  case flash => exact (NMap.getD_canon (fun _ => 0xFF) _ a).trans (by rw [hflash])
  case snaps => exact (NMap.getD_canon (fun _ => 0) _ k).trans (by rw [hsnaps])

end Sys2Proof.Machine
end

section
/-! SUPPORT. The orders of lists that rules give (R307, R490): the message a CAN controller offers, and the orders that the
standby holds. -/

namespace Sys2Proof.Machine

/-- Only an empty buffer offers no message. -/
theorem bestTx_eq_none {l : List TxMsg} (h : bestTx l = none) : l = [] := by
  cases l with
  | nil => rfl
  | cons t ts =>
    unfold bestTx at h
    split at h
    next => nomatch h
    next => split at h <;> nomatch h

/-- Settles O24: by induction on the buffer; its first message is offered unless one behind it ranks before it. -/
theorem bestMessageIsOffered : Obligations.BestMessageIsOffered := by
  intro l
  induction l with
  | nil => exact fun t h => nomatch h
  | cons x xs ih =>
    intro t h
    unfold bestTx at h
    split at h
    next hrest =>
      obtain rfl := Option.some.inj h
      obtain rfl := bestTx_eq_none hrest
      exact ⟨[], [], rfl, by simp, by simp⟩
    next u hrest =>
      obtain ⟨before, after, rfl, hbefore, hafter⟩ := ih u hrest
      split at h
      next hlater =>
        obtain rfl := Option.some.inj h
        refine ⟨x :: before, after, rfl, fun y hy => ?_, hafter⟩
        rcases List.mem_cons.1 hy with rfl | hy
        · exact hlater
        · exact hbefore y hy
      next hfirst =>
        obtain rfl := Option.some.inj h
        have hle : canRank x.msg ≤ canRank u.msg := Nat.not_lt.1 hfirst
        refine ⟨[], before ++ u :: after, rfl, by simp, fun y hy => hle.trans ?_⟩
        rcases List.mem_append.1 hy with hy | hy
        · exact (hbefore y hy).le
        · rcases List.mem_cons.1 hy with rfl | hy
          · exact le_rfl
          · exact hafter y hy

/-- The orders held after one is taken: those before and, where none has its INDEX, the one taken. -/
theorem mem_orderInsert (o x : Order) (l : List Order) (h : l.Pairwise (fun x y => x.index < y.index)) :
    x ∈ orderInsert o l ↔ x ∈ l ∨ (x = o ∧ ∀ y ∈ l, y.index ≠ o.index) := by
  induction l with
  | nil => simp [orderInsert]
  | cons z zs ih =>
    obtain ⟨habove, hzs⟩ := List.pairwise_cons.1 h
    unfold orderInsert
    split_ifs with hlt heq
    · have hnew : ∀ y ∈ z :: zs, y.index ≠ o.index := by
        intro y hy
        rcases List.mem_cons.1 hy with rfl | hy
        · omega
        · have := habove y hy
          omega
      simp only [List.mem_cons (a := x) (b := o), eq_true hnew, and_true]
      exact or_comm
    · have hheld : ¬ ∀ y ∈ z :: zs, y.index ≠ o.index := fun hall => hall z (List.mem_cons_self ..) heq.symm
      simp only [hheld, and_false, or_false]
    · have hnew : (∀ y ∈ z :: zs, y.index ≠ o.index) ↔ ∀ y ∈ zs, y.index ≠ o.index := by
        rw [List.forall_mem_cons, and_iff_right (Ne.symm heq)]
      rw [List.mem_cons, ih hzs, hnew, List.mem_cons, or_assoc]

/-- Settles O25: by induction on the orders held, which assumption 107 keeps by INDEX, each once. -/
theorem ordersStandByIndex : Obligations.OrdersStandByIndex := by
  intro o l h
  refine ⟨?_, fun x => mem_orderInsert o x l h⟩
  induction l with
  | nil => exact List.pairwise_singleton ..
  | cons z zs ih =>
    obtain ⟨habove, hzs⟩ := List.pairwise_cons.1 h
    unfold orderInsert
    split_ifs with hlt heq
    · refine List.pairwise_cons.2 ⟨fun y hy => ?_, h⟩
      rcases List.mem_cons.1 hy with rfl | hy
      · exact hlt
      · exact hlt.trans (habove y hy)
    · exact h
    · refine List.pairwise_cons.2 ⟨fun y hy => ?_, ih hzs⟩
      rcases (mem_orderInsert o y zs hzs).1 hy with hy | ⟨rfl, -⟩
      · exact habove y hy
      · omega

end Sys2Proof.Machine
end

section
/-! SUPPORT. Counter mode (SP 800-38A): the length of a keystream block, and the statement that counter mode undoes itself. -/

namespace Sys2Proof.Machine

-- ==== the length of an enciphered block ====

/-- One word of the key schedule, as `aesExpand` makes it: the words so far and the round constant. -/
def keyStep (nk : Nat) (s : List (List Nat) × Nat) (j : Nat) : List (List Nat) × Nat :=
  let i := nk + j
  let t := s.1.getD (i - 1) []
  let t' :=
    if i % nk = 0 then (xorOct ((t.drop 1 ++ t.take 1).map subByte) [s.2, 0, 0, 0])
    else if 6 < nk && i % nk = 4 then t.map subByte else t
  (s.1 ++ [xorOct (s.1.getD (i - nk) []) t'], if i % nk = 0 then xtime s.2 else s.2)

/-- The words of the key itself. -/
def keyWords (key : List Nat) : List (List Nat) :=
  (List.range (key.length / 4)).map (fun i => (key.drop (4 * i)).take 4)

theorem aesExpand_eq (key : List Nat) : aesExpand key =
    ((List.range (3 * (key.length / 4) + 28)).foldl (keyStep (key.length / 4)) (keyWords key, 1)).1 := rfl

/-- An exclusive or is as long as the shorter operand. -/
@[simp] theorem length_xorOct (a b : List Nat) : (xorOct a b).length = min a.length b.length := List.length_zipWith

/-- A step of the schedule appends one word of four octets to such words. -/
theorem keyStep_words {nk j : Nat} {s : List (List Nat) × Nat} (hnk : 0 < nk) (hlen : s.1.length = nk + j)
    (hword : ∀ w ∈ s.1, w.length = 4) :
    (keyStep nk s j).1.length = nk + (j + 1) ∧ ∀ w ∈ (keyStep nk s j).1, w.length = 4 := by
  have hread : ∀ k < nk + j, (s.1.getD k []).length = 4 := by
    intro k hk
    rw [List.getD_eq_getElem _ _ (hlen ▸ hk)]
    exact hword _ (List.getElem_mem _)
  have hlast := hread (nk + j - 1) (by omega)
  have hback := hread (nk + j - nk) (by omega)
  refine ⟨by simp [keyStep, hlen, Nat.add_assoc], fun w hw => ?_⟩
  rcases List.mem_append.1 hw with hw | hw
  · exact hword w hw
  · rw [List.mem_singleton.1 hw, length_xorOct, hback]
    split_ifs
    · simp only [length_xorOct, List.length_map, List.length_append, List.length_drop, List.length_take, hlast]
      rfl
    · rw [List.length_map, hlast]
      rfl
    · rw [hlast]
      rfl

/-- The schedule is made of words of four octets, one for each column of the round keys. -/
theorem aesExpand_words {key : List Nat} (hkey : key.length = 16 ∨ key.length = 32) :
    (aesExpand key).length = 4 * (key.length / 4 + 7) ∧ ∀ w ∈ aesExpand key, w.length = 4 := by
  have hfirst : (keyWords key).length = key.length / 4 ∧ ∀ w ∈ keyWords key, w.length = 4 := by
    refine ⟨by simp [keyWords], fun w hw => ?_⟩
    obtain ⟨i, hi, rfl⟩ := List.mem_map.1 hw
    have := List.mem_range.1 hi
    simp only [List.length_take, List.length_drop]
    omega
  have hsteps : ∀ n, let s := (List.range n).foldl (keyStep (key.length / 4)) (keyWords key, 1)
      s.1.length = key.length / 4 + n ∧ ∀ w ∈ s.1, w.length = 4 := by
    intro n
    induction n with
    | zero => exact hfirst
    | succ n ih =>
      rw [List.range_succ, List.foldl_append]
      exact keyStep_words (by omega) ih.1 ih.2
  obtain ⟨hlen, hword⟩ := hsteps (3 * (key.length / 4) + 28)
  exact ⟨by rw [aesExpand_eq, hlen]; omega, hword⟩

/-- A block enciphers to sixteen octets. -/
theorem length_aesEnc {key : List Nat} (hkey : key.length = 16 ∨ key.length = 32) (b : List Nat) :
    (aesEnc key b).length = 16 := by
  obtain ⟨hlen, hword⟩ := aesExpand_words hkey
  have hround : (roundKey (aesExpand key) (key.length / 4 + 6)).length = 16 := by
    have hsum : ((((aesExpand key).drop (4 * (key.length / 4 + 6))).take 4).map List.length) = List.replicate 4 4 := by
      refine List.eq_replicate_iff.2 ⟨?_, ?_⟩
      · simp only [List.length_map, List.length_take, List.length_drop, hlen]
        omega
      · intro n hn
        obtain ⟨w, hw, rfl⟩ := List.mem_map.1 hn
        exact hword w (List.mem_of_mem_drop (List.mem_of_mem_take hw))
    rw [roundKey, List.length_flatten, hsum]
    rfl
  have hshift : ∀ s, (shiftRows 1 s).length = 16 := fun s => by simp [shiftRows]
  unfold aesEnc
  rw [length_xorOct, hround, hshift]
  rfl

-- ==== counter mode block by block ====

/-- The keystream block of a count. -/
def ctrBlock (key iv : List Nat) (c : Nat) : List Nat := aesEnc key (iv ++ natOct 4 (c % 2 ^ 32))

theorem ctrMode_nil (key iv : List Nat) (c : Nat) : ctrMode key iv c [] = [] := rfl

/-- The first block of a message, and the blocks of the rest. -/
theorem blocks16_of_ne_nil {msg : List Nat} (h : msg ≠ []) : blocks16 msg = msg.take 16 :: blocks16 (msg.drop 16) := by
  have hpos := List.length_pos_iff.2 h
  have hcount : (msg.length + 15) / 16 = (msg.length - 16 + 15) / 16 + 1 := by omega
  simp only [blocks16, hcount, List.length_drop, List.range_succ_eq_map, List.map_cons, List.map_map, List.drop_drop,
    Nat.mul_zero, List.drop_zero, Function.comp_def, Nat.mul_succ, Nat.add_comm 16]

/-- Counter mode takes the first block with the first count, and goes on with the next count. -/
theorem ctrMode_of_ne_nil (key iv : List Nat) (c : Nat) {msg : List Nat} (h : msg ≠ []) : ctrMode key iv c msg =
    xorOct (msg.take 16) (ctrBlock key iv c) ++ ctrMode key iv (c + 1) (msg.drop 16) := by
  simp only [ctrMode, blocks16_of_ne_nil h, enum, List.length_cons, List.range_succ_eq_map, List.zip_cons_cons,
    List.zip_map_left, List.map_cons, List.map_map, List.flatten_cons]
  congr 3
  funext e
  simp [Nat.add_assoc, Nat.add_comm 1]

/-- An exclusive or with a keystream no shorter undoes itself. -/
theorem xorOct_xorOct {b k : List Nat} (h : b.length ≤ k.length) : xorOct (xorOct b k) k = b := by
  apply List.ext_getElem
  · simp only [length_xorOct]
    omega
  · intro i _ _
    simp [xorOct]

/-- The first sixteen octets that counter mode gives, and the others. -/
theorem ctrMode_split (key iv : List Nat) (c : Nat) {msg : List Nat} (h : msg ≠ []) (hblock : (ctrBlock key iv c).length = 16) :
    (ctrMode key iv c msg).take 16 = xorOct (msg.take 16) (ctrBlock key iv c)
      ∧ (ctrMode key iv c msg).drop 16 = ctrMode key iv (c + 1) (msg.drop 16) := by
  rw [ctrMode_of_ne_nil _ _ _ h]
  by_cases hlong : 16 ≤ msg.length
  · have hfirst : (xorOct (msg.take 16) (ctrBlock key iv c)).length = 16 := by
      rw [length_xorOct, hblock, List.length_take]
      omega
    exact ⟨List.take_left' hfirst, List.drop_left' hfirst⟩
  · have hrest : msg.drop 16 = [] := List.drop_eq_nil_of_le (by omega)
    have hfirst : (xorOct (msg.take 16) (ctrBlock key iv c)).length ≤ 16 := by
      rw [length_xorOct, hblock]
      omega
    rw [hrest, ctrMode_nil, List.append_nil]
    exact ⟨List.take_of_length_le hfirst, List.drop_eq_nil_of_le hfirst⟩

/-- Settles O34: by induction on the message, sixteen octets at a time (SP 800-38A is presumed: assumption 10). -/
theorem counterModeUndoesItself : Obligations.CounterModeUndoesItself := by
  intro key iv msg c hkey
  induction hn : msg.length using Nat.strong_induction_on generalizing msg c with
  | _ n ih =>
    by_cases hmsg : msg = []
    · rw [hmsg, ctrMode_nil, ctrMode_nil]
    · have hpos := List.length_pos_iff.2 hmsg
      have hrest := ih _ (by rw [List.length_drop]; omega) (msg.drop 16) (c + 1) rfl
      have hblock : (ctrBlock key iv c).length = 16 := length_aesEnc hkey _
      obtain ⟨hfirst, hlater⟩ := ctrMode_split key iv c hmsg hblock
      have hcoded : ctrMode key iv c msg ≠ [] := by
        intro hnil
        have hlen := congrArg List.length hfirst
        rw [hnil, List.take_nil, length_xorOct, List.length_take, hblock, List.length_nil] at hlen
        omega
      rw [ctrMode_of_ne_nil _ _ _ hcoded, hfirst, hlater, hrest,
        xorOct_xorOct (by rw [List.length_take, hblock]; omega), List.take_append_drop]

end Sys2Proof.Machine
end

section
/-! SUPPORT. The bytes of the deep store (R401, R403) and of the flash (R380): what a write, a program and an erase leave, and
the statements about them. -/

namespace Sys2Proof.Machine

-- ==== the deep store ====

/-- The byte at an address after bytes have been written. -/
theorem Memory.read_writeAll (m : NMap Byte) (a x : Nat) (bs : List Byte) : Memory.read (Memory.writeAll m a bs) x =
    if a ≤ x ∧ x < a + bs.length then bs.getD (x - a) 0 else Memory.read m x := by
  induction bs generalizing m a with
  | nil =>
    rw [if_neg (by rw [List.length_nil]; omega)]
    rfl
  | cons b bs ih =>
    rw [Memory.writeAll, ih, Memory.read_write, List.length_cons]
    rcases Nat.lt_trichotomy x a with hbelow | rfl | habove
    · rw [if_neg (by omega), if_neg (by omega), if_neg (by omega)]
    · rw [if_neg (by omega), if_pos rfl, if_pos (by omega), Nat.sub_self, List.getD_cons_zero]
    · rw [if_neg (Nat.ne_of_gt habove)]
      obtain ⟨k, rfl⟩ := Nat.exists_eq_add_of_lt habove
      refine if_congr (by omega) ?_ rfl
      rw [show a + k + 1 - a = k + 1 by omega, show a + k + 1 - (a + 1) = k by omega, List.getD_cons_succ]

/-- What the log of a checkpoint leaves (R427). -/
def Dev.unlogged (d : Dev) := (d.dst, d.flash, d.hall, d.pops)

/-- One block's entry in the log changes the log and the register that shows its length. -/
theorem Dev.unlogged_undoBlock (d : Dev) (n a : Nat) : (d.undoBlock n a).unlogged = d.unlogged := by
  unfold Dev.undoBlock
  dsimp only
  split
  · rfl
  · simp [Dev.unlogged]

theorem Dev.unlogged_undoLog (d : Dev) (r : DsReq) (a : Nat) : (d.undoLog r a).unlogged = d.unlogged := by
  unfold Dev.undoLog
  split
  · rfl
  · exact Dev.foldl_keeps Dev.unlogged (fun d i => Dev.unlogged_undoBlock d _ _) _ d

/-- A write that is served stores its bytes at its address, and changes no other byte, the flash, the Sorting Hall or a pop
window. -/
theorem Dev.dsServe_of_write (d : Dev) {r : DsReq} {a : Nat} (hwrite : r.write = true) (haddr : r.addr = some a) :
    (d.dsServe r).unlogged = (d.memWrite a r.data).unlogged := by
  have hlog := Dev.unlogged_undoLog ((d.cnt dstPg 2).cnt dstPg 7 r.bytes) r a
  simp only [Dev.unlogged, Prod.mk.injEq] at hlog
  obtain ⟨hdst, hflash, hhall, hpops⟩ := hlog
  simp only [Dev.dsServe, hwrite, haddr, if_true, Dev.unlogged, Dev.memWrite, Dev.withDst, hdst, hflash, hhall, hpops]
  rfl

/-- Settles O33: a write that is served is a write of its bytes. -/
theorem deepStoreKeepsBytes : Obligations.DeepStoreKeepsBytes := by
  intro d r a hwrite haddr
  have hserved := d.dsServe_of_write hwrite haddr
  simp only [Dev.unlogged, Prod.mk.injEq] at hserved
  obtain ⟨hdst, hflash, hhall, hpops⟩ := hserved
  have hmem : (d.dsServe r).dst.mem = Memory.writeAll d.dst.mem a r.data := by
    rw [hdst]
    rfl
  refine ⟨fun x => ?_, ?_, fun hwf => ?_, hflash, hhall, hpops⟩
  · rw [hmem]
    exact Memory.read_writeAll ..
  · apply List.ext_getElem
    · simp [Dev.memRead]
    · intro i hi hi'
      simp only [Dev.memRead, List.getElem_map, List.getElem_range, hmem, Memory.read_writeAll]
      rw [if_pos (by omega), Nat.add_sub_cancel_left, List.getD_eq_getElem _ _ hi']
  · rw [hmem]
    exact Memory.wf_writeAll _ _ _ hwf

-- ==== the flash ====

/-- The byte at an address after one has been written as it is. -/
theorem Flash.getD_put (f : Flash) (a x : Nat) (b : Byte) :
    (f.put a b).mem.getD x 0xFF = if x = a then b else f.mem.getD x 0xFF := by
  unfold Flash.put NMap.getD
  dsimp only
  split
  next hb =>
    rw [NMap.get?_erase]
    split
    · rw [hb, Option.getD_none]
    · rfl
  next =>
    rw [NMap.get?_set]
    by_cases h : a = x
    · rw [if_pos h, if_pos h.symm, Option.getD_some]
    · rw [if_neg h, if_neg (Ne.symm h)]

/-- The byte at an address after bytes have been programmed: bits only go from 1 to 0. -/
theorem Flash.getD_program (f : Flash) (a x : Nat) (bs : List Byte) : (f.program a bs).mem.getD x 0xFF =
    if a ≤ x ∧ x < a + bs.length then f.mem.getD x 0xFF &&& bs.getD (x - a) 0xFF else f.mem.getD x 0xFF := by
  induction bs generalizing f a with
  | nil => exact (if_neg (by rw [List.length_nil]; omega)).symm
  | cons b bs ih =>
    rw [Flash.program, ih, Flash.getD_put, List.length_cons]
    rcases Nat.lt_trichotomy x a with hbelow | rfl | habove
    · rw [if_neg (by omega), if_neg (by omega), if_neg (by omega)]
    · rw [if_neg (by omega), if_pos rfl, if_pos (by omega), Nat.sub_self, List.getD_cons_zero]
    · rw [if_neg (Nat.ne_of_gt habove)]
      obtain ⟨k, rfl⟩ := Nat.exists_eq_add_of_lt habove
      refine if_congr (by omega) ?_ rfl
      rw [show a + k + 1 - a = k + 1 by omega, show a + k + 1 - (a + 1) = k by omega, List.getD_cons_succ]

/-- The byte at an address after an erase. -/
theorem Flash.getD_eraseAt (f : Flash) (a n x : Nat) :
    (f.eraseAt a n).mem.getD x 0xFF = if a ≤ x ∧ x < a + n then 0xFF else f.mem.getD x 0xFF := by
  unfold Flash.eraseAt NMap.getD
  rw [NMap.get?_filter f.mem (fun k => !(decide (a ≤ k) && decide (k < a + n)))]
  by_cases h : a ≤ x ∧ x < a + n
  · simp [h]
  · rw [if_neg h, if_pos]
    rw [Bool.not_eq_true', Bool.eq_false_iff, ne_eq, Bool.and_eq_true, decide_eq_true_eq, decide_eq_true_eq]
    exact h

/-- Programming and erasing change the bytes alone. -/
@[simp] theorem Flash.queue_program (f : Flash) (a : Nat) (bs : List Byte) : (f.program a bs).queue = f.queue := by
  induction bs generalizing f a with
  | nil => rfl
  | cons b bs ih => rw [Flash.program, ih]; rfl

/-- A read of bytes that are held as bytes answers them and draws nothing. -/
theorem Dev.flashRead_of_known {d : Dev} {n a : Nat} (h : ∀ i < n, d.byteKnown (a + i) = true) :
    d.flashRead a n = (leNat ((List.range n).map (fun i => d.flash.mem.getD (a + i) 0xFF)), d) := by
  induction n generalizing a with
  | zero => rfl
  | succ n ih =>
    have hbyte : d.flashByte a = ((d.flash.mem.getD a 0xFF).toNat, d) := if_pos (h 0 n.succ_pos)
    have hnext : ∀ i, a + 1 + i = a + (i + 1) := fun i => by omega
    have hrest := ih (a := a + 1) fun i hi => hnext i ▸ h (i + 1) (Nat.succ_lt_succ hi)
    simp only [Dev.flashRead, hbyte, hrest, hnext, List.range_succ_eq_map, List.map_cons, List.map_map, Function.comp_def]
    rfl

/-- A number that another's bits include, octet by octet. -/
theorem and_eq_split {b x v y : Nat} (hb : b < 256) (hx : x < 256) (h : (b + 256 * v) &&& (x + 256 * y) = x + 256 * y) :
    b &&& x = x ∧ v &&& y = y := by
  have hlow := congrArg (· % 2 ^ 8) h
  have hhigh := congrArg (· / 2 ^ 8) h
  simp only [Nat.and_mod_two_pow, Nat.and_div_two_pow] at hlow hhigh
  have hmod : ∀ p q, p < 256 → (p + 256 * q) % 2 ^ 8 = p ∧ (p + 256 * q) / 2 ^ 8 = q := fun p q hp => by omega
  rw [(hmod b v hb).1, (hmod x y hx).1] at hlow
  rw [(hmod b v hb).2, (hmod x y hx).2] at hhigh
  exact ⟨hlow, hhigh⟩

/-- The same of the bytes of two little-endian numbers of one length. -/
theorem zipWith_and_of_leNat {xs ys : List Byte} (hlen : xs.length = ys.length) (h : leNat xs &&& leNat ys = leNat ys) :
    List.zipWith (· &&& ·) xs ys = ys := by
  induction xs generalizing ys with
  | nil => rw [List.zipWith_nil_left, List.length_eq_zero_iff.1 hlen.symm]
  | cons x xs ih =>
    cases ys with
    | nil => rfl
    | cons y ys =>
      obtain ⟨hfirst, hrest⟩ := and_eq_split x.isLt y.isLt h
      rw [List.zipWith_cons_cons, ih (Nat.succ.inj hlen) hrest]
      exact congrArg (· :: ys) (BitVec.eq_of_toNat_eq ((BitVec.toNat_and x y).trans hfirst))

/-- The test of a queued write against bytes held as bytes draws nothing. -/
theorem Dev.wouldRaise_of_known {d : Dev} {a : Nat} {data : List Byte} (h : ∀ i < data.length, d.byteKnown (a + i) = true) :
    d.wouldRaise a data =
      (leNat ((List.range data.length).map (fun i => d.flash.mem.getD (a + i) 0xFF)) &&& leNat data != leNat data, d) := by
  simp only [Dev.wouldRaise, Dev.flashRead_of_known h]

/-- Bytes that pass the test are read as written once they are programmed. -/
theorem Dev.and_eq_of_not_raising {d : Dev} {a : Nat} {data : List Byte} (hknown : ∀ i < data.length, d.byteKnown (a + i) = true)
    (h : (d.wouldRaise a data).1 = false) {i : Nat} (hi : i < data.length) :
    d.flash.mem.getD (a + i) 0xFF &&& data.getD i 0xFF = data.getD i 0xFF := by
  rw [Dev.wouldRaise_of_known hknown] at h
  have hbytes := zipWith_and_of_leNat (by rw [List.length_map, List.length_range]) (bne_eq_false_iff_eq.1 h)
  have hbyte := congrArg (fun l => l.getD i 0xFF) hbytes
  simpa [hi] using hbyte

/-- A posted write that fails leaves the flash. -/
@[simp] theorem Dev.flash_windowFail (d : Dev) (w : Window) (req cause addr data : Nat) (wide : Bool) :
    (d.windowFail w req cause addr data wide).flash = d.flash := by
  unfold Dev.windowFail
  dsimp only [Dev.when]
  split <;> simp

section

variable {d d' e : Dev} {w : FlashWr} {ws : List FlashWr} (hqueue : d.flash.queue = w :: ws)
  (hheld : d.flashHeld d.flash.headAt = false) (hidle : d.sectorBusy w.addr = false)
  (htaken : d.withFlash (fun f => { f with queue := ws, headAt := d.now }) = d')

include hqueue hheld hidle htaken

/-- The oldest queued write leaves the queue and is tested again (assumption 93): one that sets no bit is programmed. -/
theorem Dev.flashProgrammed_of_good (htest : d'.wouldRaise w.addr w.data = (false, e)) :
    d.flashProgrammed true = e.withFlash (fun f => f.program w.addr w.data) := by
  subst htaken
  have hidle' : (d.withFlash (fun f => { f with queue := ws, headAt := d.now })).sectorBusy w.addr = false := hidle
  simp only [Dev.flashProgrammed, hqueue, hheld, Dev.when, Bool.not_false, if_true, hidle', htest, Bool.false_eq_true,
    if_false, Bool.not_true]

/-- One that would set a bit fails (assumption 93). -/
theorem Dev.flashProgrammed_of_raising (htest : d'.wouldRaise w.addr w.data = (true, e)) :
    d.flashProgrammed true = e.windowFail flashWindow w.who 0x11 w.addr (leNat w.data) w.wide := by
  subst htaken
  have hidle' : (d.withFlash (fun f => { f with queue := ws, headAt := d.now })).sectorBusy w.addr = false := hidle
  simp only [Dev.flashProgrammed, hqueue, hheld, Dev.when, Bool.not_false, if_true, hidle', htest, Bool.false_eq_true,
    if_false]

end

/-- An erase that no power-failure warning holds ends (R380, R481). -/
theorem Dev.eraseDone_of_erasing {d : Dev} {k : Nat} (ok : Bool) (herasing : d.flash.erasing = some k)
    (hheld : d.flashHeld d.flash.eraseFrom = false) {d' : Dev} (hended : d.withFlash (fun f =>
      let g : Flash := { f with erasing := none, spoiled := f.spoiled.filter (· != k) ++ (if ok then [] else [k]) }
      if ok then g.eraseAt (k * 65536) 65536 else g) = d') :
    d.eraseDone ok = ((((d'.setFlag hbrPg R.HBR_FLASH_STAT_BUSY false).setFlag hbrPg R.HBR_FLASH_STAT_DONE true).setFld hbrPg
      R.HBR_FLASH_STAT_RESULT (if ok then 0 else 2)).raise hbrPg 2) := by
  subst hended
  simp only [Dev.eraseDone, herasing, hheld, Bool.false_eq_true, if_false]

/-- Settles O27: the bytes programmed are those carried, for the bits that the flash holds 0 are 0 in them; both tests of a
queued write are made again as it is programmed (assumption 93). -/
theorem flashProgramsWhereItSays : Obligations.FlashProgramsWhereItSays := by
  intro s w ws sec d hmain
  have hd : s.begun = d := rfl
  clear_value d
  have htested (hknown : ∀ i < w.data.length, d.byteKnown (w.addr + i) = true) (e : Dev)
      (he : d.withFlash (fun f => { f with queue := ws, headAt := d.now }) = e) :
      e.wouldRaise w.addr w.data = ((d.wouldRaise w.addr w.data).1, e) := by
    subst he
    rw [Dev.wouldRaise_of_known hknown]
    exact Dev.wouldRaise_of_known hknown
  refine ⟨fun hqueue hheld hidle hknown hgood => ?good, fun hqueue hheld hidle hknown hbad => ?raising,
    fun herasing hheld => ?erase⟩
  case good =>
    have hdone := Dev.flashProgrammed_of_good hqueue hheld hidle rfl ((htested hknown _ rfl).trans (by rw [hgood]))
    refine ⟨_, State.runMain_next_at hd hmain hdone, Flash.queue_program _ _ _, fun x => ?_, rfl, rfl, rfl, rfl⟩
    refine (Flash.getD_program _ _ _ _).trans (ite_congr rfl (fun hin => ?_) fun _ => rfl)
    obtain ⟨i, rfl⟩ := Nat.exists_eq_add_of_le hin.1
    rw [Nat.add_sub_cancel_left]
    exact Dev.and_eq_of_not_raising hknown hgood (Nat.add_lt_add_iff_left.1 hin.2)
  case raising =>
    have hdone := Dev.flashProgrammed_of_raising hqueue hheld hidle rfl ((htested hknown _ rfl).trans (by rw [hbad]))
    refine ⟨_, State.runMain_next_at hd hmain hdone, ?_, ?_⟩
    all_goals
      rw [Dev.flash_windowFail]
      rfl
  case erase =>
    refine ⟨_, State.runMain_next_at hd hmain (Dev.eraseDone_of_erasing true herasing hheld rfl), fun x => ?_, ?_, ?_, ?_, ?_⟩
    · simp only [Dev.flash_raise, Dev.flash_setFld, Dev.flash_setFlag]
      refine (Flash.getD_eraseAt _ _ _ _).trans (if_congr ?_ rfl rfl)
      omega
    · simp only [Dev.flash_raise, Dev.flash_setFld, Dev.flash_setFlag]
      rfl
    all_goals simp

end Sys2Proof.Machine
end

section
/-! SUPPORT. The commands of the edge buses (R291 to R314): what the commands of CAN, of the route table and of LIN do under
the tests they make, and the statement about the commands. -/

namespace Sys2Proof.Machine

-- ==== CAN (R296 to R308) ====

section

variable {d : Dev} {n : Nat}

/-- A write of EDG_CAN_TRX that keeps SETTLE_US and PIN_MAP is taken (R293, R296). -/
theorem Dev.trxWrite_of_kept {v : Nat} (hsettle : bits v 23 16 = bits (d.word (canPg n) 0x94) 23 16)
    (hpins : bits v 7 0 = bits (d.word (canPg n) 0x94) 7 0) : d.trxWrite n v =
      (((d.setFld (canPg n) R.EDG_CAN_TRX_REQ (bits v 29 28)).setFld (canPg n) R.EDG_CAN_TRX_SETTLE_US (bits v 23 16)).setFld
        (canPg n) R.EDG_CAN_TRX_PIN_MAP (bits v 7 0)).when
        ((((d.setFld (canPg n) R.EDG_CAN_TRX_REQ (bits v 29 28)).setFld (canPg n) R.EDG_CAN_TRX_SETTLE_US
          (bits v 23 16)).setFld (canPg n) R.EDG_CAN_TRX_PIN_MAP (bits v 7 0)).isOn (canPg n)) (fun d => d.trxUpdate n) :=
  if_pos (by simp [hsettle, hpins])

/-- RECOVER starts the recovery of a controller that is bus-off, and does nothing else (R299). -/
theorem Dev.canCmd_recover : d.canCmd n (2 ^ 31) =
    if d.busOff n then d.setFlag (canPg n) R.EDG_CAN_STAT_RECOVERING true else d := by
  have hrecover : bitAt (2 ^ 31) 31 = true := by decide
  have hclear : bitAt (2 ^ 31) 30 = false := by decide
  simp only [Dev.canCmd, Dev.when, hrecover, hclear, Bool.true_and, Bool.false_eq_true, if_false]

/-- CLR_TX empties the transmit buffer, and does nothing else (R293). -/
theorem Dev.canCmd_clear : d.canCmd n (2 ^ 30) = d.canDrop n := by
  have hrecover : bitAt (2 ^ 30) 31 = false := by decide
  have hclear : bitAt (2 ^ 30) 30 = true := by decide
  simp only [Dev.canCmd, Dev.when, hrecover, hclear, Bool.false_and, Bool.false_eq_true, if_false, if_true]

end

-- ==== the route table (R302) ====

/-- The lowest bit of a number, as a number. -/
theorem mod_two_eq_b2n (v : Nat) : v % 2 = b2n (bitAt v 0) := by
  rcases Nat.mod_two_eq_zero_or_one v with h | h
  · simp [bitAt, b2n, h]
  · simp [bitAt, b2n, h]

/-- GO while no command runs takes the entry selected, its four words and OP (R302). -/
theorem Dev.rtGo_of_idle {d : Dev} {v : Nat} {write : Bool} (hgo : bitAt v 31 = true) (hop : bitAt v 0 = write)
    (hidle : d.flag (canPg 0) R.EDG_RT_STAT_BUSY = false) {d' : Dev}
    (htaken : { d with rtRun := some (write, d.fld (canPg 0) R.EDG_RT_SEL_INDEX,
      (List.range 4).map (fun w => d.fld (canPg 0) (R.EDG_RT_W_WORD.at w))) } = d') :
    d.rtGo v = (d'.setWord (canPg 0) 0x830 (b2n write)).setFlag (canPg 0) R.EDG_RT_STAT_BUSY true := by
  subst htaken hop
  simp only [Dev.rtGo, hgo, hidle, mod_two_eq_b2n v, Bool.not_true, Bool.false_eq_true, if_false]

-- ==== LIN (R310 to R314) ====

section

variable {d : Dev} {m : Nat}

/-- SWITCH to a table none of whose slots is bad waits for the end of the slot, or takes effect at once where no table runs
and no start time is asked (R310, R311); on a page that is not ON it does so too (assumption 149). -/
theorem Dev.linSched_of_good {len : Nat} (hpend : d.flag (linPg m) R.EDG_LIN_SCHED_PENDING = false) (hlen : len ≤ 64)
    (hmaster : d.flag (linPg m) R.EDG_LIN_CFG_MASTER = true) {d' : Dev}
    (hset : d.setFld (linPg m) R.EDG_LIN_SCHED_LEN len = d') (hgood : (List.range len).any (d'.slotBad m) = false) :
    d.linSched m (2 ^ 31 + len * 2 ^ 8) =
      if (d'.lin m).running || d'.fld (linPg m) R.EDG_LIN_CFG_SCHED_WC ≠ 0 then
        (d'.setLin m { d'.lin m with first := !(d'.lin m).running }).setFlag (linPg m) R.EDG_LIN_SCHED_PENDING true
      else d'.linSwap m := by
  subst hset
  have hbits : bits (2 ^ 31 + len * 2 ^ 8) 15 8 = len := by
    unfold bits
    omega
  have hgo : bitAt (2 ^ 31 + len * 2 ^ 8) 31 = true := by
    unfold bitAt
    rw [beq_iff_eq]
    omega
  have hmaster' : (d.setFld (linPg m) R.EDG_LIN_SCHED_LEN len).flag (linPg m) R.EDG_LIN_CFG_MASTER = true :=
    (Dev.flag_setFld_apart _ _ _ _ _ (by decide)).trans hmaster
  simp only [Dev.linSched, hbits, hpend, Nat.not_lt.2 hlen, hgo, hmaster', hgood, Bool.not_true, Bool.or_self, Bool.false_eq_true,
    if_false]

end

/-- Settles O48: each command by its test, or by the lemma that says what its operation does under the conditions named. A
route write out of range, and the counts of CAN, are as assumption 78 says; LIN SWITCH on a page that is not ON is
assumption 149. -/
theorem edgeCommandsComplete : Obligations.EdgeCommandsComplete := by
  intro s who bus lin msg ago u eight lost exempt t value state len id bytes err run d p l
  have hd : s.begun = d := rfl
  clear_value d
  subst p l
  refine ⟨?rxValid, ?rxError, ?txDone, ?txError, ?timedTx, ?canCmd, ?recovered, ?stale, ?integrated, ?trxReq, ?settled,
    ?rtGo, ?rtDone, ?linSwitch, ?slotStart, ?header, ?response⟩
  case rxValid =>
    intro hmain hlistens hknows
    exact State.runMain_next_at hd hmain ((if_neg (by rw [hlistens]; decide)).trans (if_neg (by rw [hknows]; decide)))
  case rxError => exact fun hmain hlistens => State.runMain_next_at hd hmain (if_pos hlistens)
  case txDone => exact fun hmain hwire => State.runMain_next_at hd hmain (by simp only [hwire] <;> rfl)
  case txError =>
    exact fun hmain hwire hedge => State.runMain_next_at hd hmain (by simp only [hwire, hedge]; rfl)
  case timedTx => exact fun hmain => State.runMain_at hd hmain
  case canCmd =>
    exact fun hadm => ⟨State.run_gateW_next_at hd hadm Dev.canCmd_recover, State.run_gateW_next_at hd hadm Dev.canCmd_clear⟩
  case recovered =>
    exact fun hmain hoff hrec hawake => State.runMain_next_at hd hmain (if_pos (by rw [hoff, hrec, hawake]; decide))
  case stale =>
    exact fun hmain hmuted => State.runMain_next_at hd hmain ((if_pos hmuted).trans (by simp only [Dev.canKeep, Bool.not_not]; rfl))
  case integrated =>
    exact fun hmain hon htrx hawake => State.runMain_next_at hd hmain (if_pos (by simp [hon, htrx, hawake]))
  case trxReq =>
    exact fun hadm hsettle hpins => State.run_gateW_next_at hd hadm (Dev.trxWrite_of_kept hsettle hpins)
  case settled => exact fun hmain hgoing => State.runMain_next_at hd hmain (by simp only [hgoing])
  case rtGo =>
    exact fun hadm hidle => ⟨State.run_gateW_next_at hd hadm (Dev.rtGo_of_idle (by decide) (by decide) hidle rfl),
      State.run_gateW_next_at hd hadm (Dev.rtGo_of_idle (by decide) (by decide) hidle rfl)⟩
  case rtDone => exact fun hmain hrun => State.runMain_next_at hd hmain (by simp only [hrun])
  case linSwitch =>
    exact fun hadm hpend hlen hmaster hgood =>
      State.run_gateW_next_at hd hadm (Dev.linSched_of_good hpend hlen hmaster rfl hgood)
  case slotStart =>
    intro hmain hon hmaster hrunning hfirst hawake
    exact State.runMain_next_at hd hmain (by
      simp only [hon, hmaster, hrunning, hfirst, hawake, Bool.not_true, Bool.or_false, Bool.false_and, Bool.false_eq_true,
        if_false])
  case header =>
    intro hmain hon hslave hawake
    exact State.runMain_next_at hd hmain (if_neg (by rw [hon, hslave, hawake]; decide))
  case response =>
    intro hmain hawait d' hon
    exact State.runMain_next_at hd hmain (by simp only [hawait]; exact if_neg (by rw [hon]; decide))

end Sys2Proof.Machine
end

section
/-! SUPPORT. The commands of the wake sources, the sleep rounds and the partial networks (R316 to R334): what a write of
NPT_SLEEP_CMD and of NPT_PN_CTRL does, and the statement about the commands. -/

namespace Sys2Proof.Machine

section

variable {d : Dev}

-- ==== NPT_SLEEP_CMD (R320, R322) ====

/-- GO without CANCEL toward Idle or Slumber starts a round, where the unit does not stand by (R322, R501). -/
theorem Dev.sleepCmd_go {v t : Nat} {force : Bool} (hgo : bitAt v 31 = true) (hcancel : bitAt v 30 = false)
    (hforce : bitAt v 29 = force) (htarget : bits v 1 0 = t) (ht : t = 1 ∨ t = 2) (hactive : d.adjState ≠ 4) :
    d.sleepCmd v = d.sleepGo t force := by
  have hlegal : (!(t == 1 || t == 2) || d.adjState == 4) = false := by
    rcases ht with rfl | rfl
    · simpa using hactive
    · simpa using hactive
  simp only [Dev.sleepCmd, Dev.when, hgo, hcancel, hforce, htarget, hlegal, Bool.not_true, Bool.false_eq_true, if_false]

/-- GO in AWAKE starts PREPARE, or passes the commit point at once with FORCE; it counts in ROUNDS (R322; assumption 83). -/
theorem Dev.sleepGo_of_awake {t : Nat} {d' : Dev} (hawake : d.round = 0)
    (htold : ((d.setFld nptPg R.NPT_SLEEP_STAT_TARGET t).setFld nptPg R.NPT_READY_READY 0).cnt nptPg 10 = d') (force : Bool) :
    d.sleepGo t force = if force then d'.commitPoint
      else ((d'.setRound 1).withNpt (fun n => { n with prepMinPassed := false })).phaseMsg 1 := by
  subst htold
  exact if_pos hawake

/-- CANCEL alone cancels (R320). -/
theorem Dev.sleepCmd_cancel : d.sleepCmd (2 ^ 30) = d.cancelCmd := by
  have hgo : bitAt (2 ^ 30) 31 = false := by decide
  have hcancel : bitAt (2 ^ 30) 30 = true := by decide
  simp only [Dev.sleepCmd, Dev.when, hgo, hcancel, Bool.not_false, if_true]

-- ==== NPT_PN_CTRL (R328) ====

section

variable {groups : BitVec 8} {was : Dev} (hshown : d.setFld nptPg R.NPT_PN_CTRL_GROUPS groups.toNat = was)

include hshown

/-- WAKE wakes the groups named beside those awake (R328); GROUPS reads back (assumption 54). -/
theorem Dev.pnCtrl_wake : d.pnCtrl (2 ^ 31 + groups.toNat) =
    (was.setGroups (d.fld nptPg R.NPT_SLEEP_STAT_GROUPS_AWAKE ||| groups.toNat)).members was
      (fun m => (onesOf groups.toNat 8).any (was.inGroup m)) := by
  subst hshown
  have hbound := groups.isLt
  have hwake : bitAt (2 ^ 31 + groups.toNat) 31 = true := by rw [bitAt, beq_iff_eq]; omega
  have hsleep : bitAt (2 ^ 31 + groups.toNat) 30 = false := by rw [bitAt, beq_eq_false_iff_ne]; omega
  have hgroups : bits (2 ^ 31 + groups.toNat) 7 0 = groups.toNat := by unfold bits; omega
  simp only [Dev.pnCtrl, hwake, hsleep, hgroups, Bool.and_false, Bool.false_eq_true, if_false, if_true]

/-- SLEEP puts the groups named to sleep (R328). -/
theorem Dev.pnCtrl_sleep : d.pnCtrl (2 ^ 30 + groups.toNat) =
    (was.setGroups (d.fld nptPg R.NPT_SLEEP_STAT_GROUPS_AWAKE &&& (0xFF - groups.toNat))).members was (fun _ => false) := by
  subst hshown
  have hbound := groups.isLt
  have hwake : bitAt (2 ^ 30 + groups.toNat) 31 = false := by rw [bitAt, beq_eq_false_iff_ne]; omega
  have hsleep : bitAt (2 ^ 30 + groups.toNat) 30 = true := by rw [bitAt, beq_iff_eq]; omega
  have hgroups : bits (2 ^ 30 + groups.toNat) 7 0 = groups.toNat := by unfold bits; omega
  simp only [Dev.pnCtrl, hwake, hsleep, hgroups, Bool.false_and, Bool.false_eq_true, if_false, if_true]

end

end

/-- Settles O42: each command by its test, or by the lemma that says what its operation does under the conditions named.
ROUNDS counts at GO (assumption 83), GROUPS reads back (assumption 54), and what the end of entry does with pins and
transceivers is assumption 84. -/
theorem sleepCommandsComplete : Obligations.SleepCommandsComplete := by
  intro s who source bus id nodes groups pin active src node d
  have hd : s.begun = d := rfl
  clear_value d
  refine ⟨?fire, ?alarm, ?go, ?cancel, ?phase, ?readyMsg, ?readyReport, ?prepMin, ?prepTimer, ?entry, ?exit, ?pn, ?use,
    ?maxAwake, ?quarantine, ?hour⟩
  case fire =>
    intro htrx
    refine (State.run_at hd).trans (State.next_ends (if_neg ?_))
    rw [Bool.and_eq_true, Bool.and_eq_true, decide_eq_true_eq, decide_eq_true_eq, decide_eq_true_eq]
    rintro ⟨⟨hlow, hhigh⟩, hawake⟩
    exact Nat.not_lt.2 (htrx hlow hhigh) hawake
  case alarm => exact fun hset hdue => (State.run_at hd).trans (State.next_ends (if_pos ⟨hset, hdue⟩))
  case go =>
    intro hadm hactive hawake
    have hgo (v : Nat) (force : Bool) (h31 : bitAt v 31 = true) (h30 : bitAt v 30 = false) (h29 : bitAt v 29 = force)
        (htarget : bits v 1 0 = 2) : d.sleepCmd v = _ :=
      (Dev.sleepCmd_go h31 h30 h29 htarget (.inr rfl) hactive).trans (Dev.sleepGo_of_awake hawake rfl force)
    exact ⟨State.run_gateW_next_at hd hadm (hgo _ false (by decide) (by decide) (by decide) (by decide)),
      State.run_gateW_next_at hd hadm (hgo _ true (by decide) (by decide) (by decide) (by decide))⟩
  case cancel => exact fun hadm => State.run_gateW_next_at hd hadm Dev.sleepCmd_cancel
  case phase => exact fun hround => (State.run_at hd).trans (State.next_ends (if_pos hround))
  case readyMsg =>
    exact fun hbus hbase =>
      (State.run_at hd).trans (State.next_ends ((if_neg (by rw [hbus]; decide)).trans (if_pos hbase)))
  case readyReport => exact fun hadm => State.run_gateW_next_at hd hadm rfl
  case prepMin => exact fun hround => (State.run_at hd).trans (State.next_ends (if_pos hround))
  case prepTimer => exact fun hround => (State.run_at hd).trans (State.next_ends (if_pos hround))
  case entry => exact fun hround => (State.run_at hd).trans (State.next_ends (if_neg (not_not_intro hround)))
  case exit =>
    exact fun hround hsupplied =>
      (State.run_at hd).trans (State.next_ends (if_pos (by rw [hround, hsupplied]; rfl)))
  case pn =>
    exact fun hadm => ⟨State.run_gateW_next_at hd hadm (Dev.pnCtrl_wake rfl),
      State.run_gateW_next_at hd hadm (Dev.pnCtrl_sleep rfl)⟩
  case use => exact State.run_at hd
  case maxAwake =>
    exact fun hcounts hover => (State.run_at hd).trans (State.next_ends (if_pos (by rw [hcounts, hover]; rfl)))
  case quarantine =>
    exact fun hsource hquar => (State.run_at hd).trans (State.next_ends ((if_neg hsource).trans (if_pos hquar)))
  case hour => exact State.run_at hd

end Sys2Proof.Machine
end

section
/-! SUPPORT. The end of a wake frame's verification (R337, R341), and the statement about it. -/

namespace Sys2Proof.Machine

section

variable {d d' : Dev} {f : NpFrame} {rest : List NpFrame} {key : List Nat} (hframes : d.npt.frames = f :: rest)
  (hverify : d.npt.verify = some key) (hready : d.wax.npWork = 0) (hkey : key ≠ [])
  (hspent : (d.withNpt (fun n => { n with verify := none, frames := rest })).slotSpent
    (d.fld nptPg (R.NPT_SENDER_KEY_SLOT.at f.sender)) = d')

/-- The tag that a wake frame has to carry under a key (R341). -/
def Dev.npTag (d : Dev) (key : List Nat) (f : NpFrame) : List Nat :=
  (cmac key ((beBytes 4 (d.fld nptPg R.NPT_RX_ID_IDE * 2 ^ 31 + d.fld nptPg R.NPT_RX_ID_ID) ++ f.data.take 16).map
    (·.toNat))).take 8

/-- How far a wake frame's counter is ahead of the last one taken from its sender (R337). -/
def Dev.npAhead (d : Dev) (f : NpFrame) : Nat :=
  (f.counter + 2 ^ 32 - d.fld nptPg (R.NPT_CNT_LAST_LAST.at f.sender)) % 2 ^ 32

include hframes hverify hready hkey hspent

/-- A verification that Wax has finished judges the tag, an armed checker, and then the counter (R337 steps 5 and 6, R502). -/
theorem Dev.npVerified_of_key {d2 : Dev} (htaken : ((d'.setFld nptPg (R.NPT_CNT_LAST_LAST.at f.sender) f.counter).carbon 4
      [f.sender, f.counter]).npShow f 1 = d2) : d.npVerified =
    if d'.npTag key f ≠ (f.data.drop 16).map (·.toNat) then
      (((((d'.cnt nptPg 3).fault { cls := 9, page := nptPg }).npShow f 5).raise nptPg 1).npPins 1 2).npNext
    else if d'.isArmed nptPg 0 then
      ((((((d'.disarm nptPg 0).cnt nptPg 4).fault { cls := 0, page := nptPg, checker := 0, injected := true }).npShow f 6).raise
        nptPg 1).npPins 1 2).npNext
    else if d'.npAhead f = 0 || d'.fld nptPg R.NPT_RELAY_CFG_WINDOW < d'.npAhead f then
      ((((d'.cnt nptPg 4).npShow f 6).raise nptPg 1).npPins 1 2).npNext
    else if d2.npt.peerRelays && !d2.mainRun then (d2.npPins 1 2).npNext
    else d2.relayOffer { cmd := f.cmd, body := slice f.data 8 8, left := d2.fld nptPg R.NPT_RELAY_CFG_REPEAT } := by
  subst hspent htaken
  have hheld : key.isEmpty = false := List.isEmpty_eq_false_iff.2 hkey
  have hidle : (d.wax.npWork != 0) = false := by rw [hready]; rfl
  simp only [Dev.npVerified, hframes, hverify, hidle, hheld, Bool.false_eq_true, if_false]
  rfl

end

/-- Settles O50: by the tag and then by the counter; assumption 87 says which unit relays. -/
theorem verifiedWakeFramesAreRelayed : Obligations.VerifiedWakeFramesAreRelayed := by
  intro s f rest key d hframes hverify hready hkey d' ide good last x
  have hrun : exec .npVerifyDone s = .next (s.ends d.npVerified) := rfl
  rw [hrun, Dev.npVerified_of_key hframes hverify hready hkey (d' := d') rfl rfl]
  refine ⟨fun htag hunarmed hahead hwindow => State.next_ends ?good, fun htag hunarmed hstale => State.next_ends ?stale,
    fun htag => State.next_ends (if_pos htag)⟩
  case good =>
    refine (if_neg (not_not_intro htag)).trans ((if_neg (Bool.eq_false_iff.1 hunarmed)).trans (if_neg ?_))
    rw [Bool.or_eq_true, decide_eq_true_eq, decide_eq_true_eq]
    exact fun h => h.elim (Nat.ne_of_gt hahead) (Nat.not_lt.2 hwindow)
  case stale =>
    refine (if_neg (not_not_intro htag)).trans ((if_neg (Bool.eq_false_iff.1 hunarmed)).trans (if_pos ?_))
    rw [Bool.or_eq_true, decide_eq_true_eq, decide_eq_true_eq]
    exact hstale

end Sys2Proof.Machine
end

section
/-! SUPPORT. The power states, the operating points and the supplies (R346 to R365): what a write of PWR_STATE_REQ and of
PWR_OP_REQ does, and the statement about the commands. -/

namespace Sys2Proof.Machine

section

variable {d : Dev}

/-- A field of the power page tells nothing of the sleep round. -/
theorem Dev.reqHeld_setFld_pwr (f : Fld) (v : Nat) (hf : f.hi < 32) (ho : f.off < pageSpan) :
    (d.setFld pwrPg f v).reqHeld = d.reqHeld ∧ (d.setFld pwrPg f v).round = d.round := by
  have hround : (d.setFld pwrPg f v).round = d.round :=
    Dev.fld_setFld_page d pwrPg nptPg f R.NPT_SLEEP_STAT_STATE v hf (by decide) (by decide) ho (by decide)
  exact ⟨by simp only [Dev.reqHeld, hround], hround⟩

-- ==== power states (R347, R353, R354) ====

section

variable {t : Nat} (ht : t = 0 ∨ t = 1 ∨ t = 4)

/-- A write of PWR_STATE_REQ with GO keeps TARGET and requests it. -/
theorem Dev.stateReqWrite_of_go {v : Nat} (hgo : bitAt v 31 = true) (htarget : bits v 2 0 = t) :
    d.stateReqWrite v = (d.setFld pwrPg R.PWR_STATE_REQ_TARGET t).stRequest t := by
  subst htarget
  exact if_pos hgo

include ht

/-- A request for a state that there is, Off in round 0 alone, is judged by the transition that runs (R347, R353); one made
while the device sleeps is pending (R354; assumption 151). -/
theorem Dev.stRequest_of_legal (hround : t = 4 → d.round = 0) : d.stRequest t =
    if d.flag pwrPg R.PWR_STATE_STAT_BUSY || d.reqHeld then
      if d.fld pwrPg R.PWR_STATE_STAT_NEXT = t then d.setFlag pwrPg R.PWR_STATE_STAT_PEND_VALID false
      else (d.setFld pwrPg R.PWR_STATE_STAT_PEND t).setFlag pwrPg R.PWR_STATE_STAT_PEND_VALID true
    else if d.fld pwrPg R.PWR_STATE_STAT_CUR = t then d
    else d.stStart t := by
  refine if_neg ?_
  rcases ht with rfl | rfl | rfl
  · simp
  · simp
  · simp [hround rfl]

variable (hround : t = 4 → d.round = 0) {d' : Dev} (hkept : d.setFld pwrPg R.PWR_STATE_REQ_TARGET t = d')

include hround hkept

/-- With no transition running and another state asked for, the transition begins (R353). -/
theorem Dev.stRequest_of_free (hidle : d.flag pwrPg R.PWR_STATE_STAT_BUSY = false) (hheld : d.reqHeld = false)
    (hcur : d.fld pwrPg R.PWR_STATE_STAT_CUR ≠ t) : d'.stRequest t = d'.stStart t := by
  subst hkept
  obtain ⟨hheld', hround'⟩ := d.reqHeld_setFld_pwr R.PWR_STATE_REQ_TARGET t (by decide) (by decide)
  rw [Dev.stRequest_of_legal ht (fun h => hround'.trans (hround h)), hheld', hheld,
    Dev.flag_setFld_apart d pwrPg _ R.PWR_STATE_STAT_BUSY t (by decide), hidle,
    Dev.fld_setFld_apart d pwrPg _ R.PWR_STATE_STAT_CUR t (by decide), if_neg hcur]
  rfl

/-- While one runs or the device sleeps, a request for a state other than the one it goes to is pending (R353, R354). -/
theorem Dev.stRequest_of_busy (hbusy : d.flag pwrPg R.PWR_STATE_STAT_BUSY = true ∨ d.reqHeld = true)
    (hnext : d.fld pwrPg R.PWR_STATE_STAT_NEXT ≠ t) :
    d'.stRequest t = (d'.setFld pwrPg R.PWR_STATE_STAT_PEND t).setFlag pwrPg R.PWR_STATE_STAT_PEND_VALID true := by
  subst hkept
  obtain ⟨hheld', hround'⟩ := d.reqHeld_setFld_pwr R.PWR_STATE_REQ_TARGET t (by decide) (by decide)
  rw [Dev.stRequest_of_legal ht (fun h => hround'.trans (hround h)), hheld',
    Dev.flag_setFld_apart d pwrPg _ R.PWR_STATE_STAT_BUSY t (by decide), if_pos (Bool.or_eq_true_iff.2 hbusy),
    Dev.fld_setFld_apart d pwrPg _ R.PWR_STATE_STAT_NEXT t (by decide), if_neg hnext]

end

-- ==== operating points (R353, R357) ====

/-- A request for an operating point is judged by the transition that runs (R353); one made while the device sleeps is
pending (R354; assumption 151). -/
theorem Dev.opRequest_eq (op : Nat) : d.opRequest op =
    if d.flag pwrPg R.PWR_OP_STAT_BUSY || d.reqHeld then
      if d.fld pwrPg R.PWR_OP_STAT_NEXT = op then d.setFlag pwrPg R.PWR_OP_STAT_PEND_VALID false
      else (d.setFld pwrPg R.PWR_OP_STAT_PEND op).setFlag pwrPg R.PWR_OP_STAT_PEND_VALID true
    else if d.fld pwrPg R.PWR_OP_STAT_CUR = op then d
    else d.opStart op := rfl

/-- With no transition running and another operating point asked for, the transition begins (R353, R357). -/
theorem Dev.opReqWrite_of_free {op : Fin 4} (hidle : d.flag pwrPg R.PWR_OP_STAT_BUSY = false) (hheld : d.reqHeld = false)
    (hcur : d.fld pwrPg R.PWR_OP_STAT_CUR ≠ op.val) :
    d.opReqWrite (2 ^ 31 + op.val) = (d.setFld pwrPg R.PWR_OP_REQ_OP op.val).opStart op := by
  have hgo : bitAt (2 ^ 31 + op.val) 31 = true := by rw [bitAt, beq_iff_eq]; omega
  have hop : bits (2 ^ 31 + op.val) 1 0 = op.val := by unfold bits; omega
  rw [Dev.opReqWrite, if_pos hgo, hop, Dev.opRequest_eq, (d.reqHeld_setFld_pwr _ _ (by decide) (by decide)).1, hheld,
    Dev.flag_setFld_apart d pwrPg _ R.PWR_OP_STAT_BUSY op (by decide), hidle,
    Dev.fld_setFld_apart d pwrPg _ R.PWR_OP_STAT_CUR op (by decide), if_neg hcur]
  rfl

end

/-- The groups follow in the order 3, 0, 1, 2 (R364). -/
theorem nextGroup_of_ne : ∀ g : Fin 4, g.val ≠ 2 → nextGroup g = some (if g.val = 3 then 0 else g.val + 1) := by decide

/-- Settles O41: each command by its test, or by the lemma that says what its operation does under the conditions named. A
request that comes while the device sleeps is pending by assumption 151. -/
theorem powerCommandsComplete : Obligations.PowerCommandsComplete := by
  intro s who op settled g mv d cur
  have hd : s.begun = d := rfl
  clear_value d
  refine ⟨?free, ?busy, ?stateDone, ?op, ?opDone, ?trim, ?telemetry, ?good, ?timeout, ?undervoltage⟩
  case free =>
    intro hadm hidle hheld from_
    refine ⟨fun hcur => ?_, fun hcur => ?_, fun hcur hround => ?_⟩
    · exact State.run_gateW_next_at hd hadm ((Dev.stateReqWrite_of_go (by decide) (by decide)).trans
        (Dev.stRequest_of_free (.inl rfl) (fun h => nomatch h) rfl hidle hheld hcur))
    · exact State.run_gateW_next_at hd hadm ((Dev.stateReqWrite_of_go (by decide) (by decide)).trans
        (Dev.stRequest_of_free (.inr (.inl rfl)) (fun h => nomatch h) rfl hidle hheld hcur))
    · exact State.run_gateW_next_at hd hadm ((Dev.stateReqWrite_of_go (by decide) (by decide)).trans
        (Dev.stRequest_of_free (.inr (.inr rfl)) (fun _ => hround) rfl hidle hheld hcur))
  case busy =>
    exact fun hadm hbusy hnext => State.run_gateW_next_at hd hadm ((Dev.stateReqWrite_of_go (by decide) (by decide)).trans
      (Dev.stRequest_of_busy (.inl rfl) (fun h => nomatch h) rfl hbusy hnext))
  case stateDone =>
    intro hbusy hnext
    refine (State.run_at hd).trans (State.next_ends ((if_pos hbusy).trans ?_))
    rw [hnext]
    rfl
  case op => exact fun hadm hidle hheld hcur => State.run_gateW_next_at hd hadm (Dev.opReqWrite_of_free hidle hheld hcur)
  case opDone => exact fun hbusy => (State.run_at hd).trans (State.next_ends (if_pos hbusy))
  case trim =>
    exact fun hmain htrim _ => State.runMain_next_at hd hmain ((if_neg (by decide)).trans (if_neg htrim))
  case telemetry => exact fun hmain hpmbus => State.runMain_next_at hd hmain (if_neg (by rw [hpmbus]; decide))
  case good =>
    intro hwait hg
    exact (State.run_at hd).trans (State.next_ends ((if_pos hwait).trans (by rw [nextGroup_of_ne g hg])))
  case timeout => exact fun hwait => (State.run_at hd).trans (State.next_ends (if_pos hwait))
  case undervoltage => exact fun hmain => State.runMain_at hd hmain

end Sys2Proof.Machine
end

section
/-! SUPPORT. The fault classes, the power failure, the temperature and the clock (R364, R468 to R482): the statement about
the commands. -/

namespace Sys2Proof.Machine

/-- An acknowledgement of an ACTIVE class lets it leave where its quiet time has passed, and shows it ACKED otherwise
(R470). -/
theorem Dev.clsAck_of_active {d : Dev} {c : Nat} (hactive : d.fld fltPg (R.FLT_CLS_STAT_STATE.at c) = 1) :
    d.clsAck c 1 = if d.flag fltPg (R.FLT_CLS_STAT_QUIET_DONE.at c) then d.clsLeave c
      else d.setFld fltPg (R.FLT_CLS_STAT_STATE.at c) 2 :=
  if_pos (by rw [hactive]; decide)

/-- Settles O51: each command by the branch of its test. That the page of the fault unit is the source of a clock fault is
assumption 9; what a page's OPEN and FLT_TEMP.NOW keep is assumption 105. -/
theorem faultCommandsComplete : Obligations.FaultCommandsComplete := by
  intro s who cls celsius d state
  have hd : s.begun = d := rfl
  clear_value d
  refine ⟨?quiet, ?ack, ?pfail, ?temperature⟩
  case quiet =>
    intro hmain
    refine ⟨fun hacked => ?_, fun hactive hauto => ?_, fun hactive hauto => ?_⟩
    · exact State.runMain_next_at hd hmain (if_pos hacked)
    · exact State.runMain_next_at hd hmain
        ((if_neg (hactive.trans_ne (by decide))).trans ((if_pos hactive).trans (if_pos hauto)))
    · exact State.runMain_next_at hd hmain
        ((if_neg (hactive.trans_ne (by decide))).trans ((if_pos hactive).trans (if_neg (by rw [hauto]; decide))))
  case ack => exact fun hadm hactive => State.run_gateW_next_at hd hadm (Dev.clsAck_of_active hactive)
  case pfail =>
    exact fun hmain => ⟨State.runMain_at hd hmain, fun hwarned => State.runMain_next_at hd hmain (if_pos hwarned),
      State.runMain_at hd hmain⟩
  case temperature =>
    intro hmain d'
    refine ⟨fun hhot => ?_, fun hhigh hcool => ?_, State.runMain_at hd hmain⟩
    · exact State.runMain_next_at hd hmain (if_pos (by simpa using hhot))
    · exact State.runMain_next_at hd hmain (if_neg (by simpa using ⟨hhigh, hcool⟩))

end Sys2Proof.Machine
end

section
/-! SUPPORT. The management port, the remote windows and the flash (R366 to R382): which window an address of BAR0 decodes
to, what an access of a window does, and the statement about the commands. -/

namespace Sys2Proof.Machine

-- ==== the windows of BAR0 (R378) ====

/-- The second half of BAR0's upper 16 MiB is the peer window, a page of 8 MiB (R378). -/
theorem resolve_peerWin (off : BitVec 23) : resolve (.addr .bar0 (0x1000000 + off.toNat)) = .peerWin off.toNat := by
  rw [resolve, if_pos (by omega), if_pos (by omega), Nat.add_sub_cancel_left]

/-- The flash window follows it (R378). -/
theorem resolve_flashWin (off : BitVec 23) : resolve (.addr .bar0 (0x1800000 + off.toNat)) = .flashWin off.toNat := by
  rw [resolve, if_pos (by omega), if_neg (by omega), if_pos (by omega), Nat.add_sub_cancel_left]

section

variable {d : Dev} {a : Access} (hrel : d.start.released = true)

include hrel

/-- A read behind a posted write of its sender waits with it (R375; assumption 153). -/
theorem Dev.access_of_held {tag : Nat} (hheld : d.heldWrite a = some tag) : d.access a = d.hold tag a := by
  rw [Dev.access, if_neg (by rw [hrel]; decide), hheld]

section

variable {off : Nat} (hheld : d.heldWrite a = none) (hreach : d.reaches a.who hbrPg = true)
  (hsize : (a.size == 4 || a.size == 8) = true) (halign : off % a.size = 0) (hready : d.domainReady 1 = true)
  (hfeature : d.feature 7 = true) (hwho : a.who ≠ .peer)

omit hrel

include hreach hsize halign hready in
/-- A window is entered by an access that reaches the bridge, of an aligned size, while the main domain runs. -/
theorem Dev.windowAccess_of_reached (f : Dev → Dev) : d.windowAccess a off f = f d := by
  rw [Dev.windowAccess, if_neg (by rw [hreach]; decide), if_neg (by simp [hsize, halign]), if_neg (by rw [hready]; decide)]

include hfeature hwho in
/-- A remote window is open where the feature is present, to everyone but the peer (R378, R379). -/
theorem Dev.windowBarred_none : d.windowBarred a = none := by
  rw [Dev.windowBarred, if_neg hwho, if_neg (by rw [hfeature]; decide)]

include hrel hheld hreach hsize halign hready hfeature hwho

/-- An access that the peer window admits is a write that passes the fence, or a read, and needs a joined peer (R379). -/
theorem Dev.access_of_peerWin (htarget : resolve a.target = .peerWin off) :
    d.access a = if a.write then
        (if d.flag hbrPg R.HBR_RWIN_PEER_FENCED then d.cnt hbrPg 0
          else if !d.peerJoined then d.peerWriteFail a 2 (d.fld hbrPg R.HBR_RWIN_PEER_BASE * 2 ^ 23 + off)
          else d.remoteSend a (d.fld hbrPg R.HBR_RWIN_PEER_SPACE) (d.fld hbrPg R.HBR_RWIN_PEER_BASE * 2 ^ 23 + off)).written a
      else if !d.peerJoined then d.accessFail a 4 0x87
      else d.remoteSend a (d.fld hbrPg R.HBR_RWIN_PEER_SPACE) (d.fld hbrPg R.HBR_RWIN_PEER_BASE * 2 ^ 23 + off) := by
  rw [Dev.access, if_neg (by rw [hrel]; decide), hheld, htarget]
  refine (Dev.windowAccess_of_reached hreach hsize halign hready _).trans ?_
  rw [Dev.peerAccess, Dev.windowBarred_none hfeature hwho]

/-- An access that the flash window admits is put in the queue, or read (R378). -/
theorem Dev.access_of_flashWin (htarget : resolve a.target = .flashWin off) :
    d.access a = if a.write then d.flashPut a off else d.flashGet a off := by
  rw [Dev.access, if_neg (by rw [hrel]; decide), hheld, htarget]
  refine (Dev.windowAccess_of_reached hreach hsize halign hready _).trans ?_
  rw [Dev.flashAccess, Dev.windowBarred_none hfeature hwho]

end

end

section

variable {d : Dev} {a : Access} {off at_ : Nat} (hat : d.fld hbrPg R.HBR_RWIN_FLASH_BASE * 2 ^ 23 + off = at_)
  (hidle : d.sectorBusy at_ = false)

include hat hidle

/-- The flash is read where no erase of its sector runs (R378). -/
theorem Dev.flashGet_of_idle : d.flashGet a off = (d.flashRead at_ a.size).2.answer a 0x80 (d.flashRead at_ a.size).1 := by
  subst hat
  exact if_neg (by rw [hidle]; decide)

/-- A write to the user area is queued where the fence is open and there is room (R380, R382). -/
theorem Dev.flashPut_of_good (hfence : d.flag hbrPg R.HBR_RWIN_FLASH_FENCED = false) (huser : inUser at_ = true)
    (hroom : d.flash.queue.length < 256) :
    d.flashPut a off = (d.withFlash (fun f => { f with
      queue := f.queue ++ [⟨at_, leBytes a.size a.data, a.who.code, a.size == 8⟩],
      headAt := if f.queue.isEmpty then d.now else f.headAt })).written a := by
  subst hat
  rw [Dev.flashPut, if_neg (by rw [hfence]; decide), if_neg (by rw [huser]; decide), if_neg (by rw [hidle]; decide),
    if_neg (by omega)]

end

/-- A request of the management port with a good CRC, while none is pending, is done (R366, R371). -/
theorem Dev.spiTake_of_good {d : Dev} {good : Bool} (f : Dev → Dev) (hawake : d.spiDeep = false)
    (hrel : d.start.released = true) (hup : d.start.spiUp = true) (hfree : d.spiPending = false) (hgood : good = true) :
    d.spiTake good f = f d := by
  rw [Dev.spiTake, if_neg (by rw [hawake]; decide), if_neg (by rw [hrel, hup]; decide), if_neg (by rw [hgood]; decide),
    if_neg (by rw [hfree]; decide)]

/-- An access asked for so is made (R369). -/
theorem Dev.spiAccess_of_good {d : Dev} {op size : Nat} {write : Bool} {space : Fin 3} {addr : BitVec 32} {data : List Byte}
    {crc : Byte} (hawake : d.spiDeep = false) (hrel : d.start.released = true) (hup : d.start.spiUp = true)
    (hfree : d.spiPending = false) (hop : ((if op = 2 ∨ op = 4 then 8 else 4), decide (3 ≤ op)) = (size, write))
    (hcrc : crc8 (spiRequest op space addr data) = crc.toNat) :
    d.spiAccess op space addr data crc = d.access
      { who := .spi, target := .addr (spiSpace space) addr.toNat, write := write, size := size, data := beNat data } := by
  obtain ⟨rfl, rfl⟩ := Prod.mk.inj hop
  rw [Dev.spiAccess]
  exact Dev.spiTake_of_good _ hawake hrel hup hfree (beq_iff_eq.2 hcrc)

/-- An erase of a user sector begins where none runs (R381). -/
theorem Dev.eraseGo_of_idle {d : Dev} {v sector : Nat} (hgo : bitAt v 31 = true) (hsector : bits v 15 0 = sector)
    (hidle : d.flag hbrPg R.HBR_FLASH_STAT_BUSY = false) (huser : inUser (sector * 65536) = true) :
    d.eraseGo v =
      let d := d.setFld hbrPg R.HBR_FLASH_ERASE_SECTOR sector
      (d.withFlash (fun f => { f with erasing := some sector, eraseFrom := d.now })).setFlag hbrPg
        R.HBR_FLASH_STAT_BUSY true := by
  rw [Dev.eraseGo, hsector, hgo, if_neg (by simp [hidle, huser])]
  exact if_pos rfl

/-- Settles O52: each command by its test, or by the lemma that says what an access of its window does. A read waits behind
its sender's posted write by assumption 153; a write is tested again when it is programmed by assumption 93. -/
theorem windowCommandsComplete : Obligations.WindowCommandsComplete := by
  intro s who wide ok space addr low crc off data sector w ws k d size reached
  have hd : s.begun = d := rfl
  have hsize : (size == 4 || size == 8) = true := by cases wide <;> rfl
  have hwide : (size == 8) = wide := by cases wide <;> rfl
  clear_value d
  refine ⟨?spi, ?peer, ?flash, ?programmed, ?erase, ?erased⟩
  case spi =>
    intro hawake hrel hup hfree a good
    refine ⟨fun h => ?_, fun h => ?_, fun h => ?_, fun h => ?_, fun h => ?_⟩
    · exact (State.run_at hd).trans (State.next_ends (Dev.spiAccess_of_good hawake hrel hup hfree rfl h))
    · exact (State.run_at hd).trans (State.next_ends (Dev.spiAccess_of_good hawake hrel hup hfree rfl h))
    · exact (State.run_at hd).trans (State.next_ends (Dev.spiAccess_of_good hawake hrel hup hfree rfl h))
    · exact (State.run_at hd).trans (State.next_ends (Dev.spiAccess_of_good hawake hrel hup hfree rfl h))
    · exact (State.run_at hd).trans (State.next_ends (Dev.spiTake_of_good _ hawake hrel hup hfree (beq_iff_eq.2 h)))
  case peer =>
    rintro ⟨hrel, hreach, halign, hready, hfeature, hwho⟩ hjoined at_ a
    have admitted (write : Bool) (hheld : d.heldWrite (a write) = none) :=
      Dev.access_of_peerWin (a := a write) hrel hheld hreach hsize halign hready hfeature hwho (resolve_peerWin off)
    refine ⟨fun hheld => ?_, fun tag hheld => ?_, fun hfence => ?_⟩
    · refine (State.run_at hd).trans (State.next_ends ((admitted false hheld).trans ?_))
      rw [if_neg Bool.false_ne_true, if_neg (by rw [hjoined]; decide)]
    · exact (State.run_at hd).trans (State.next_ends (Dev.access_of_held hrel hheld))
    · refine (State.run_at hd).trans (State.next_ends ((admitted true (d.heldWrite_of_write rfl)).trans ?_))
      rw [if_pos rfl, if_neg (by rw [hfence]; decide), if_neg (by rw [hjoined]; decide)]
  case flash =>
    rintro at_ a ⟨hrel, hreach, halign, hready, hfeature, hwho⟩ hidle
    have admitted (write : Bool) (v : Nat) (hheld : d.heldWrite (a write v) = none) :=
      Dev.access_of_flashWin (a := a write v) hrel hheld hreach hsize halign hready hfeature hwho (resolve_flashWin off)
    refine ⟨fun hheld => ?_, fun hfence huser hroom => ?_⟩
    · exact (State.run_at hd).trans (State.next_ends ((admitted false 0 hheld).trans (Dev.flashGet_of_idle rfl hidle)))
    · have hput := Dev.flashPut_of_good (a := a true data.toNat) rfl hidle hfence huser hroom
      rw [show ((a true data.toNat).size == 8) = wide from hwide] at hput
      exact (State.run_at hd).trans (State.next_ends ((admitted true _ (d.heldWrite_of_write rfl)).trans hput))
  case programmed =>
    intro hmain hqueue hheld d' r hidle hclears
    have htest : d'.wouldRaise w.addr w.data = (false, r.2) := Prod.ext (by simpa [Dev.wouldRaise] using hclears) rfl
    exact State.runMain_next_at hd hmain (Dev.flashProgrammed_of_good hqueue hheld hidle rfl htest)
  case erase =>
    have hgo : bitAt (2 ^ 31 + sector.toNat) 31 = true := by rw [bitAt, beq_iff_eq]; omega
    have hsector : bits (2 ^ 31 + sector.toNat) 15 0 = sector.toNat := by unfold bits; omega
    exact fun hadm hidle huser => State.run_gateW_next_at hd hadm (Dev.eraseGo_of_idle hgo hsector hidle huser)
  case erased =>
    intro hmain herasing hheld
    exact State.runMain_next_at hd hmain (Dev.eraseDone_of_erasing ok herasing hheld rfl)

end Sys2Proof.Machine
end

section
/-! SUPPORT. The DMA queues and the mailboxes of the host (R383 to R399): what the round and a mailbox's request do under the
conditions that the statement names, and the statement about the commands. -/

namespace Sys2Proof.Machine

section

variable {d : Dev}

/-- A tail that the queue can have is kept (R387). -/
theorem Dev.tailWrite_of_good {i v : Nat} (hgood : d.badWrite .host dmaPg (0x1014 + 0x40 * i) v = false) :
    d.tailWrite i v = d.setFld dmaPg (R.DMA_Q_TAIL_TAIL.at i) v :=
  if_neg (by rw [hgood]; decide)

/-- The round picks a queue and its next frame is read from the host: its descriptors are fetched, and port 41 is busy for
the frame and 20 bytes more (R14, R389, R390; assumption 91). -/
theorem Dev.dmaFetch_of_picked {next : List TxNext} {n : TxNext} {e : Dev} (hon : d.state dmaPg = 2)
    (hfree : d.dma.freeAt ≤ d.now) (hready : d.stalled 13 0 = false) (hpick : d.drr next (64 * 128) = (some n, e))
    (hgood : n.fail = none) (hopen : e.hostBarred = none) :
    d.dmaFetch next =
      let data := n.descs.flatMap (fun x => x.bytes.take x.len)
      let r : TxRead :=
        { data := data ++ List.replicate (60 - data.length) 0, descs := n.descs.length,
          ts := (n.descs.getLast?.map (·.ts)).getD false,
          bad := decide (9212 < data.length) || decide (16 < n.descs.length) || n.descs.any (fun x => x.len == 0) }
      let old := e.dmaQ (64 + n.q)
      let d' := e.setDmaQ (64 + n.q) { old with fetched := old.fetched + r.descs, reads := old.reads ++ [r] }
      { d' with dma := { d'.dma with freeAt := d'.now + (8 * (r.data.length + 20) + 15) / 16 } } := by
  have hbusy : ¬ (d.state dmaPg ≠ 2 || decide (d.now < d.dma.freeAt) || d.stalled 0x0D 0) = true := by
    simp [hon, hready, hfree]
  simp only [Dev.dmaFetch, if_neg hbusy, hpick, hgood, hopen]
  rfl

/-- The moderation timer announces what is unannounced (R392). -/
theorem Dev.qTimer_of_due {i : Nat} (hsome : (d.dmaQ i).unann ≠ 0) (hon : d.qf i R.DMA_Q_IRQ_EN = 1)
    (hdue : (d.dmaQ i).timerAt + d.qf i R.DMA_Q_IRQ_ITR_US * usTicks ≤ d.now) :
    d.qTimer i = (d.setDmaQ i { d.dmaQ i with unann := 0 }).sendMsix (d.qf i R.DMA_Q_IRQ_VECTOR) :=
  if_pos (by simp [hsome, hon, hdue])

/-- A mailbox's party submits a request where none waits or runs (R394, R396). -/
theorem Dev.mbCtrl_of_free {who : Owner} {m : Nat} (hparty : who.code = mbParty m) (hwaits : d.mbState m ≠ 1)
    (hruns : d.mbState m ≠ 2) :
    d.mbCtrl who m (2 ^ 31) =
      let d := (d.setResp m []).setMb m 1
      let d := d.withLbx (fun l => { l with go := l.go.set m (l.order, d.now), order := l.order + 1 })
      d.when (decide (2 ≤ codePair (d.word lbxPg (reqOff m 0) / 2 ^ 16))) Dev.idleReturn :=
  (if_neg (not_not_intro hparty)).trans ((if_pos (by decide)).trans (if_neg (by simp [hwaits, hruns])))

/-- The service pair that carries its code takes a request whose turn has come and whose framing is good (R397). -/
theorem Dev.mbTake_of_good {m : Nat} :
    let w := d.word lbxPg (reqOff m 0)
    let k := d.carrier (codePair (w / 2 ^ 16))
    let body := (List.range (w % 64)).map (fun i => d.word lbxPg (reqOff m (2 + i)))
    d.mbState m = 1 → d.mbAhead m = false → d.flag bootPg R.BOOT_STATUS_HOLD = false →
    (d.pairState 2 ≠ 5 ∨ d.pairState 3 ≠ 5) → d.pairState k = 1 → d.framing m (w / 2 ^ 16) (w % 64) body = 0 →
    d.mbTake m = (d.setMb m 2).withLbx (fun l => { l with
      runs := l.runs ++ [⟨m, w / 2 ^ 16, bits w 15 8, body, (d.lbx.go.getD m (0, 0)).2, k, false, d.now⟩] }) := by
  intro w k body hwaits hturn hhold halive hup hframed
  have hdead : (decide (2 ≤ codePair (w / 2 ^ 16)) && d.pairState 2 == 5 && d.pairState 3 == 5) = false := by
    rcases halive with h | h
    · simp [h]
    · simp [h]
  refine (if_neg (by simp [hwaits, hturn])).trans ((if_neg (by simp [hhold])).trans ((if_neg ?_).trans
    ((if_neg (not_not_intro hframed)).trans (if_neg ?_))))
  · simp only [Bool.and_eq_true, bne_iff_ne, not_and_or]
    exact .inr (not_not_intro hup)
  · exact Bool.not_eq_true _ ▸ hdead

end

/-- Settles O53: each command by its test, or by the lemma that says what its operation does under the conditions named. The
credit of port 41 is assumption 91, write-back at the hand-in assumption 90. -/
theorem hostCommandsComplete : Obligations.HostCommandsComplete := by
  intro s q t tail next n r rest m who w id d i x
  have hd : s.begun = d := rfl
  clear_value d
  refine ⟨?tail, ?fetch, ?frameIn, ?stamp, ?timer, ?go, ?taken⟩
  case tail => exact fun hadm hgood => State.run_gateW_next_at hd hadm (Dev.tailWrite_of_good hgood)
  case fetch =>
    intro hmain hon hfree hready hpick hgood d' hopen
    exact State.runMain_next_at hd hmain
      (Dev.dmaFetch_of_picked hon hfree hready (Prod.ext hpick rfl) hgood hopen)
  case frameIn =>
    intro hmain hreads d'
    have hreads' : (d.dmaQ (64 + t.val)).reads = r :: rest := hreads
    refine ⟨fun hbad => ?_, fun hgood => ?_⟩
    · refine State.runMain_next_at hd hmain ?_
      simp only [Dev.txFrameIn, hreads', if_pos hbad]
      rfl
    · refine State.runMain_next_at hd hmain ?_
      simp only [Dev.txFrameIn, hreads', hgood, Bool.false_eq_true, if_false]
      rfl
  case stamp =>
    intro hmain hlate hfrm
    cases w
    cases hfrm
    refine State.runMain_next_at hd hmain ?_
    simp only [show (d.dmaQ (64 + t.val)).wbs.find? _ = _ from hlate]
    rfl
  case timer => exact fun hmain hsome hon hdue => State.runMain_next_at hd hmain (Dev.qTimer_of_due hsome hon hdue)
  case go =>
    exact fun hadm hparty hwaits hruns => State.run_gateW_next_at hd hadm (Dev.mbCtrl_of_free hparty hwaits hruns)
  case taken =>
    exact fun hmain hwaits hturn hhold halive hup hframed =>
      State.runMain_next_at hd hmain (Dev.mbTake_of_good hwaits hturn hhold halive hup hframed)

end Sys2Proof.Machine
end

section
/-! SUPPORT. The deep store, the MMU and the movers (R400 to R421): what each operation does under the conditions that the
statement names, and the statement about the commands. -/

namespace Sys2Proof.Machine

section

variable {d : Dev}

-- ==== the deep store (R402 to R411) ====

/-- The deep store's commands happen while its page is ON. -/
theorem State.runDst_next_at {s : State} {d d' : Dev} {f : Dev → Dev} (hd : s.begun = d) (hmain : d.mainRun = true)
    (hon : d.isOn dstPg = true) (h : f d = d') : s.runMain (fun d => d.dstRuns f) = .next (s.ends d') :=
  State.runMain_next_at hd hmain ((if_pos hon).trans h)

/-- A granted read returns to the requester: a corrected error is counted, an uncorrectable one poisons what came
(R402). -/
theorem Dev.dsReturn_of_read {who found addr : Nat} {r : DsReq} (hread : d.dst.reads.find? (fun r => r.who == who) = some r)
    (hplain : d.isArmed dstPg 0 = false) :
    d.dsReturn who found addr =
      let d' := ((d.disarm dstPg 0).withDst (fun s => { s with reads := dropReq r s.reads })).dsMore
      if found = 2 then
        (d'.withDst (fun s => { s with poison := s.poison ++ [⟨r.who, r.tag, false⟩] })).dsUncorr r.who (r.block addr) false
      else d'.when (found == 1) (fun d => d.cnt dstPg 0) := by
  simp only [Dev.dsReturn, hread, Dev.dsBack, Dev.check, hplain, Bool.false_or, decide_eq_true_eq]

/-- The oldest of the requests that have waited too long is recorded (R408). -/
theorem Dev.dsStarve_of_due {r : DsReq} {rs : List DsReq}
    (hdue : d.dst.waiting.filter (fun r => !r.starved && decide (r.at0 + 4 * d.fld dstPg R.DST_ARB_CFG_STARVE_NS ≤ d.now))
      = r :: rs) :
    d.dsStarve =
      let x := rs.foldl older r
      let d' := d.dsMark x { x with starved := true }
      let d' := d'.record dstPg R.DST_STARVE_VALID R.DST_STARVE_OVERRUN (fun d =>
        (d.setFld dstPg R.DST_STARVE_REQUESTER x.who).setFld dstPg R.DST_STARVE_WAIT_NS (min ((d.now - x.at0) / 4) 0xFFFF))
      (d'.cnt dstPg 4).raise dstPg 0 := by
  simp only [Dev.dsStarve, hdue]

/-- The oldest of the requests that have waited far too long is a fault of the arbiter (R408). -/
theorem Dev.dsStall_of_due {r : DsReq} {rs : List DsReq}
    (hdue : d.dst.waiting.filter (fun r => !r.stalled && decide (r.at0 + usTicks * d.fld dstPg R.DST_ARB_CFG_STALL_US ≤ d.now))
      = r :: rs) :
    d.dsStall =
      let x := rs.foldl older r
      (d.dsMark x { x with stalled := true }).fault { cls := 0, page := dstPg } := by
  simp only [Dev.dsStall, hdue]

/-- The scrubber reads the next block where it may have one more outstanding (R403). -/
theorem Dev.scrub_of_room (hon : d.flag dstPg R.DST_SCRUB_EN = true) (hroom : d.dsRoom 5 = true) :
    d.scrub =
      let d' := d.dsAsk { who := 5, at0 := 0, bytes := 64, addr := some d.dst.scrubAt }
      if d.dst.scrubAt + 64 < d'.dstSize then d'.withDst (fun s => { s with scrubAt := d.dst.scrubAt + 64 })
      else ((d'.withDst (fun s => { s with scrubAt := 0 })).cnt dstPg 5).raise dstPg 2 :=
  if_neg (by rw [hon, hroom]; decide)

-- ==== the MMU (R418) ====

/-- An invalidation of a scope that there is, by a writer of the MMU, is queued (R418). -/
theorem Dev.mmuInv_of_scope {who : Owner} {v scope ctx : Nat} (hwriter : mmuWriter who = true) (hlegal : scope ≠ 3)
    (hgo : bitAt v 31 = true) (hscope : bits v 30 29 = scope) (hctx : bits v 3 0 = ctx) :
    d.mmuInv who v =
      let d := (d.setFld mmuPg R.MMU_INV_SCOPE scope).setFld mmuPg R.MMU_INV_CTX ctx
      d.withMmu (fun m => { m with invs := m.invs ++ [(scope, ctx, d.fld mmuPg R.MMU_INV_DVA_DVA)] }) := by
  subst hscope hctx
  exact (if_neg (by simp [hwriter, hlegal])).trans (if_pos hgo)

/-- The oldest invalidation drops the translations it names (R418). -/
theorem Dev.mmuInvDone_of_queued {inv : Nat × Nat × Nat} {invs : List (Nat × Nat × Nat)} (hqueue : d.mmu.invs = inv :: invs) :
    d.mmuInvDone =
      let gone (t : Tlb) : Bool := inv.1 == 0 || (t.ctx == inv.2.1 && (inv.1 == 1 || t.page == inv.2.2 / 2 ^ t.log))
      (d.withMmu (fun m => { m with tlb := m.tlb.filter (fun t => !gone t), invs := invs })).raise mmuPg 2 := by
  simp only [Dev.mmuInvDone, hqueue]

-- ==== the movers (R419, R421) ====

section

variable {who : Owner} {ch v : Nat} (hwriter : mmuWriter who = true)

include hwriter

/-- START of a channel that runs nothing copies its addresses and length and lets it wait (R419). -/
theorem Dev.movCtrl_of_start {prio ctx : Nat} (hfree : d.movFree ch = true) (hstart : bitAt v 31 = true)
    (hprio : bits v 25 24 = prio) (hctx : bits v 3 0 = ctx) :
    d.movCtrl who ch v =
      let d := (d.setFld mmuPg (R.MOV_CTRL_PRIO.at ch) prio).setFld mmuPg (R.MOV_CTRL_CTX.at ch) ctx
      let d := d.setWord mmuPg (0x1004 + 0x40 * ch) (who.code * 2 ^ 24)
      let d := (d.setFld mmuPg (R.MOV_CUR_SRC_DVA.at ch) (d.fld mmuPg (R.MOV_SRC_DVA.at ch))).setFld mmuPg
        (R.MOV_CUR_DST_DVA.at ch) (d.fld mmuPg (R.MOV_DST_DVA.at ch))
      (d.setFld mmuPg (R.MOV_REMAIN_BYTES.at ch) (d.fld mmuPg (R.MOV_LEN_BYTES.at ch))).movWait ch := by
  subst hprio hctx
  exact (if_neg (by rw [hwriter]; decide)).trans ((if_pos hstart).trans (if_neg (by rw [hfree]; decide)))

/-- RESUME lets a parked channel wait again (R421). -/
theorem Dev.movCtrl_of_resume (hparked : d.movState ch = 3) : d.movCtrl who ch (2 ^ 30) = d.movWait ch :=
  (if_neg (by rw [hwriter]; decide)).trans ((if_neg (by decide)).trans ((if_pos (by decide)).trans (if_pos hparked)))

/-- ABORT ends a running channel after its block and a waiting or parked one at once; where nothing runs it changes nothing
(R421; assumption 97). -/
theorem Dev.movCtrl_of_abort : d.movCtrl who ch (2 ^ 29) =
    if d.movState ch = 2 then d.setMov ch { d.mov ch with abort := true }
    else if d.movState ch = 1 || d.movState ch = 3 then d.movAborted ch else d :=
  (if_neg (by rw [hwriter]; decide)).trans ((if_neg (by decide)).trans ((if_neg (by decide)).trans (if_pos (by decide))))

end

/-- The channel whose turn it is takes a free slot (R419). -/
theorem Dev.movGrant_of_slot {c : Nat} (bad : Bool) (hnext : d.movNext = some c)
    (hslot : ((List.range 32).filter (fun x => d.movState x == 2)).length < 4) :
    d.movGrant bad = (d.setMovState c 2).movIssue c bad := by
  simp only [Dev.movGrant, hnext, if_pos hslot]

/-- A running channel whose data has come, all of it from and to the deep store, ends its block (R419, R420). -/
theorem Dev.movBlock_of_data {ch : Nat} {e : Dev} {m : Mov} (host : List Byte) (fail bad : Bool) (hmov : d.mov ch = m)
    (hruns : d.movState ch = 2) (htake : d.dsTake (0x20 + ch) 0 = (false, e)) (hhere : e.dsPending (0x20 + ch) 0 = false)
    (hstore : (m.src ++ m.dst).any (·.1) = false) :
    d.movBlock ch host fail bad =
      let n := (m.src.map (·.2.2)).sum
      let bs := e.readParts m.src host
      let d' := bs.2.writeParts (0x20 + ch) m.dst bs.1
      let d' := (d'.setFld mmuPg (R.MOV_CUR_SRC_DVA.at ch) (d'.fld mmuPg (R.MOV_CUR_SRC_DVA.at ch) + n)).setFld mmuPg
        (R.MOV_CUR_DST_DVA.at ch) (d'.fld mmuPg (R.MOV_CUR_DST_DVA.at ch) + n)
      let d' := d'.setFld mmuPg (R.MOV_REMAIN_BYTES.at ch) (d'.fld mmuPg (R.MOV_REMAIN_BYTES.at ch) - n)
      if d'.fld mmuPg (R.MOV_REMAIN_BYTES.at ch) = 0 then d'.movDone ch
      else if m.abort then d'.movAborted ch
      else if m.ownerGone then d'.movPark ch 6
      else if m.preempt then (d'.incSat mmuPg (R.MOV_STAT_PREEMPTS.at ch)).movWait ch
      else d'.movIssue ch bad := by
  subst hmov
  rw [Dev.movBlock, if_neg (not_not_intro hruns), htake]
  exact (if_neg (by rw [hhere]; decide)).trans (if_neg (by rw [hstore]; simp))

end

/-- Settles O56: each command by its test, or by the lemma that says what its operation does under the conditions named.
ABORT where nothing runs, the order of the commands in one write and the queue of invalidations are assumption 97; that USE
is drawn at each credit is assumption 13. -/
theorem storeCommandsComplete : Obligations.StoreCommandsComplete := by
  intro s who arrived requester found addr r rs code hot walkBad fail scope ctx ch prio inv invs host c d off
  have hd : s.begun = d := rfl
  clear_value d
  refine ⟨?grant, ?back, ?due, ?memory, ?restart, ?inv, ?invDone, ?mover, ?slot, ?block⟩
  case grant => exact fun hmain hon => State.runDst_next_at hd hmain hon rfl
  case back =>
    exact fun hmain hon hread hplain => State.runDst_next_at hd hmain hon (Dev.dsReturn_of_read hread hplain)
  case due =>
    exact fun hmain hon => ⟨fun hdue => State.runDst_next_at hd hmain hon (Dev.dsStarve_of_due hdue),
      fun hdue => State.runDst_next_at hd hmain hon (Dev.dsStall_of_due hdue)⟩
  case memory =>
    intro hmain hon
    refine ⟨State.runDst_next_at hd hmain hon rfl, State.runDst_next_at hd hmain hon rfl, fun hscrub hroom => ?_,
      fun hmore => State.runDst_next_at hd hmain hon (if_pos hmore)⟩
    exact State.runDst_next_at hd hmain hon (Dev.scrub_of_room hscrub (decide_eq_true hroom))
  case restart => exact fun hadm => State.run_gateW_next_at hd hadm (if_pos (by decide))
  case inv =>
    intro hadm hwriter hlegal
    have hgo : bitAt (2 ^ 31 + scope.val * 2 ^ 29 + ctx.val) 31 = true := by rw [bitAt, beq_iff_eq]; omega
    have hscope : bits (2 ^ 31 + scope.val * 2 ^ 29 + ctx.val) 30 29 = scope.val := by unfold bits; omega
    have hctx : bits (2 ^ 31 + scope.val * 2 ^ 29 + ctx.val) 3 0 = ctx.val := by unfold bits; omega
    exact State.run_gateW_next_at hd hadm (Dev.mmuInv_of_scope hwriter hlegal hgo hscope hctx)
  case invDone => exact fun hmain hqueue => State.runMain_next_at hd hmain (Dev.mmuInvDone_of_queued hqueue)
  case mover =>
    intro hadm hwriter
    have hstart : bitAt (2 ^ 31 + prio.val * 2 ^ 24 + ctx.val) 31 = true := by rw [bitAt, beq_iff_eq]; omega
    have hprio : bits (2 ^ 31 + prio.val * 2 ^ 24 + ctx.val) 25 24 = prio.val := by unfold bits; omega
    have hctx : bits (2 ^ 31 + prio.val * 2 ^ 24 + ctx.val) 3 0 = ctx.val := by unfold bits; omega
    exact ⟨fun hfree => State.run_gateW_next_at hd hadm (Dev.movCtrl_of_start hwriter hfree hstart hprio hctx),
      fun hparked => State.run_gateW_next_at hd hadm (Dev.movCtrl_of_resume hwriter hparked),
      State.run_gateW_next_at hd hadm (Dev.movCtrl_of_abort hwriter)⟩
  case slot => exact fun hmain hnext hslot => State.runMain_next_at hd hmain (Dev.movGrant_of_slot walkBad hnext hslot)
  case block =>
    intro hmain hruns m htaken hhere hstore
    exact State.runMain_next_at hd hmain
      (Dev.movBlock_of_data host fail walkBad rfl hruns (Prod.ext htaken rfl) hhere hstore)

end Sys2Proof.Machine
end

section
/-! SUPPORT. The service pairs and the slow path (R422 to R437): what a pair's commands and the taking of a slow-path frame
do under the conditions that the statement names, and the statement about the commands. -/

namespace Sys2Proof.Machine

section

variable {d : Dev}

/-- A checkpoint empties the pair's log, and the slot not used last takes the state, which pairs 2 and 3 mirror to the peer
(R425, R429, R493; assumptions 113 and 155). -/
theorem Dev.checkpoint_eq (n : Nat) : d.checkpoint n =
    let early := decide (8192 ≤ (d.pair n).undo.length)
    let d' := (d.incWrap cclPg (R.CCL_PAIR_STAT_CKPT_SEQ.at n)).setWide cclPg (0x88 + 0x10 * n) d.time
    let d' := (d'.setPair n { d'.pair n with undo := [] }).setFld cclPg (R.CCL_PAIR_UNDO_KIB.at n) 0
    let d' := (d'.pairCnt n 0).when early (fun d => d.pairCnt n 1)
    let slot := 1 - (d'.pair n).slot
    let x := Config.free d'.draw.1 % 2 ^ 32
    let d' := d'.draw.2
    let d' := d'.setPair n { d'.pair n with slot := slot, ckpt := x }
    if 2 ≤ n then d'.carbon 3 [n, 0x10000 * slot, (d'.pair n).ckpt] else d' := by
  simp only [Dev.checkpoint, Dev.undoEmpty, Dev.when, decide_eq_true_eq]
  rfl

/-- Of a frame that the slow path takes: its cell is read and it leaves its queue; where no injected error strikes
it, it is lost to an error that the code of its cells cannot correct, or acted on (R433). -/
theorem Dev.slowTake_of_picked {corrected uncorr : Bool} {e left : Dev} {q : Nat} {c : Copy}
    (hduty : d.duty 2 = true) (hdue : d.ccl.slowAt ≤ d.now) (hready : d.stalled 0 12 = false)
    (hpick : d.pick 40 (d.queued 40 + 1) = (some (q, c), e)) (halive : d.pairState 2 ≠ 5 ∨ d.pairState 3 ≠ 5)
    (hleft : Dev.released { e with ccl := { e.ccl with slowAt := e.now + slowPeriod } } 40 q c c.read.2 = left)
    (hplain : left.shlInject c = none) :
    d.slowTake corrected uncorr =
      let d2 := if corrected then left.shlCnt 16 else left
      if uncorr then (((d2.shlCnt 15).raise shlPg 3).fault { cls := 0, page := shlPg, checker := 0x10 }).endOf c
      else ((((d2.txSettle c.frm.id 0 none).endOf c).slowCnt 0).slowAct { c.frm with data := c.read.1 }).lowWater := by
  have hdead : (d.pairState 2 == 5 && d.pairState 3 == 5) = false := by
    rcases halive with h | h
    · simp [h]
    · simp [h]
  have hturn : ¬ ((!false && !d.duty 2) || (!false && decide (d.now < d.ccl.slowAt)) || d.stalled 0 0x0C) = true := by
    simp [hduty, hready, hdue]
  simp only [Dev.slowTake, hdead, if_neg hturn, hpick, hleft, hplain]
  rfl

end

/-- Settles O57: each command by its test, or by the lemma that says what its operation does under the conditions named. The
spacing of slow-path frames is assumption 71. -/
theorem clusterCommandsComplete : Obligations.ClusterCommandsComplete := by
  intro s n cause point corr corrected uncorr d
  have hd : s.begun = d := rfl
  clear_value d
  refine ⟨?checkpoint, ?restart, ?resumed, ?takeover, ?slow, ?datagrams⟩
  case checkpoint =>
    exact fun hmain hruns => State.runMain_next_at hd hmain
      ((if_pos (by rw [hruns]; decide)).trans (congrArg (fun d : Dev => d.addCount _ _ _) (Dev.checkpoint_eq n.val)))
  case restart =>
    intro hmain hruns hcause hinjected
    refine State.runMain_next_at hd hmain ((if_neg ?_).trans (if_neg hinjected))
    simp only [hruns, Bool.or_eq_true, decide_eq_true_eq, not_or]
    exact ⟨by decide, fun h => hcause (congrArg Fin.val h)⟩
  case resumed =>
    intro hmain hrestarts
    have hst : ¬ d.pairState n ≠ 3 := not_not_intro hrestarts
    exact ⟨State.runMain_next_at hd hmain ((if_neg hst).trans (if_neg (by decide))),
      State.runMain_next_at hd hmain ((if_neg hst).trans (if_pos rfl))⟩
  case takeover =>
    intro hmain hfailed hpartner hcover
    exact State.runMain_next_at hd hmain (if_neg (by simp [hfailed, hpartner, hcover]))
  case slow =>
    rintro hmain hduty hdue hready d0 d' ⟨q, c⟩ hpick d2 hplain halive
    have hpicked : d.pick 40 (d.queued 40 + 1) = (some (q, c), d0) := Prod.ext hpick rfl
    have hleft : d'.released 40 q c c.read.2 = d2 := rfl
    clear_value d2
    exact State.runMain_next_at hd hmain (Dev.slowTake_of_picked hduty hdue hready hpicked halive hleft hplain)
  case datagrams =>
    intro hmain
    refine State.runMain_next_at hd hmain ?_
    simp only [Dev.when, bne_iff_ne, ite_not]

end Sys2Proof.Machine
end

section
/-! SUPPORT. The keys, the tamper sources, the Wax engine and the MACsec tables (R438 to R462): what each operation does
under the conditions that the statement names, and the statement about the commands. -/

namespace Sys2Proof.Machine

-- ==== the words of the key commands ====

/-- Below the op a command word has the slot, and what it adds there; with bit 30 above it the word still asks for its
command. -/
theorem keyCmd_fields {op rest : Nat} (slot : BitVec 8) (root : Bool) (hop : op < 16) (hrest : rest < 2 ^ 16) :
    bitAt (keyCmd op slot + b2n root * 2 ^ 30 + rest) 31 = true
      ∧ bits (keyCmd op slot + b2n root * 2 ^ 30 + rest) 27 24 = op := by
  have hroot : b2n root ≤ 1 := by cases root <;> decide
  rw [bitAt, beq_iff_eq, bits, keyCmd]
  constructor
  · omega
  · omega

/-- So does the word that names a slot. -/
theorem keyCmd_fields_slot {op : Nat} (slot : BitVec 8) (hop : op < 16) :
    bitAt (keyCmd op slot) 31 = true ∧ bits (keyCmd op slot) 27 24 = op := by
  simpa [b2n] using keyCmd_fields (rest := 0) slot false hop (by decide)

/-- So does the word that names a slot and a parent. -/
theorem keyCmd_fields_parent {op : Nat} (slot parent : BitVec 8) (hop : op < 16) :
    bitAt (keyCmd op slot + parent.toNat * 2 ^ 8) 31 = true ∧ bits (keyCmd op slot + parent.toNat * 2 ^ 8) 27 24 = op := by
  simpa only [b2n, Bool.false_eq_true, if_false, Nat.zero_mul, Nat.add_zero] using
    keyCmd_fields (rest := parent.toNat * 2 ^ 8) slot false hop (by omega)

/-- So does the word of DERIVE. -/
theorem keyCmd_fields_derive {op : Nat} (slot parent : BitVec 8) (root : Bool) (format : Fin 2) (hop : op < 16) :
    bitAt (keyCmd op slot + b2n root * 2 ^ 30 + parent.toNat * 2 ^ 8 + format.val) 31 = true
      ∧ bits (keyCmd op slot + b2n root * 2 ^ 30 + parent.toNat * 2 ^ 8 + format.val) 27 24 = op := by
  simpa only [Nat.add_assoc] using keyCmd_fields (rest := parent.toNat * 2 ^ 8 + format.val) slot root hop (by omega)

section

variable {d : Dev}

-- ==== keys and tampering (R439 to R450) ====

/-- GO of a command of the vault by the lock's holder, while none runs, plans it; one that ciphers asks for the Wax engine
(R444; the order of a plan's tests is assumption 100). -/
theorem Dev.keyGo_of_legal {who : Owner} {op v : Nat} (hheld : d.holds keyPg who = true)
    (hidle : d.flag keyPg R.KEY_CMD_STAT_BUSY = false) (hfields : bitAt v 31 = true ∧ bits v 27 24 = op)
    (hop : 1 ≤ op ∧ op ≤ 8) :
    d.keyGo who v =
      let d := (d.setWord keyPg 0xC0 (v &&& 0x4FFFFF01)).setFlag keyPg R.KEY_CMD_STAT_BUSY true
      let plan := (d.cnt keyPg 0).keyPlan who.code v
      let d := plan.2.withKeys (fun x => { x with run := some { plan.1 with since := plan.2.now } })
      if usesWax op && plan.1.result = 0 then (d.withWax (fun w => { w with keyWork := true })).waxKick else d := by
  obtain ⟨hgo, rfl⟩ := hfields
  have hlegal : ¬ (!d.holds keyPg who || d.flag keyPg R.KEY_CMD_STAT_BUSY || bits v 27 24 = 0 || 8 < bits v 27 24) = true := by
    simp only [hheld, hidle, Bool.not_true, Bool.or_eq_true, decide_eq_true_eq, Bool.false_eq_true, false_or]
    omega
  exact (if_neg (by rw [hgo]; decide)).trans (if_neg hlegal)

/-- A command that was planned with no failure has its effect at its end, recorded in flash where the key is kept there
(R445, R449). -/
theorem Dev.keyDone_of_good {run : KeyRun} (stored : Bool) (hrun : d.keys.run = some run) (hgood : run.result = 0)
    (hheld : (d.keyRecords run && d.flashHeld run.since) = false) :
    d.keyDone stored =
      if d.keyRecords run then
        if stored then ((d.keyEffect run).recordSlot run.slot).keyEnd run 0 else d.keyEnd run 8
      else (d.keyEffect run).keyEnd run 0 := by
  simp only [Dev.keyDone, hrun, hgood, ne_eq, not_true, if_false]
  cases hrecords : d.keyRecords run with
  | false => rfl
  | true =>
    rw [hrecords, Bool.true_and] at hheld
    exact (if_pos rfl).trans ((if_neg (by rw [hheld]; decide)).trans (if_pos rfl).symm)

/-- A tamper source that is enabled clears the slots and locks the vault out, where it was not yet (R448; assumption 101). -/
theorem Dev.tamper_of_enabled {src : Nat} (hon : d.tamperOn src = true)
    (hfirst : (d.withKeys (fun k => { k with active := k.active ||| 2 ^ src })).lockout = false) :
    d.tamper src =
      let d' := d.withKeys (fun k => { k with active := k.active ||| 2 ^ src })
      let d' := d'.setWord keyPg 0x88 (d'.word keyPg 0x88 ||| 2 ^ src)
      let d' := (d'.setFlag keyPg R.KEY_TAMPER_STAT_LOCKOUT true).setFlag keyPg R.KEY_TAMPER_STAT_FUSE_PENDING true
      let kill := d'.flag keyPg R.KEY_TAMPER_CFG_KILL_ROOT || decide (32 ≤ d'.keys.tamperFuses)
      let d' := d'.withKeys (fun k => { k with revokeDue := kill })
      let d' := ((d'.tamperClear).cnt keyPg 4).raise keyPg 1
      d'.when d'.mainRun (fun d => d.fault { cls := 10, page := keyPg }) :=
  (if_neg (by rw [hon]; decide)).trans (if_neg (by rw [hfirst]; decide))

-- ==== the Wax engine (R452 to R454) ====

section

variable {who : Owner} {c : Nat} (haccepts : ctxAccepts c who.code = true)

include haccepts

/-- GO on a context that the party may write starts or continues a message (R452). -/
theorem Dev.waxCtrl_of_go {v : Nat} (hcmd : bitAt v 31 = true ∧ bitAt v 30 = false ∧ bitAt v 29 = false)
    (hwritable : d.ctxWritable c who.code = true) (hmode : 1 ≤ bits v 23 20 ∧ bits v 23 20 ≤ 4)
    (hfirst : ((d.ctxState c = 4) == bitAt v 28) = false) :
    d.waxCtrl who c v =
      (d.setWord waxPg (0x800 + 0x80 * c) (v &&& 0x1FFFFF00)).ctxGo c who.code (bitAt v 28) (bitAt v 27) := by
  obtain ⟨hgo, habort, hrelease⟩ := hcmd
  have hlegal : ¬ (!d.ctxWritable c who.code || bits v 23 20 = 0 || 4 < bits v 23 20) = true := by
    simp only [hwritable, Bool.not_true, Bool.or_eq_true, decide_eq_true_eq, Bool.false_eq_true, false_or]
    omega
  rw [Dev.waxCtrl, if_neg (by rw [haccepts, hgo, habort, hrelease]; decide), if_neg (by rw [habort]; decide),
    if_neg (by rw [hrelease]; decide), if_neg hlegal, if_neg (by rw [hgo]; decide), if_neg (by rw [hfirst]; decide)]

/-- ABORT by the owner of a message ends it, at a block's boundary where the engine works (R454). -/
theorem Dev.waxCtrl_of_abort (howner : d.ctxOwner c = who.code) (hruns : 1 ≤ d.ctxState c ∧ d.ctxState c ≤ 4) :
    d.waxCtrl who c (2 ^ 30) =
      if d.wax.cur.isSome then d.setWaxMsg c { d.waxMsg c with aborting := true } else d.ctxAbort c :=
  (if_neg (by rw [haccepts]; decide)).trans ((if_pos (by decide)).trans (if_pos (by simp [howner, hruns])))

/-- RELEASE by the owner of a message that has ended frees the context (R454). -/
theorem Dev.waxCtrl_of_release (howner : d.ctxOwner c = who.code) (hended : d.ctxState c = 5) :
    d.waxCtrl who c (2 ^ 29) = d.ctxRelease c :=
  (if_neg (by rw [haccepts]; decide)).trans ((if_neg (by decide)).trans ((if_pos (by decide)).trans
    (if_pos (by simp [howner, hended]))))

end

/-- Within a chunk a block's boundary ends what is to be aborted and lets the engine switch (R453). -/
theorem Dev.waxBoundary_of_block {w : Nat} (hruns : d.wax.cur = some w) :
    d.waxBoundary false =
      let d' := (List.range 4).foldl (fun d c =>
        if (d.waxMsg c).aborting && d.ctxState c != 0 then d.ctxAbort c else d) (d.cnt waxPg 0)
      Dev.waxSwitch 5 d' := by
  simp only [Dev.waxBoundary, hruns]
  rfl

-- ==== the MACsec tables (R462) ====

/-- GO of a table command, while none runs, takes the selected SA and the words (R462). -/
theorem Dev.saGo_of_idle {k v : Nat} {write : Bool} (hgo : bitAt v 31 = true) (hwrite : bitAt v 0 = write)
    (hop : bits v 0 0 = b2n write) (hidle : d.flag ⟨.msc, k⟩ R.MSC_SA_STAT_BUSY = false) :
    d.saGo k v =
      let p : Page := ⟨.msc, k⟩
      let r : SaRun := { write := write, j := d.fld p R.MSC_SA_SEL_PORT, index := d.fld p R.MSC_SA_SEL_INDEX,
                         words := (List.range 12).map (fun w => d.fld p (R.MSC_SA_W_WORD.at w)) }
      let d := { d with msc := { d.msc with runs := d.msc.runs.set k r } }
      (d.setFld p R.MSC_SA_CMD_OP (b2n write)).setFlag p R.MSC_SA_STAT_BUSY true := by
  subst hwrite
  rw [← hop]
  exact (if_neg (by rw [hgo]; decide)).trans (if_neg (by rw [hidle]; decide))

/-- A table command ends with its result (R462). -/
theorem Dev.saDone_of_running {k : Nat} {sa : SaRun} (hrun : d.msc.runs.get? k = some sa) :
    d.saDone k =
      let p : Page := ⟨.msc, k⟩
      let d' : Dev := { d with msc := { d.msc with runs := d.msc.runs.erase k } }
      let port := 4 * k + sa.j
      let done := if sa.write then d'.saWrite port sa.index sa.words
        else (0, (List.range 12).foldl (fun d w =>
          d.setFld p (R.MSC_SA_W_WORD.at w) ((saWords sa.index (d.sa port sa.index).words).getD w 0)) d')
      let d' := (done.2.setFlag p R.MSC_SA_STAT_BUSY false).setFlag p R.MSC_SA_STAT_DONE true
      (d'.setFld p R.MSC_SA_STAT_RESULT done.1).raise p 0 := by
  simp only [Dev.saDone, hrun]

end

/-- Settles O58: each command by its test, or by the lemma that says what its operation does under the conditions named. The
order of the tests of a key command is assumption 100; what tampering clears is assumption 101. -/
theorem securityCommandsComplete : Obligations.SecurityCommandsComplete := by
  intro s who slot parent root stored format source c ctrl k run sa w d
  have hd : s.begun = d := rfl
  clear_value d
  refine ⟨?key, ?done, ?tamper, ?fuse, ?revoke, ?quiet, ?wax, ?boundary, ?table, ?tableDone⟩
  case key =>
    intro hadm hheld hidle begins
    have command {v op : Nat} (hfields : bitAt v 31 = true ∧ bits v 27 24 = op) (hop : 1 ≤ op ∧ op ≤ 8) :
        s.run (fun d => d.keyWrite who v) = .next (s.ends (begins op v)) :=
      State.run_gateW_next_at hd hadm (Dev.keyGo_of_legal hheld hidle hfields hop)
    exact ⟨command (keyCmd_fields_slot slot (by decide)) (by decide),
      command (keyCmd_fields_derive slot parent root format (by decide)) (by decide),
      command (keyCmd_fields_slot slot (by decide)) (by decide),
      command (keyCmd_fields_parent slot parent (by decide)) (by decide),
      command (keyCmd_fields_parent slot parent (by decide)) (by decide),
      command (keyCmd_fields_parent slot parent (by decide)) (by decide),
      command (keyCmd_fields_slot slot (by decide)) (by decide),
      command (keyCmd_fields_slot slot (by decide)) (by decide)⟩
  case done =>
    exact fun hrun hgood hheld => (State.run_at hd).trans (State.next_ends (Dev.keyDone_of_good stored hrun hgood hheld))
  case tamper =>
    intro hon d' hfirst
    refine (State.run_at hd).trans (State.next_ends ?_)
    exact Dev.tamper_of_enabled hon hfirst
  case fuse => exact fun hpending => (State.run_at hd).trans (State.next_ends (if_pos hpending))
  case revoke =>
    exact fun hdue hpending => (State.run_at hd).trans (State.next_ends (if_pos (by rw [hdue, hpending]; decide)))
  case quiet => exact State.run_at hd
  case wax =>
    intro hadm haccepts v
    have hcmd : bitAt v 31 = true ∧ bitAt v 30 = false ∧ bitAt v 29 = false := by
      have hctrl := ctrl.isLt
      simp only [v, bitAt, beq_iff_eq, beq_eq_false_iff_ne]
      omega
    refine ⟨fun hwritable hmin hmax hfirst => ?_, fun howner hmin hmax => ?_, fun howner hended => ?_⟩
    · exact State.run_gateW_next_at hd hadm (Dev.waxCtrl_of_go haccepts hcmd hwritable ⟨hmin, hmax⟩ hfirst)
    · exact State.run_gateW_next_at hd hadm (Dev.waxCtrl_of_abort haccepts howner ⟨hmin, hmax⟩)
    · exact State.run_gateW_next_at hd hadm (Dev.waxCtrl_of_release haccepts howner hended)
  case boundary => exact fun hruns => (State.run_at hd).trans (State.next_ends (Dev.waxBoundary_of_block hruns))
  case table =>
    intro p hadm hidle go
    exact ⟨State.run_gateW_next_at hd hadm (Dev.saGo_of_idle (by decide) (by decide) (by decide) hidle),
      State.run_gateW_next_at hd hadm (Dev.saGo_of_idle (by decide) (by decide) (by decide) hidle)⟩
  case tableDone => exact fun hmain hrun => State.runMain_next_at hd hmain (Dev.saDone_of_running hrun)

end Sys2Proof.Machine
end

section
/-! SUPPORT. The pair of units over the Adjor link (R487 to R501): what each operation does under the conditions that the
statement names, and the statement about the commands. -/

namespace Sys2Proof.Machine

section

variable {d : Dev}

-- ==== hello and heartbeat (R489, R496) ====

/-- A matching HELLO of another number of the pair, from a unit that has a state, is kept; a unit that joins copies from a
holder, or is ALONE (R496; the HELLO's layout is assumption 14). -/
theorem Dev.helloRx_of_joining {ws : List Nat} {d' : Dev} (hon : d.adjOn = true)
    (hkey : helloKey ws = helloKey (d.helloWords d.adjState)) (hnumber : bits (ws.getD 1 0) 11 8 ≠ d.fld adjPg R.ADJ_CFG_NUMBER)
    (hstate : bits (ws.getD 1 0) 31 28 ≠ 0)
    (hkept : (d.withAdj (fun a => { a with hello := some ws })).setFld adjPg R.ADJ_STAT_PEER_NUMBER
      (bits (ws.getD 1 0) 11 8) = d')
    (hjoins : d'.adjState = 1) :
    d.helloRx ws =
      let d' := d'.withAdj (fun a => { a with peerLost := false, missed := 0, heardAt := d'.now })
      if bitAt (ws.getD 1 0) 27 then d'.copyStart else d'.adjPut 2 := by
  subst hkept
  have hmatches : ¬ (helloKey ws ≠ helloKey (d.helloWords d.adjState)
      || bits (ws.getD 1 0) 11 8 == d.fld adjPg R.ADJ_CFG_NUMBER) = true := by
    rw [decide_eq_false (not_not_intro hkey), Bool.false_or, beq_iff_eq]
    exact hnumber
  exact (if_neg (by rw [hon]; decide)).trans ((if_neg hmatches).trans ((if_neg hstate).trans (if_pos hjoins)))

/-- A heartbeat shows what the peer tells of itself; a holder that sees the peer begin COPYING sends the copy (R489,
R496). -/
theorem Dev.heartbeatRx_of_on (ws : List Nat) (hon : d.adjOn = true) :
    d.heartbeatRx ws =
      let st := bits (ws.getD 0 0) 31 28
      let d' := d.setFld adjPg R.ADJ_STAT_PEER_STATE st
      let d' := (d'.setFlag adjPg R.ADJ_STAT_PEER_SAFE (bitAt (ws.getD 0 0) 26)).setFld adjPg R.ADJ_STAT_PEER_NUMBER
        (bits (ws.getD 0 0) 19 16)
      let d' := d'.withAdj (fun a => { a with
        heardAt := d'.now, missed := 0, peerLost := false, peerIndex := ws.getD 1 0 + 2 ^ 32 * ws.getD 2 0 })
      let d' := d'.roundsCheck (ws.getD 0 0 % 65536)
      if d'.issues && st = 3 && d.fld adjPg R.ADJ_STAT_PEER_STATE ≠ 3 then d'.copySend
      else if d'.adjState = 6 && st = 4 then d'.adjPut 5
      else if bitAt (ws.getD 0 0) 27 && !d'.hasClaim && !d'.safe
          && (d'.adjState == 5 || d'.adjState == 6 || d'.adjState == 7) then d'.copyStart
      else d' :=
  if_neg (by rw [hon]; decide)

/-- A heartbeat of a peer that was heard and is missed counts; the third in a row loses the peer (R489). -/
theorem Dev.heartbeatMissed_of_heard (ends : Dev → Access → Dev) (hon : d.adjOn = true) (hheard : d.adj.peerLost = false)
    (hhello : d.adj.hello.isNone = false) :
    d.heartbeatMissed ends =
      let n := d.adj.missed + 1
      let d' := (d.withAdj (fun a => { a with missed := n })).cnt adjPg 0
      if n < 3 then d' else d'.peerLose ends :=
  if_neg (by rw [hon, hheard, hhello]; decide)

-- ==== frames that ask an ACK (R488) ====

/-- A frame with a good CRC that no injected error strikes is acknowledged, and acts (R488). -/
theorem Dev.adjRx_of_good {type seq : Nat} {f : Dev → Dev} (hon : d.adjOn = true) (hplain : d.isArmed adjPg 0 = false) :
    d.adjRx type seq true f = f (d.adjSend 5 [type, seq]) :=
  (if_neg (by rw [hon]; decide)).trans (if_neg (by rw [hplain]; decide))

/-- A good response ends the remote access of its tag; a read takes its data (R488; the layout is assumption 23). -/
theorem Dev.remoteResp_of_good {ws : List Nat} {req : Nat × Access}
    (hreq : d.adj.remote.find? (fun r => r.1 == ws.getD 0 0) = some req) (hgood : ws.getD 1 0 = 0x80) :
    d.remoteResp ws =
      let d' := d.withAdj (fun x => { x with remote := x.remote.filter (fun r => r.1 != req.1) })
      if req.2.write then d' else d'.answer req.2 0x80 (ws.getD 2 0 + 2 ^ 32 * ws.getD 3 0) := by
  simp only [Dev.remoteResp, hreq]
  exact if_pos hgood

/-- A frame that no ACK has answered is sent again, to the eighth time (R488). -/
theorem Dev.resend_of_waiting {type seq : Nat} {u : Unacked}
    (hsent : d.adj.unacked.find? (fun u => u.type == type && u.seq == seq) = some u) (hmore : u.tries < 8) :
    d.resend type seq =
      let d' := d.withAdj (fun a => { a with
        unacked := a.unacked.map (fun x => if x = u then { x with tries := x.tries + 1 } else x) })
      (d'.cnt adjPg 8).when ((d'.cnt adjPg 8).fld adjPg R.ADJ_STAT_LANES != 0)
        (fun d => d.emit (.adjor type seq true u.words)) := by
  simp only [Dev.resend, hsent]
  exact if_neg (by omega)

-- ==== orders and time (R492, R493) ====

section

variable {o : Order} (hdue : d.orderDue = some o)

include hdue

/-- The order that is due is applied by its kind (R492, R499, R500). -/
theorem Dev.orderApply_of_due : d.orderApply =
    if o.kind = 5 then d.digestTake o
    else if o.kind = 4 then d.markTake o
    else if o.kind = 1 ∨ o.kind = 2 then
      match d.orderWrite o with
      | some d' => d'.orderPast o (if d'.refusals = d.refusals then 0 else 1) (d.orderCmd d')
      | none => (d.orderPast o 1).diverge false
    else (d.orderPast o 1).diverge false := by
  simp only [Dev.orderApply, hdue] <;> rfl

/-- A DIGEST order compares digests (R499). -/
theorem Dev.orderApply_of_digest (hkind : o.kind = 5) : d.orderApply = d.digestTake o :=
  (Dev.orderApply_of_due hdue).trans (if_pos hkind)

/-- A MARK order marks the place where the claim may pass (R500). -/
theorem Dev.orderApply_of_mark (hkind : o.kind = 4) : d.orderApply = d.markTake o :=
  (Dev.orderApply_of_due hdue).trans ((if_neg (by rw [hkind]; decide)).trans (if_pos hkind))

/-- A write order is the write, or diverges where there is nothing that it could write (R492). -/
theorem Dev.orderApply_of_write (hkind : o.kind = 1) : d.orderApply =
    match d.orderWrite o with
    | some d' => d'.orderPast o (if d'.refusals = d.refusals then 0 else 1) (d.orderCmd d')
    | none => (d.orderPast o 1).diverge false :=
  (Dev.orderApply_of_due hdue).trans ((if_neg (by rw [hkind]; decide)).trans ((if_neg (by rw [hkind]; decide)).trans
    (if_pos (.inl hkind))))

end

/-- A unit that stands by shows the error of its time against the holder's, and follows it (R492; the frame's layout is
assumption 22). -/
theorem Dev.timeRx_of_standby (ws : List Nat) (hon : d.adjOn = true) (hstate : d.adjState = 4) :
    d.timeRx ws =
      let ns : Nat := ws.getD 0 0 + 2 ^ 32 * ws.getD 1 0
      let d' := d.setFld adjPg R.ADJ_TIME_ERR_NS (satTo 32 ((d.time : Int) - ns))
      if d'.pairFollow 0 then
        d'.setAnchor 0 { d'.anchor 0 with sub := ns * subPerNs, rate := signed 32 (ws.getD 2 0) }
      else d' :=
  if_neg (by rw [hon, hstate]; decide)

-- ==== lanes and the claim (R487, R494 to R500) ====

/-- A lane that is up goes down, and its frames go to the other (R487). -/
theorem Dev.laneDown_of_up {l : Fin 2} (hup : bitAt (d.fld adjPg R.ADJ_STAT_LANES) l = true) :
    d.laneDown l =
      let d' := (d.setFld adjPg R.ADJ_STAT_LANES (d.fld adjPg R.ADJ_STAT_LANES - 2 ^ l.val)).withAdj (fun a => { a with
        unacked := a.unacked.map (fun u => if u.lane = l.val then { u with lane := 1 - l.val, tries := 0 } else u) })
      (d'.cnt adjPg 9).raise adjPg 4 :=
  if_neg (by rw [hup]; decide)

/-- A round that a unit without the claim enters gives it the claim, or the loss (R494, R495). -/
theorem Dev.claimRound_of_claimless {d' : Dev} {other : Option (Bool × Fin 16)} {levels : Nat} (hon : d.adjOn = true)
    (henters : d.entersRound = true) (hclaimless : d.hasClaim = false)
    (hpulse : ((d.withAdj (fun a => { a with rounds := (a.rounds + 1) % 65536 })).emit (.pin 0x21 0)).emit (.pin 0x21 1)
      = d') :
    d.claimRound other levels = if d'.winsRound other then d'.claimGain levels else d'.roundLost false := by
  have hclaim : d'.hasClaim = false := hpulse ▸ hclaimless
  simp only [Dev.claimRound, hon, henters, Bool.not_true, Bool.false_and, Bool.or_false, Bool.false_eq_true, if_false,
    hpulse, hclaim, Dev.when, Bool.false_or, Bool.not_eq_true']
  cases d'.winsRound other with
  | true => rfl
  | false => rfl

/-- YIELD that nothing bars issues the MARK order (R500). -/
theorem Dev.adjCmd_of_yield (hfree : d.yieldBarred = false) :
    d.adjCmd (2 ^ 31) =
      let d := d.issue 4 0 0 0 0
      d.withAdj (fun a => { a with markIssued := some (d.fld adjPg R.ADJ_ORDER_IDX_INDEX) }) :=
  (if_pos (by decide)).trans (if_neg (by rw [hfree]; decide))

/-- RESYNC of a unit that stands by copies again (R499). -/
theorem Dev.adjCmd_of_resync (hstate : d.adjState = 4) : d.adjCmd (2 ^ 30) = d.copyStart :=
  (if_neg (by decide)).trans ((if_pos (by decide)).trans (if_pos hstate))

end

/-- Settles O59: each command by its test, or by the lemma that says what its operation does under the conditions named. The
layouts of HELLO, of the frames of a remote access and of TIME are assumptions 14, 23 and 22; the rules of the pair that the
manual leaves open are assumption 108. -/
theorem pairCommandsComplete : Obligations.PairCommandsComplete := by
  intro s who words seq orders o type u irqPage inst stat lane other levels m r h req d ws w
  have hd : s.begun = d := rfl
  clear_value d
  refine ⟨?sent, ?hello, ?heartbeat, ?missed, ?frames, ?order, ?acks, ?issued, ?time, ?lanes, ?round, ?join, ?command, ?info⟩
  case sent =>
    exact fun hmain hon => ⟨State.runMain_next_at hd hmain (if_pos hon), State.runMain_next_at hd hmain (if_pos hon)⟩
  case hello =>
    intro hmain hon hkey hnumber hstate d' hjoins
    exact State.runMain_next_at hd hmain (Dev.helloRx_of_joining hon hkey hnumber hstate rfl hjoins)
  case heartbeat =>
    intro hmain hon st d1 d2 d3 d4
    exact State.runMain_next_at hd hmain (congrArg Dev.creditBack (Dev.heartbeatRx_of_on ws hon))
  case missed =>
    exact fun hmain hon hheard hhello => State.runMain_next_at hd hmain
      (congrArg Dev.creditBack (Dev.heartbeatMissed_of_heard Dev.remoteLost hon hheard hhello))
  case frames =>
    intro hmain hon hplain acked
    have taken {type : Nat} {f : Dev → Dev} {d' : Dev} (hacts : f (acked type) = d') :
        s.runMain (fun d => d.adjRx type seq.toNat true f) = .next (s.ends d') :=
      State.runMain_next_at hd hmain ((Dev.adjRx_of_good hon hplain).trans hacts)
    refine ⟨taken rfl, fun hstandby => taken (if_pos (.inr hstandby)), taken rfl, taken rfl, fun hreq hgood => ?_⟩
    exact taken (Dev.remoteResp_of_good hreq hgood)
  case order =>
    intro hmain hdue
    refine ⟨fun hkind => ?_, fun hkind => ?_, fun hkind => ?_⟩
    · exact State.runMain_next_at hd hmain (Dev.orderApply_of_digest hdue hkind)
    · exact State.runMain_next_at hd hmain (Dev.orderApply_of_mark hdue hkind)
    · exact State.runMain_next_at hd hmain (Dev.orderApply_of_write hdue hkind)
  case acks =>
    exact fun hmain => ⟨State.runMain_at hd hmain,
      fun hsent hmore => State.runMain_next_at hd hmain (Dev.resend_of_waiting hsent hmore)⟩
  case issued =>
    intro hmain hissues
    refine ⟨State.runMain_next_at hd hmain (by rw [Dev.genTx]), fun hnone => ?_, fun hpeer => ?_⟩
    · exact State.runMain_next_at hd hmain (if_pos (by rw [hissues, hnone]; rfl))
    · exact State.runMain_next_at hd hmain (if_pos (by rw [hissues, hpeer]; rfl))
  case time => exact fun hmain hon hstate => State.runMain_next_at hd hmain (Dev.timeRx_of_standby ws hon hstate)
  case lanes =>
    intro hmain lanes
    exact ⟨fun hup => State.runMain_next_at hd hmain (Dev.laneDown_of_up hup),
      fun hon => State.runMain_next_at hd hmain (if_neg (by rw [hon]; decide))⟩
  case round =>
    exact fun hmain hon henters hclaimless =>
      State.runMain_next_at hd hmain (Dev.claimRound_of_claimless hon henters hclaimless rfl)
  case join =>
    exact fun hmain hon hjoins => State.runMain_next_at hd hmain (if_pos (by rw [hon, hjoins]; rfl))
  case command =>
    intro hadm
    exact ⟨fun hfree => State.run_gateW_next_at hd hadm (Dev.adjCmd_of_yield hfree),
      fun hstate => State.run_gateW_next_at hd hadm (Dev.adjCmd_of_resync hstate)⟩
  case info =>
    exact fun hmain hrun hhello => State.runMain_mbServe hd ⟨hmain, hrun⟩ (by rw [hhello])

end Sys2Proof.Machine
end
